-- ==== Sys2Proof/Word.lean ====
section
/-!
DEFINITION. The word types of the module and the finite names of its parts.

Bit vectors hold what the manual treats as bits: registers, lanes, encoded fields. Positions (tiles, dies,
ports) are numbers, and small closed sets are inductives.
-/

namespace Sys2Proof

/-- A byte. -/
abbrev Byte := BitVec 8
/-- A 32-bit lane of a vector register or a 32-bit field. -/
abbrev Lane := BitVec 32
/-- A 64-bit register, instruction word or scalar register. -/
abbrev Word := BitVec 64

/-- A tile position, `die × 144 + ty × 12 + tx` (R20). -/
abbrev TileId := Fin 5760
/-- A die: 0 to 39 are C00 to C39, 40 to 47 are S0 to S7 (R17, Table 6.1). -/
abbrev DieId := Fin 48
/-- A compute die, C00 to C39 (R17). -/
abbrev ComputeDie := Fin 40
/-- A station die, S0 to S7 (R17). -/
abbrev StationId := Fin 8
/-- A host port, port n on station die Sn (R231). -/
abbrev PortId := Fin 8
/-- A partition number (R28, R241). -/
abbrev PartId := Fin 8
/-- A context of a tile (R36). -/
abbrev CtxId := Fin 4

/-- The two bulk planes (R151). -/
inductive Plane where
  | up
  | down
deriving DecidableEq, Repr

/-- The five ports of a router (R151), in the order of RTx_STATUS. -/
inductive Dir where
  | north
  | east
  | south
  | west
  | local
deriving DecidableEq, Repr

/-- The four edges of a die, numbered as NCB_XING numbers them (Table 6.8). -/
inductive Edge where
  | north
  | east
  | south
  | west
deriving DecidableEq, Repr

end Sys2Proof
end

