-- ==== Sys2Proof/Syntax.lean ====
section
/-!
DEFINITION. The commands of the module and their operands.

One command is one indivisible step of spec/opcode_table.json (95_what_each_step_holds.md): the issue of an instruction by a
tile's core, the arrival of a packet or a signal message, an action of one of the module's engines, a host's
register access or command, or an event on a pin. What an engine measures (a temperature, a voltage, which lanes
fail a test) comes in as an operand.
-/

namespace Sys2Proof

/-- The fields of a Ramyr instruction word below MAJ and FN (R121): D [51:47], A [46:42], B [41:37], C [36:32] and the
immediate or extension [31:0]. -/
structure IWord where
  d   : BitVec 5
  a   : BitVec 5
  b   : BitVec 5
  c   : BitVec 5
  ext : BitVec 32
deriving DecidableEq, Repr

/-- A bulk packet (Table 6.1). `data` holds the bytes it carries: the valid bytes of its payload, or its inline bytes when
PL64 is 0. `group` and `seg` are header words 4 and 5 of a collective packet (R191). -/
structure Packet where
  ch      : BitVec 2
  type    : BitVec 4
  plane   : Plane
  tgen    : Bool
  dstDie  : BitVec 6
  dstTile : BitVec 8
  srcDie  : BitVec 6
  srcTile : BitVec 8
  pl64    : BitVec 6
  tailb   : BitVec 6
  inlen   : BitVec 6
  part    : BitVec 3
  poison  : Bool
  nakr    : BitVec 3
  addr    : BitVec 56
  rcnt    : BitVec 6
  rcEn    : Bool
  tag     : BitVec 16
  xdata   : BitVec 48
  injTime : BitVec 48
  hops    : BitVec 8
  group   : Word
  seg     : Word
  data    : List Byte
deriving DecidableEq, Repr

/-- The six requesters of a scratchpad bank (R49), numbered as SCR_CONFLICT_LOG.REQ_A numbers them. -/
inductive Requester where
  | te
  | ve
  | core
  | shunter
  | ni
  | scrubber
deriving DecidableEq, Repr

/-- One request to a scratchpad bank (R49, R50): who asks, for which offset, in which mode and for which context, and whether it writes less
than 64 bits (R53). -/
structure BankReq where
  who    : Requester
  offset : BitVec 23
  strict : Bool
  ctx    : CtxId
  narrow : Bool
deriving DecidableEq, Repr

/-- A unit that applies epochs (Table 11.4): a tile, or a die's own units (station die or die blocks). -/
inductive EpochUnit where
  | tile (t : TileId)
  | die (d : DieId)
deriving DecidableEq, Repr

/-- A node of the signal network (R170). -/
inductive SigNode where
  | tile (t : TileId)
  | station (s : StationId)
deriving DecidableEq, Repr

/-- Where a combined message's contribution comes from (R172): the node itself or the child at a port. -/
inductive Contributor where
  | self
  | child (e : Edge)
deriving DecidableEq, Repr

/-- A register as a reader or writer outside the core names it: by its device global address (R235), by its offset in
BAR0 or BAR4 of a port (R238, R239), or by its offset in the port's configuration space (R231). -/
inductive RegAddr where
  | dga (port : PortId) (a : BitVec 56)
  | bar0 (port : PortId) (offset : BitVec 25)
  | bar4 (port : PortId) (offset : BitVec 20)
  | cfg (port : PortId) (offset : BitVec 12)
deriving DecidableEq, Repr

/-- A physical flash page of a station die: block position on the die (`extent`) and page (R205). -/
structure PhysPage where
  extent : Nat
  row    : Nat
  page   : Fin 15
deriving DecidableEq, Repr

/-- What a REPORT tells (Table 6.6). The spec names the codes of its own reports without giving numbers; `code` is a report by
number. -/
inductive ReportWhat where
  | ctxFault
  | watchdog
  | trigFail
  | epMiss
  | timeFault
  | phaseFault
  | censusReach
  | updateNonfin
  | code (b : Byte)
deriving DecidableEq, Repr

/-- How a device read of host memory ends (R233). -/
inductive HostReadResult where
  | data (bytes : List Byte)
  | unsupported
  | completerAbort
  | poisoned
  | timeout
deriving DecidableEq, Repr

/-- A 64-byte host command (R241) as fetched from submission queue `q` of `port`: its eight words. -/
structure HostCmd where
  port : PortId
  q    : Fin 16
  w0   : Word
  w1   : Word
  w2   : Word
  w3   : Word
  w4   : Word
  w5   : Word
  w6   : Word
  w7   : Word
deriving DecidableEq, Repr

/-- CONSIST_LOAD and whether the host's memory answers the reads of its image (R233, R257). -/
structure LoadCmd where
  c      : HostCmd
  readOk : Bool
deriving DecidableEq, Repr

/-- COPY and, where a host read of its pieces fails, how many pieces come before that one (R233, R241). -/
structure CopyCmd where
  c          : HostCmd
  failedRead : Option Nat
deriving DecidableEq, Repr

/-- A port of a signal node (R170). -/
structure SigPort where
  node : SigNode
  port : Fin 5
deriving DecidableEq, Repr

/-- A message as a signal link counts it (R171, R174): which one it is, and whether it is whole but of a kind, OP or DIR that is reserved. -/
structure SigWord where
  msg      : BitVec 16
  reserved : Bool
deriving DecidableEq, Repr

/-- A routed message's way (R170): from a node to a tile. -/
structure SigWay where
  src : SigNode
  t   : TileId
deriving DecidableEq, Repr

/-- The die of a POWER message, and bits [31:30] of its word 1 (R274). -/
structure PowerTo where
  die : DieId
  pad : BitVec 2
deriving DecidableEq, Repr

/-- A station die whose Peat comes up, and its NAND dies, by channel and chip enable, whose parameters lie outside the factory record (R206). -/
structure PeatStart where
  stn     : StationId
  foreign : List (Fin 16 × Fin 16)
deriving DecidableEq, Repr

/-- What S4 takes over with (R322): the draw of R319, and the state updates of S0 that have not come in a row. -/
structure Watch where
  draw   : Fin 5001
  missed : BitVec 8
deriving DecidableEq, Repr

/-- The commands of the module, one constructor per row of the table of operations and events, in its order. -/
inductive Instr where
  /-- ADD (R132): Writes xs1 plus xs2, 64-bit wrapping, to xd. -/
  | add (t : TileId) (w : IWord)
  /-- SUB (R132): Writes xs1 minus xs2 to xd. -/
  | sub (t : TileId) (w : IWord)
  /-- AND (R132): Writes the bitwise AND of xs1 and xs2 to xd. -/
  | and (t : TileId) (w : IWord)
  /-- OR (R132): Writes the bitwise OR of xs1 and xs2 to xd. -/
  | or (t : TileId) (w : IWord)
  /-- XOR (R132): Writes the bitwise XOR of xs1 and xs2 to xd. -/
  | xor (t : TileId) (w : IWord)
  /-- SLL (R132): Shifts xs1 left by xs2[5:0]. -/
  | sll (t : TileId) (w : IWord)
  /-- SRL (R132): Shifts xs1 right logically by xs2[5:0]. -/
  | srl (t : TileId) (w : IWord)
  /-- SRA (R132): Shifts xs1 right arithmetically by xs2[5:0]. -/
  | sra (t : TileId) (w : IWord)
  /-- SLT (R132): Writes 1 when xs1 is less than xs2 as signed values, and 0 otherwise. -/
  | slt (t : TileId) (w : IWord)
  /-- SLTU (R132): Writes 1 when xs1 is less than xs2 as unsigned values, and 0 otherwise. -/
  | sltu (t : TileId) (w : IWord)
  /-- MUL (R132): Writes the low 64 bits of the product; the result is ready after 3 CCLK. -/
  | mul (t : TileId) (w : IWord)
  /-- MULHU (R132): Writes the high 64 bits of the unsigned 128-bit product. -/
  | mulhu (t : TileId) (w : IWord)
  /-- MIN (R132): Writes the signed minimum of xs1 and xs2. -/
  | min (t : TileId) (w : IWord)
  /-- MAX (R132): Writes the signed maximum of xs1 and xs2. -/
  | max (t : TileId) (w : IWord)
  /-- ADDI (R132): Adds the sign-extended immediate to xs1. -/
  | addi (t : TileId) (w : IWord)
  /-- ANDI (R132): ANDs xs1 with the sign-extended immediate. -/
  | andi (t : TileId) (w : IWord)
  /-- ORI (R132): ORs xs1 with the sign-extended immediate. -/
  | ori (t : TileId) (w : IWord)
  /-- XORI (R132): XORs xs1 with the sign-extended immediate. -/
  | xori (t : TileId) (w : IWord)
  /-- SLLI (R132): Shifts xs1 left by IMM[5:0]; IMM[31:6] must be 0. -/
  | slli (t : TileId) (w : IWord)
  /-- SRLI (R132): Shifts xs1 right logically by IMM[5:0]. -/
  | srli (t : TileId) (w : IWord)
  /-- SRAI (R132): Shifts xs1 right arithmetically by IMM[5:0]. -/
  | srai (t : TileId) (w : IWord)
  /-- SLTI (R132): Compares xs1 with the immediate as signed values. -/
  | slti (t : TileId) (w : IWord)
  /-- SLTIU (R132): Compares xs1 with the immediate as unsigned values. -/
  | sltiu (t : TileId) (w : IWord)
  /-- LI (R132): Writes the sign-extended immediate to xd. -/
  | li (t : TileId) (w : IWord)
  /-- LIH (R132): Writes the immediate to xd[63:32] and keeps xd[31:0]. -/
  | lih (t : TileId) (w : IWord)
  /-- LD_B (R134): Loads one sign-extended byte from tile space. -/
  | ldB (t : TileId) (w : IWord)
  /-- LD_BU (R134): Loads one zero-extended byte. -/
  | ldBu (t : TileId) (w : IWord)
  /-- LD_H (R134): Loads a sign-extended halfword. -/
  | ldH (t : TileId) (w : IWord)
  /-- LD_HU (R134): Loads a zero-extended halfword. -/
  | ldHu (t : TileId) (w : IWord)
  /-- LD_W (R134): Loads a sign-extended word. -/
  | ldW (t : TileId) (w : IWord)
  /-- LD_WU (R134): Loads a zero-extended word. -/
  | ldWu (t : TileId) (w : IWord)
  /-- LD_D (R134): Loads a doubleword; this is the only width for registers and the instruction store. -/
  | ldD (t : TileId) (w : IWord)
  /-- LD_V (R135): Enters the VE queue and loads all 64 lanes of vd from a 256-byte-aligned address. -/
  | ldV (t : TileId) (w : IWord)
  /-- ST_B (R134): Stores one byte, subject to the KEEP rule and read-modify-write. -/
  | stB (t : TileId) (w : IWord)
  /-- ST_H (R134): Stores a halfword. -/
  | stH (t : TileId) (w : IWord)
  /-- ST_W (R134): Stores a word. -/
  | stW (t : TileId) (w : IWord)
  /-- ST_D (R134): Stores a doubleword, including to registers and the instruction store. -/
  | stD (t : TileId) (w : IWord)
  /-- ST_V (R135): Enters the VE queue and stores all 64 lanes of a vector register. -/
  | stV (t : TileId) (w : IWord)
  /-- SCALAR_LD_BANK_GRANT (R129): A waiting scalar LD or ST receives its bank grant; LD data is written 4 CCLK later and waiting issue resumes. -/
  | scalarLdBankGrant (t : TileId)
  /-- BEQ (R133): Branches by IMM when xs1 equals xs2. -/
  | beq (t : TileId) (w : IWord)
  /-- BNE (R133): Branches when xs1 differs from xs2. -/
  | bne (t : TileId) (w : IWord)
  /-- BLT (R133): Branches on a signed less-than comparison. -/
  | blt (t : TileId) (w : IWord)
  /-- BGE (R133): Branches on a signed greater-or-equal comparison. -/
  | bge (t : TileId) (w : IWord)
  /-- BLTU (R133): Branches on an unsigned less-than comparison. -/
  | bltu (t : TileId) (w : IWord)
  /-- BGEU (R133): Branches on an unsigned greater-or-equal comparison. -/
  | bgeu (t : TileId) (w : IWord)
  /-- JAL (R133): Writes the index plus 1 to xd and jumps by IMM. -/
  | jal (t : TileId) (w : IWord)
  /-- JALR (R133): Jumps to (xs1 + IMM) mod 2^13 and writes the index plus 1 to xd. -/
  | jalr (t : TileId) (w : IWord)
  /-- VADD (R137): Adds va and vb lane by lane in FP32 under the predicate. -/
  | vadd (t : TileId) (w : IWord)
  /-- VADD_SUB (R137): Subtracts vb from va lane by lane. -/
  | vaddSub (t : TileId) (w : IWord)
  /-- VADD_MAX (R137): Writes the larger lane value, with +0 ranked above -0. -/
  | vaddMax (t : TileId) (w : IWord)
  /-- VADD_MIN (R137): Writes the smaller lane value. -/
  | vaddMin (t : TileId) (w : IWord)
  /-- VADD_ABS (R137): Writes the absolute value of va with no flag. -/
  | vaddAbs (t : TileId) (w : IWord)
  /-- VADD_NEG (R137): Writes the negation of va with no flag. -/
  | vaddNeg (t : TileId) (w : IWord)
  /-- VADD_MOV (R137): Copies va with no flag. -/
  | vaddMov (t : TileId) (w : IWord)
  /-- VADD_AND (R137): Bitwise AND of the 32-bit lane patterns. -/
  | vaddAnd (t : TileId) (w : IWord)
  /-- VADD_OR (R137): Bitwise OR of the lane patterns. -/
  | vaddOr (t : TileId) (w : IWord)
  /-- VADD_XOR (R137): Bitwise XOR of the lane patterns. -/
  | vaddXor (t : TileId) (w : IWord)
  /-- VADD_CMPEQ (R137): Writes pd bits from an equality comparison of va and vb. -/
  | vaddCmpeq (t : TileId) (w : IWord)
  /-- VADD_CMPLT (R137): Writes pd bits from a less-than comparison. -/
  | vaddCmplt (t : TileId) (w : IWord)
  /-- VADD_CMPLE (R137): Writes pd bits from a less-or-equal comparison. -/
  | vaddCmple (t : TileId) (w : IWord)
  /-- VADD_SEL (R137): Selects va or vb in each lane by the predicate and writes all 64 lanes. -/
  | vaddSel (t : TileId) (w : IWord)
  /-- VMUL (R137): Multiplies va by vb lane by lane. -/
  | vmul (t : TileId) (w : IWord)
  /-- VMUL_RCP (R137): Writes the reciprocal of va, rounded once. -/
  | vmulRcp (t : TileId) (w : IWord)
  /-- VMUL_RSQ (R137): Writes the reciprocal square root of va. -/
  | vmulRsq (t : TileId) (w : IWord)
  /-- VMUL_EXP2 (R137): Writes 2 to the power va. -/
  | vmulExp2 (t : TileId) (w : IWord)
  /-- VMUL_LOG2 (R137): Writes log2 of va. -/
  | vmulLog2 (t : TileId) (w : IWord)
  /-- VFMA (R137): Writes va x vb + vc with one rounding. -/
  | vfma (t : TileId) (w : IWord)
  /-- VFMA_FMS (R137): Writes va x vb - vc with one rounding. -/
  | vfmaFms (t : TileId) (w : IWord)
  /-- VFMA_FNMA (R137): Writes -(va x vb) + vc with one rounding. -/
  | vfmaFnma (t : TileId) (w : IWord)
  /-- VCVT (R139): Converts elements between formats under the conversion table, with positions, rounding and saturation. -/
  | vcvt (t : TileId) (w : IWord)
  /-- VTWOSUM (R138): Computes an exact sum pair, writing hi to vd and lo to vd+1. -/
  | vtwosum (t : TileId) (w : IWord)
  /-- VFTWOSUM (R138): Computes the fast two-sum pair. -/
  | vftwosum (t : TileId) (w : IWord)
  /-- VTWOPROD (R138): Computes an exact product pair. -/
  | vtwoprod (t : TileId) (w : IWord)
  /-- VCPADD (R138): Adds two CP32 register pairs. -/
  | vcpadd (t : TileId) (w : IWord)
  /-- VRED (R138): Sums the active lanes pairwise into xd. -/
  | vred (t : TileId) (w : IWord)
  /-- VRED_MAX (R138): Reduces the active lanes by MAX into xd. -/
  | vredMax (t : TileId) (w : IWord)
  /-- VRED_MIN (R138): Reduces the active lanes by MIN into xd. -/
  | vredMin (t : TileId) (w : IWord)
  /-- VRED_OR (R138): Reduces the active lanes by bitwise OR into xd. -/
  | vredOr (t : TileId) (w : IWord)
  /-- VRED_CPSUM (R138): Reduces a CP32 pair with the VCPADD sequence into xd. -/
  | vredCpsum (t : TileId) (w : IWord)
  /-- PSET (R136): Writes xs1 to predicate pd. -/
  | pset (t : TileId) (w : IWord)
  /-- PGET (R136): Writes a predicate to xd. -/
  | pget (t : TileId) (w : IWord)
  /-- PAND (R136): ANDs two predicates. -/
  | pand (t : TileId) (w : IWord)
  /-- POR (R136): ORs two predicates. -/
  | por (t : TileId) (w : IWord)
  /-- PNOT (R136): Complements a predicate. -/
  | pnot (t : TileId) (w : IWord)
  /-- VE_ENTRY_EXECUTE (R126): The VE starts a queued entry once its operands are ready, reads vector operands and writes its result. -/
  | veEntryExecute (t : TileId)
  /-- SCRATCHPAD_BANK_GRANT (R49): A waiting HASH-mode or external bank request is granted by age and requester order. -/
  | scratchpadBankGrant (t : TileId) (bank : Fin 32) (reqs : List BankReq)
  /-- SCRUB_TICK (R54): Every INTERVAL CCLK the scrubber reads and corrects one row of each bank. -/
  | scrubTick (t : TileId) (busy : List (Fin 32))
  /-- TMUL (R98): Issues a dense panel multiply-accumulate into the TE queue after the descriptor checks. -/
  | tmul (t : TileId) (w : IWord)
  /-- TMULS (R98): Issues a packed-panel multiply that may take the sparse path. -/
  | tmuls (t : TileId) (w : IWord)
  /-- TZERO (R104): Issues a store-path entry that writes +0 to a C panel. -/
  | tzero (t : TileId) (w : IWord)
  /-- TSTORE (R104): Issues a copy of a C panel to scratchpad, optionally incrementing an NI counter. -/
  | tstore (t : TileId) (w : IWord)
  /-- TDSET (R141): Writes both words of a tensor descriptor from xs1 and xs2 with no check. -/
  | tdset (t : TileId) (w : IWord)
  /-- TDGET (R141): Reads one word of a tensor descriptor into xd. -/
  | tdget (t : TileId) (w : IWord)
  /-- START_TOKEN_GRANT (R118): At each 125 ns GTIME boundary the die grants up to STARTS start tokens in rotating tile order. -/
  | startTokenGrant (d : ComputeDie)
  /-- START_TOKEN_RELEASE (R118): A tile releases its start token HOLD CCLK after its last TE completion. -/
  | startTokenRelease (t : TileId)
  /-- TE_OCCUPANCY_START (R102): The TE starts the next queue entry, choosing its path and computing its occupancy. -/
  | teOccupancyStart (t : TileId)
  /-- TE_COMPLETION (R102): 20 CCLK after the occupancy ends, the results become readable and the bank is released. -/
  | teCompletion (t : TileId)
  /-- SHMV (R142): Queues a MOVE descriptor to a shunter queue. -/
  | shmv (t : TileId) (w : IWord)
  /-- SHGATHER (R142): Queues a GATHER descriptor. -/
  | shgather (t : TileId) (w : IWord)
  /-- SHSCATTER (R142): Queues a SCATTER descriptor. -/
  | shscatter (t : TileId) (w : IWord)
  /-- SHUNTER_DESCRIPTOR_START (R64): The shunter starts a descriptor and checks its fields. -/
  | shunterDescriptorStart (t : TileId) (q : Fin 16)
  /-- SHUNTER_CHUNK_TURN (R65): In round-robin turn, a queue moves one chunk of up to 2 KiB locally, as a packet, or as a READ_REQ. -/
  | shunterChunkTurn (t : TileId)
  /-- MERGE_WINDOW_EXPIRY (R66): An open merge packet is sent when SHNT_MERGE.WINDOW CCLK have passed. -/
  | mergeWindowExpiry (t : TileId)
  /-- SHUNTER_DESCRIPTOR_COMPLETE (R63): When the last byte is acknowledged, the descriptor completes and increments CNT. -/
  | shunterDescriptorComplete (t : TileId) (q : Fin 16)
  /-- NSEND (R143): Sends 8 bytes to a remote DGA after the issue checks. -/
  | nsend (t : TileId) (w : IWord)
  /-- NPUT (R143): Copies a local range to a remote DGA. -/
  | nput (t : TileId) (w : IWord)
  /-- NGET (R143): Copies a remote range into local scratchpad. -/
  | nget (t : TileId) (w : IWord)
  /-- NTRIG (R184): Arms or disarms a triggered-operation entry. -/
  | ntrig (t : TileId) (w : IWord)
  /-- NWAIT (R144): Waits until a counter reaches a threshold, optionally consuming it. -/
  | nwait (t : TileId) (w : IWord)
  /-- NWAIT_MET (R144): A counter reaches the NWAIT threshold, the count is consumed if requested, and issue resumes. -/
  | nwaitMet (t : TileId)
  /-- NCOLL (R190): Starts the tile's role in a broadcast or reduce-to-one after the descriptor checks. -/
  | ncoll (t : TileId) (w : IWord)
  /-- NI_OPERATION_START (R186): The NI starts one operation per CCLK, alternating between the issue queue and the fire queue. -/
  | niOperationStart (t : TileId)
  /-- NI_OPERATION_COMPLETE (R181): An NI operation completes and increments its LC. -/
  | niOperationComplete (t : TileId) (tag : BitVec 16)
  /-- NOP (R147): Has no effect. -/
  | nop (t : TileId) (w : IWord)
  /-- END (R147): Waits for its context's queued entries, then makes the context DONE and switches. -/
  | endCtx (t : TileId) (w : IWord)
  /-- CTXSW (R41): Switches to a named READY or WAITING context, or faults CTX_TARGET. -/
  | ctxsw (t : TileId) (w : IWord)
  /-- CTXYIELD (R40): Selects the next READY context in ascending order, or continues. -/
  | ctxyield (t : TileId) (w : IWord)
  /-- FENCE (R145): Waits until all earlier entries in the selected queues have completed. -/
  | fence (t : TileId) (w : IWord)
  /-- QWAIT (R145): Waits until a queue holds at most N outstanding entries. -/
  | qwait (t : TileId) (w : IWord)
  /-- QUEUE_WAIT_MET (R145): The QWAIT, FENCE or END condition becomes true and issue resumes. -/
  | queueWaitMet (t : TileId)
  /-- FLRD (R146): Reads one engine's sticky flags into xd after that engine drains. -/
  | flrd (t : TileId) (w : IWord)
  /-- FLCLR (R146): Clears the masked sticky flags of one engine. -/
  | flclr (t : TileId) (w : IWord)
  /-- EPWAIT (R148): Waits until EPOCH_SEQ reaches xs1, then writes EPOCH_LAST to xd. -/
  | epwait (t : TileId) (w : IWord)
  /-- EPWAIT_MET (R148): An applied epoch satisfies a waiting EPWAIT. -/
  | epwaitMet (t : TileId)
  /-- SRD (R125): Reads a system register by index. -/
  | srd (t : TileId) (w : IWord)
  /-- BRK (R147): Stops its context with fault BREAK. -/
  | brk (t : TileId) (w : IWord)
  /-- T1_ENTRY (R302): A tile with no issue and empty queues for 64 CCLK is clock-gated. -/
  | t1Entry (t : TileId)
  /-- TILE_WATCHDOG_EXPIRY (R70): A context that has gone without issuing longer than LIMIT reports over the signal network and the step is aborted. -/
  | tileWatchdogExpiry (t : TileId)
  /-- WRITE (R153): An arriving WRITE packet lands at the target under the KEEP and ACCESS rules and is answered with ACK or NAK. -/
  | write (p : Packet)
  /-- READ_REQ (R153): An arriving READ_REQ at a tile is answered with READ_RESP or NAK. -/
  | readReq (p : Packet)
  /-- READ_RESP (R143): Arriving read data lands in the requester's scratchpad, or is dropped on a non-writable KEEP range. -/
  | readResp (p : Packet)
  /-- ACK (R181): An acknowledgement arrives at the source NI or shunter. -/
  | ack (p : Packet)
  /-- NAK (R167): A NAK arrives at the source and fails the operation, or schedules a resend for RETRY. -/
  | nak (p : Packet)
  /-- READ_REQ_RESEND (R215): 2 µs after a RETRY NAK, the source resends the READ_REQ with the same TAG. -/
  | readReqResend (t : TileId) (tag : BitVec 16)
  /-- CNT_INC (R153): A header-only packet increments RCNT at the target. -/
  | cntInc (p : Packet)
  /-- PACKET_ROUTE (R158): A router forwards a packet's head flit by dimension order and the route table of its TGEN. -/
  | packetRoute (t : TileId) (inPort : Dir) (p : Packet)
  /-- CREDIT_RETURN (R156): A downstream router returns a siding credit when a flit leaves. -/
  | creditReturn (t : TileId) (plane : Plane) (port : Dir) (ch : Fin 4) (fromShared : Bool)
  /-- FLIT_CRC_ERROR (R164): A flit's CRC error causes a replay from the sender's retry buffer. -/
  | flitCrcError (t : TileId) (plane : Plane)
  /-- LINK_RETRAIN (R165): After 8 failed replays a link retrains and repairs lanes, or goes DOWN. -/
  | linkRetrain (t : TileId) (plane : Plane) (edge : Edge) (failing : List (Fin 1056))
  /-- ROUTER_FAILURE (R166): A router failure makes the signal box disable that plane module-wide through a PLANE epoch. -/
  | routerFailure (t : TileId) (plane : Plane)
  /-- DIE_BLOCK_ACCESS (R343): A packet reaches a die block or station register block and is served as whole aligned words. -/
  | dieBlockAccess (p : Packet)
  /-- RD_OPEN (R198): An RD_OPEN reaches a combining reducer and is absorbed, takes a slot, waits or passes. -/
  | rdOpen (t : TileId) (inPort : Dir) (p : Packet)
  /-- RD_OPEN_SLOT_GRANT (R198): A freed slot goes to the oldest waiting RD_OPEN. -/
  | rdOpenSlotGrant (t : TileId) (plane : Plane)
  /-- PR_WAIT_EXPIRY (R198): An RD_OPEN that has waited PR_WAIT is forwarded without a slot. -/
  | prWaitExpiry (t : TileId) (plane : Plane)
  /-- RD_DATA (R199): An RD_DATA is combined into a slot or root destination, or passes through; complete units are forwarded. -/
  | rdData (t : TileId) (inPort : Dir) (p : Packet)
  /-- PR_IDLE_FLUSH (R199): A slot idle for PR_IDLE forwards its partial units and frees. -/
  | prIdleFlush (t : TileId) (plane : Plane) (slot : Fin 4)
  /-- ROOT_RECORD_GRANT (R201): A root NCOLL, RD_OPEN or BC_GRANT waiting for a root record obtains one. -/
  | rootRecordGrant (t : TileId)
  /-- BC_GRANT (R193): A grant or resend request reaches the broadcast root; the root admits once all targets have granted. -/
  | bcGrant (p : Packet)
  /-- MCAST_WAIT_EXPIRY (R194): The broadcast root admits a split broadcast after MCAST_WAIT. -/
  | mcastWaitExpiry (t : TileId) (collId : BitVec 12)
  /-- BC_DATA (R193): Broadcast data is replicated by routers and lands at targets with a landing, or is discarded. -/
  | bcData (t : TileId) (p : Packet)
  /-- LANDING_RECORD_GRANT (R192): A waiting posting takes a freed landing record and sends BC_GRANT. -/
  | landingRecordGrant (t : TileId) (plane : Plane)
  /-- EP_ARM (R298): A unit receives the arm of a mode epoch and answers EP_READY. -/
  | epArm (u : EpochUnit) (part : PartId) (id : Lane) (kind : Lane) (step : Lane)
  /-- EP_READY (R172): READY combines up the tree; at the root, in time, the signal box sends EP_COMMIT. -/
  | epReady (part : PartId)
  /-- EPOCH_READY_DEADLINE (R298): Without a combined READY by A + 10 µs, the signal box sends EP_ABORT and retries up to 3 times. -/
  | epochReadyDeadline (part : PartId)
  /-- EP_COMMIT (R298): A unit receives the commit and its apply time T. -/
  | epCommit (u : EpochUnit) (part : PartId) (id : Lane) (at_ : Word)
  /-- EP_ABORT (R298): A unit discards an armed epoch. -/
  | epAbort (u : EpochUnit) (part : PartId) (id : Lane)
  /-- EPOCH_MISS_REVERT (R298): At ARM + TLIM + 20 µs without COMMIT or ABORT, the unit reverts, sets EP_MISS and reports. -/
  | epochMissRevert (u : EpochUnit) (part : PartId)
  /-- STEP_COMMIT (R228): At T, the banks flip, G is queued for update, the committed step advances and the Peat gate closes. -/
  | stepCommit (part : PartId)
  /-- STEP_SKIP (R228): At T, the step's G and in-step R are freed, the banks do not flip and the gate closes. -/
  | stepSkip (part : PartId)
  /-- GATE_OPEN (R215): At T, the Peat gate opens and held class-W reads are answered in arrival order. -/
  | gateOpen (part : PartId)
  /-- START_EPOCH (R38): At T, the invocation starts, contexts become READY, counters reset and RWL fields lock. -/
  | startEpoch (part : PartId)
  /-- END_EPOCH (R301): At T, the invocation ends and RWL fields unlock; INVOKE completes. -/
  | endEpoch (part : PartId)
  /-- INVOCATION_END_DETECT (R38): When every enabled context on every tile is DONE or FAULTED, the signal box arms END. -/
  | invocationEndDetect (part : PartId)
  /-- ROUTE_GEN (R160): At T, the new route generation becomes current on every die. -/
  | routeGen (generation : Fin 2)
  /-- ROUTE_GENERATION_UNLOCK (R160): 1 ms after a flip, the old generation becomes writable again. -/
  | routeGenerationUnlock (generation : Fin 2)
  /-- PLANE (R166): At T, NCB_CTL enables or disables the planes. -/
  | plane (upEn : Bool) (dnEn : Bool)
  /-- STEP_ABORT (R149): Each tile faults running contexts with STEP_ABORT, discards queues and ends network work. -/
  | stepAbort (part : PartId)
  /-- ABORT_QUIET_POLL (R296): Every 100 µs the signal box repeats RED_OR; when BUSY is clear, INVOKE completes STEP_ABORTED. -/
  | abortQuietPoll (part : PartId)
  /-- REPORT (R172): A REPORT travels up the tree and merges with REPORTs of the same code. -/
  | report (n : SigNode) (part : PartId) (id : BitVec 13) (what : ReportWhat) (count : BitVec 4) (detail : Lane)
  /-- RED_OR (R172): The OR reduction combines up the tree. -/
  | redOr (n : SigNode) (part : PartId) (source : Contributor) (bits : Lane)
  /-- RED_CPSUM (R172): The CP32 sum of squares combines up the tree in fixed port order. -/
  | redCpsum (n : SigNode) (part : PartId) (source : Contributor) (hi : Lane) (lo : Lane)
  /-- RED_RESULT (R171): The reduced result is sent down the tree to every node. -/
  | redResult (n : SigNode) (part : PartId) (bits : Lane) (hi : Lane) (lo : Lane)
  /-- TSYNC_TICK (R175): Every 1 ms the root sends TSYNC. -/
  | tsyncTick
  /-- TSYNC (R176): A die computes its offset and slews, steps or holds GTIME. -/
  | tsync (d : DieId) (rootTime : Word)
  /-- ECHO (R175): A die measures a crossing's one-way delay as half the round trip. -/
  | echo (d : DieId) (edge : Edge) (roundTrip : Nat) (turnaround : Nat)
  /-- DISCOVER (R291): A node keeps the best root claim, forwards improvements and takes its parent. -/
  | discover (n : SigNode) (inPort : Fin 5) (prio : BitVec 2) (station : BitVec 3) (hops : BitVec 8)
  /-- TREE_QUIET_TIMER (R291): After 1 ms without an improvement, the node sets SIG_STATUS.TREE. -/
  | treeQuietTimer (n : SigNode)
  /-- SIGNAL_PARITY_ERROR (R174): A parity error causes a retransmission; after three, the link goes DOWN and the tree is rebuilt. -/
  | signalParityError (at_ : SigPort) (w : SigWord)
  /-- TRIG (R179): A routed signal message increments an NI counter. -/
  | trig (way : SigWay) (counter : BitVec 6) (inc : BitVec 16)
  /-- CENSUS_REQ (R313): A die's health block answers with CENSUS_DATA. -/
  | censusReq (d : DieId) (page : BitVec 16) (seq : BitVec 16)
  /-- CENSUS_DATA (R313): Census data travels up the tree to the signal box. -/
  | censusData (d : DieId) (page : BitVec 16) (seq : BitVec 10) (data : Word)
  /-- POWER_GEAR (R274): A POWER message sets the gear of the named clusters at T. -/
  | powerGear (d : PowerTo) (clusters : BitVec 16) (arg : BitVec 4) (at_ : Word)
  /-- POWER_CSTATE (R274): A POWER message moves the named clusters to run, C2 or C3 at T. -/
  | powerCstate (d : PowerTo) (clusters : BitVec 16) (arg : BitVec 4) (at_ : Word)
  /-- POWER_REGION (R274): A POWER message switches a die region on or off at T. -/
  | powerRegion (d : PowerTo) (arg : BitVec 4) (at_ : Word)
  /-- POWER_GEARMAX (R274): A POWER message sets a die's GEAR_MAX at T. -/
  | powerGearmax (d : PowerTo) (clusters : BitVec 16) (arg : BitVec 4) (at_ : Word)
  /-- POWER_LOSS (R282): The module-scope loss message reaches every node during a power-loss trip. -/
  | powerLoss
  /-- CENSUS_SWEEP_START (R313): At each 10 ms multiple, the signal box reads every powered die over the signal network. -/
  | censusSweepStart
  /-- CENSUS_CHAIN_PHASE (R314): At 6 ms, dies not yet answered are read over the maintenance chain in both directions. -/
  | censusChainPhase (broken : List (Fin 48)) (silent : List DieId)
  /-- CENSUS_PUBLISH (R315): By 8 ms the snapshot is written to the BAR0 buffers. -/
  | censusPublish
  /-- PEAT_READ_REQ (R215): A station die serves a Peat READ_REQ from the depot, holds it at a closed gate, or NAKs RETRY. -/
  | peatReadReq (p : Packet)
  /-- FLASH_READ_COMPLETE (R207): A page read finishes; it is decoded, retried, reconstructed or lost, and the depot line is filled. -/
  | flashReadComplete (stn : StationId) (page : PhysPage) (retries : Fin 8) (decoded : Bool)
  /-- PEAT_WRITE (R211): A write to Peat logical space goes into a free extent, or is refused for classes W, S, R and G. -/
  | peatWrite (p : Packet)
  /-- PROGRAM_FAIL (R207): A failed program or erase retires the block and moves the extent to a spare. -/
  | programFail (stn : StationId) (extent : Nat) (channel : Fin 16)
  /-- NAND_DIE_FAIL (R208): A NAND die is declared failed; reads are reconstructed and a rebuild begins. -/
  | nandDieFail (stn : StationId) (channel : Fin 16) (nand : Fin 16)
  /-- REBUILD_EXTENT (R208): A rebuild of one affected extent into a spare completes. -/
  | rebuildExtent (stn : StationId) (extent : Nat)
  /-- OUTLET_RD_OPEN (R218): An RD_OPEN at an outlet takes an outlet record and staging space, or waits. -/
  | outletRdOpen (stn : StationId) (p : Packet)
  /-- OUTLET_FOLD (R219): The update engine folds a final unit into G and the in-step residual. -/
  | outletFold (stn : StationId) (entry : Fin 64) (block : Nat)
  /-- UPDATE_BLOCK (R220): The update engine applies the kernel to one parameter block, or keeps a non-finite block. -/
  | updateBlock (stn : StationId) (part : PartId) (block : Nat)
  /-- UPDATE_COMPLETE (R222): The last W and S extents of a step's update are switched and journalled, allowing GATE_OPEN. -/
  | updateComplete (stn : StationId) (part : PartId)
  /-- RES_SAVED (R226): After the K copy completes, the station dies journal RES_SAVED, allowing the next commit. -/
  | resSaved (stn : StationId) (part : PartId)
  /-- HOST_MEMORY_READ (R233): A device read of host memory completes, or fails with a POISON NAK. -/
  | hostMemoryRead (port : PortId) (p : Packet) (result : HostReadResult)
  /-- HOST_MEMORY_WRITE (R233): A posted write to host memory is acknowledged once transmitted, or NAKed LINK. -/
  | hostMemoryWrite (port : PortId) (p : Packet)
  /-- NOP_CMD (R241): The host NOP command completes with SUCCESS. -/
  | nopCmd (c : HostCmd)
  /-- IDENTIFY (R317): Writes the module identity page to a host buffer. -/
  | identify (c : HostCmd)
  /-- PART_CREATE (R246): Creates a partition after the checks and brings its dies out of D3. -/
  | partCreate (c : HostCmd)
  /-- PART_DESTROY (R246): Returns the partition's dies to D3 and unbinds its ports. -/
  | partDestroy (c : HostCmd)
  /-- PART_SET (R246): Changes a partition's class, weight, ports and minimums. -/
  | partSet (c : HostCmd)
  /-- NS_CREATE (R247): Creates a namespace within the partition's quota. -/
  | nsCreate (c : HostCmd)
  /-- NS_DELETE (R243): Deletes a namespace not named by the loaded consist. -/
  | nsDelete (c : HostCmd)
  /-- CONSIST_LOAD (R257): Checks and applies a consist, ending with a ROUTE_GEN epoch. -/
  | consistLoad (l : LoadCmd)
  /-- INVOKE (R241): Starts an invocation through a START epoch, optionally resuming. -/
  | invoke (c : HostCmd)
  /-- ABORT (R243): Aborts the running step of the partition. -/
  | abort (c : HostCmd)
  /-- COPY (R241): Copies between host memory and partition space. -/
  | copy (k : CopyCmd)
  /-- ROUTE_COMMIT (R241): Validates the inactive route generation and makes it current. -/
  | routeCommit (c : HostCmd)
  /-- EVENT_WAIT (R244): Completes with the oldest queued event, or waits for one. -/
  | eventWait (c : HostCmd)
  /-- FENCE_DIE (R307): The host fences a compute die. -/
  | fenceDie (c : HostCmd)
  /-- SQ_TAIL_DOORBELL (R240): A write to an SQ tail doorbell makes commands fetchable, or faults the queue. -/
  | sqTailDoorbell (port : PortId) (q : Fin 16) (value : Lane)
  /-- CQ_HEAD_DOORBELL (R240): A write to a CQ head doorbell frees slots for waiting completions. -/
  | cqHeadDoorbell (port : PortId) (q : Fin 16) (value : Lane)
  /-- QUEUE_ENABLE (R240): Setting QCFG_SIZE.EN clears SQHEAD and CQTAIL and starts the queue pair. -/
  | queueEnable (port : PortId) (q : Fin 16) (value : Word)
  /-- COMMAND_FETCH (R240): The port fetches one command per turn from the non-empty SQs in round robin. -/
  | commandFetch (port : PortId) (readOk : Bool)
  /-- COMPLETION_WRITE (R242): The port writes a completion entry with its phase into the CQ. -/
  | completionWrite (port : PortId) (q : Fin 16)
  /-- BAR2_READ (R237): A host read through BAR2 reaches partition space or is refused. -/
  | bar2Read (port : PortId) (offset : BitVec 37) (len : Nat)
  /-- BAR2_WRITE (R237): A host write through BAR2 reaches partition space or is refused and counted. -/
  | bar2Write (port : PortId) (offset : BitVec 37) (data : List Byte)
  /-- CLUSTER_REGISTER_READ_C2 (R72): A read of a C2 or C3 cluster's registers is answered by the health block without a wake. -/
  | clusterRegisterReadC2 (d : ComputeDie) (cluster : Fin 16) (offset : BitVec 8)
  /-- CLUSTER_WAKE (R303): An access to a tile in C2 wakes its cluster within 5 µs. -/
  | clusterWake (d : ComputeDie) (cluster : Fin 16)
  /-- C2_ENTRY (R303): A cluster of a partition IDLE or EMPTY for 10 ms, carrying no transit traffic, enters C2. -/
  | c2Entry (d : ComputeDie) (cluster : Fin 16)
  /-- GIVE (R245): A write of PORT_ADMIN with GIVE hands administration to port TO. -/
  | give (port : PortId) (dst : PortId)
  /-- PART_WDOG_WRITE (R238): Sets STEP_WDOG and writes it into every tile's TILE_WDOG.LIMIT. -/
  | partWdogWrite (port : PortId) (value : Word)
  /-- SNAP (R69): Copies all 16 stall counters into STALL_SNAP in one CCLK. -/
  | snap (t : TileId)
  /-- CLR (R69): Clears all 16 stall counters. -/
  | clr (t : TileId)
  /-- RNG_SEED_WRITE (R86): A seed write reloads both stochastic streams. -/
  | rngSeedWrite (t : TileId) (value : Word)
  /-- TILE_KEEP_WRITE (R55): A KEEP register write applies, or discards its range fields as a group and counts HB_DISC.KEEP. -/
  | tileKeepWrite (t : TileId) (n : Fin 4) (value : Word)
  /-- INSTRUCTION_STORE_WRITE (R45): An instruction-store write lands only while its context is idle, done or faulted. -/
  | instructionStoreWrite (t : TileId) (index : BitVec 15) (value : Word)
  /-- TRIGGER_ENTRY_WRITE (R183): A write to an armed entry is discarded and counted in TT_WRITE. -/
  | triggerEntryWrite (t : TileId) (entry : BitVec 8) (word : Fin 4) (value : Word)
  /-- ROUTE_TABLE_WRITE (R160): A write to a current or recently current table is discarded and counted. -/
  | routeTableWrite (d : DieId) (generation : Fin 2) (plane : Plane) (word : Fin 6) (value : Word)
  /-- MPWR_CAP_WRITE (R276): The administration port sets the module power cap, in range only. -/
  | mpwrCapWrite (port : PortId) (value : Word)
  /-- MERE_RESLIM_WRITE (R280): The administration port sets the resident limit for later admissions. -/
  | mereReslimWrite (port : PortId) (value : Word)
  /-- RL_KEY3_WRITE (R326): Installs the Reedline key, resets RL_CMDCTR and empties the reply cache. -/
  | rlKey3Write (port : PortId) (value : Word)
  /-- NODE_ID_WRITE (R319): A write of RL_CTL.NODE_ID restarts PLCA mode selection. -/
  | nodeIdWrite (port : PortId) (value : Word) (draw : Fin 5001)
  /-- RC_COUNTER_READ (R14): A read of an RC field returns its value and clears it. -/
  | rcCounterRead (r : RegAddr)
  /-- REGISTER_WRITE (R342): A write to a register with no row of its own acts field by field under RW, W1C, WO and RWL. -/
  | registerWrite (r : RegAddr) (value : Word)
  /-- PERST (R335): Asserting PERSTn# resets port n; deassertion starts link training within 20 ms. -/
  | perst (port : PortId) (level : Bool)
  /-- LINK_UP (R232): A port's link completes training and answers configuration requests. -/
  | linkUp (port : PortId) (rate : BitVec 2) (width : BitVec 5) (flit : Bool)
  /-- FUNCTION_LEVEL_RESET (R233): An FLR or hot reset disables the port's queues and resets its BAR and queue registers. -/
  | functionLevelReset (port : PortId)
  /-- MOD_RESET (R335): A low of at least 10 µs on MOD_RESET# resets the module at the rising edge, or wakes it from M2. -/
  | modReset (lowNs : Nat)
  /-- TILE_RESET (R294): Resets a tile's core, contexts, queues and engines after a drain. -/
  | tileReset (t : TileId)
  /-- CLUSTER_RESET (R294): Resets the logic of a cluster's nine tiles after a drain. -/
  | clusterReset (d : ComputeDie) (cluster : Fin 16)
  /-- DIE_LOGIC_RESET (R294): Resets all logic of one die after a drain. -/
  | dieLogicReset (d : DieId)
  /-- PARTITION_RESET (R294): Resets every die of the partition in absorb mode. -/
  | partitionReset (part : PartId)
  /-- SCOPE_DRAIN_END (R295): A closing scope closes when its operations are answered or RST_DRAIN_MAX passes, then is reset and reopens. -/
  | scopeDrainEnd (d : DieId)
  /-- TILE_FENCE (R306): The engine fences a failed tile in the field and stops its partition. -/
  | tileFence (t : TileId) (reason : BitVec 3)
  /-- DIE_FENCE (R307): The engine fences a die, aborts its partition's step, revalidates routes and delivers DIE_FENCED. -/
  | dieFence (d : DieId) (reason : BitVec 4)
  /-- LAMP_TRIP (R282): The higher feed falls below 44 V; the Mere starts, PWRFAIL is asserted and compute clocks stop. -/
  | lampTrip
  /-- EPOCH_ROLLFORWARD (R284): In the first 1 ms of the flush, epochs applied by any unit are completed on all units. -/
  | epochRollforward
  /-- POWER_LOSS_FLUSH (R283): Station dies flush write buffers, journals and unsaved resident banks to the power-loss extent. -/
  | powerLossFlush (stn : StationId)
  /-- FLUSH_CLOSE (R283): The extent maps and closing record are written, and the module deasserts MOD_PWRGD and enters M2. -/
  | flushClose (flushUs : Lane)
  /-- INPUT_RETURN_WAKE (R285): Input within range for 100 ms after a power loss starts a new bring-up. -/
  | inputReturnWake
  /-- FEED_OUT_OF_RANGE (R261): One feed leaves range, and the other takes the whole load within 10 µs. -/
  | feedOutOfRange (feedB : Bool) (decivolts : BitVec 10)
  /-- FEED_RETURN (R261): A feed within range for 100 ms is shared again. -/
  | feedReturn (feedB : Bool) (decivolts : BitVec 10)
  /-- FEED_OVERCURRENT (R276): A feed above 540 A between ticks makes compute dies step one gear slower every 20 µs until within limit. -/
  | feedOvercurrent (feedB : Bool) (amps : BitVec 10)
  /-- BUS_CONVERTER_FAIL (R263): Losing bus converters lowers the cap or starts the power-loss sequence. -/
  | busConverterFail (converter : Fin 10)
  /-- PHASE_FAULT (R264): A failed phase is disabled within 500 ns, ILIM is lowered, and GEAR_MAX may fall. -/
  | phaseFault (d : DieId) (phase : Fin 24) (reason : BitVec 2)
  /-- ILIM_HIT (R264): A die current at ILIM steps every cluster one gear slower. -/
  | ilimHit (d : DieId)
  /-- CLUSTER_MARGIN_LOOP (R266): Every 20 ns the cluster regulator raises, lowers or holds VCL from its margin. -/
  | clusterMarginLoop (d : ComputeDie) (cluster : Fin 16) (margin : BitVec 16)
  /-- DIE_REGULATOR_LOOP (R266): The die regulator steers VDIE from the lowest cluster headroom. -/
  | dieRegulatorLoop (d : ComputeDie) (dropout : Nat)
  /-- DROOP (R267): A margin below 5 mV stretches the cluster's CCLK. -/
  | droop (d : ComputeDie) (cluster : Fin 16) (periods : Nat)
  /-- GEAR_RAISE_SWITCH (R268): After VCL is raised and the margin reaches target, the faster divider is switched. -/
  | gearRaiseSwitch (d : ComputeDie) (cluster : Fin 16) (margin : BitVec 16)
  /-- GOVERNOR_TICK (R275): Every 1 ms the governor computes allowances and steps die gears. -/
  | governorTick (pDie : List Nat) (pOutside : Nat) (demand : List Nat)
  /-- THERMAL_SAMPLE (R338): Every 10 µs a die sets its thermal gear from its hottest sensor. -/
  | thermalSample (d : DieId) (sensors : List Byte) (clusters : List Byte)
  /-- COOLANT_SAMPLE (R339): Every 1 ms inlet temperature and flow lower the effective cap. -/
  | coolantSample (tIn : Nat) (flow : Nat)
  /-- COOLANT_SHUTDOWN (R339): A coolant condition held for 10 s aborts steps, flushes and enters M2. -/
  | coolantShutdown
  /-- TIMETABLE_ACTION (R252): Within 1 ms of a capacity change, guarantees are withdrawn or restored by rank. -/
  | timetableAction (delay : Fin 1000001) (pOutside : Nat)
  /-- REGION_START (R270): At 2 ms spacing the next die region is switched on. -/
  | regionStart
  /-- REGION_RAMP_TIMEOUT (R270): A region not in regulation by 1.5 ms is switched off and marked failed. -/
  | regionRampTimeout (d : DieId)
  /-- PLL_LOCK_LOSS (R271): A PLL losing lock marks its die failed. -/
  | pllLockLoss (d : DieId)
  /-- OSCILLATOR_SWITCH (R272): The lamp domain switches to the other root oscillator within 2 µs. -/
  | oscillatorSwitch
  /-- MERE_DISCHARGE_DONE (R277): A bank at 50 V or more is discharged to 48 V before measurement. -/
  | mereDischargeDone
  /-- MERE_MEASUREMENT (R277): Charging from 50 to 90 V measures capacitance and sets USABLE_J. -/
  | mereMeasurement (chargeMs : Nat)
  /-- MERE_ESTIMATE_TICK (R278): Every 1 ms AVAIL_J is set from E_V and E_Q. -/
  | mereEstimateTick (decivolts : BitVec 10) (microcoulombs : Int)
  /-- FUSE_READ (R289): S0 reads all 48 fuse records over the maintenance chain. -/
  | fuseRead (badCrc : List DieId)
  /-- LANE_REPAIR (R165): Every crossing's lanes are tested and spares mapped in. -/
  | laneRepair (d : DieId) (edge : Edge) (plane : Plane) (failing : List Nat)
  /-- PEAT_BRINGUP (R224): Station dies train channels, load maps, apply the power-loss image and replay journals. -/
  | peatBringup (b : PeatStart)
  /-- TOPOLOGY_CHECK (R292): The discovered, fuse-derived and host views are compared. -/
  | topologyCheck (silent : List DieId)
  /-- FIRMWARE_LOAD (R293): Tile firmware is read from the Peat and multicast to every good tile. -/
  | firmwareLoad (copyOk : List Bool) (version : Word)
  /-- SELFTEST (R293): Tiles and dies test themselves, and failures are fenced. -/
  | selftest (tileFails : List (TileId × Fin 8)) (dieFails : List DieId)
  /-- S4_TAKEOVER (R322): S4 switches off S0's region, takes the root and enables its PHY. -/
  | s4Takeover (w : Watch)
  /-- LEDGER_HOURLY (R316): At each GTIME hour a HOURLY ledger record is written. -/
  | ledgerHourly (d : DieId)
  /-- LEDGER_DAY_BOUNDARY (R312): At each 24 h boundary DAY_MIN returns to 0xFFFF after the ledger records it. -/
  | ledgerDayBoundary
  /-- IDENT_GET (R323): A Reedline request answered with the public identity bytes. -/
  | identGet (src : Word) (msg : List Byte)
  /-- CENSUS_GET (R323): Returns census records from the latest snapshot. -/
  | censusGet (src : Word) (msg : List Byte)
  /-- LEDGER_GET (R323): Returns ledger records of a die. -/
  | ledgerGet (src : Word) (msg : List Byte)
  /-- ALARM_ACK (R324): Stops repetition of the acknowledged alarm. -/
  | alarmAck (src : Word) (msg : List Byte)
  /-- ALARM_REPEAT (R324): An unacknowledged alarm is repeated at 100, 300 and 700 ms. -/
  | alarmRepeat (ctr : Lane)
  /-- EXPECT (R292): A topology expectation is compared and answered with EXPECT_RESULT. -/
  | expect (src : Word) (msg : List Byte)
  /-- STANDBY (R304): A Reedline command ends every partition and enters M1. -/
  | standby (src : Word) (msg : List Byte)
  /-- WAKE (R302): A Reedline command wakes the module from M1 into bring-up. -/
  | wake (src : Word) (msg : List Byte)
  /-- OFF (R302): A Reedline command enters M2. -/
  | off (src : Word) (msg : List Byte)
  /-- ADMIN (R245): A Reedline command reassigns administration to a port. -/
  | admin (src : Word) (msg : List Byte)
  /-- RELEASE (R323): A Reedline command clears a tile or die fence and writes a RELEASE record. -/
  | release (src : Word) (msg : List Byte)
  /-- SET_PORT (R323): A Reedline command changes the UDP port after its reply. -/
  | setPort (src : Word) (msg : List Byte)
  /-- UNKNOWN_SOURCE_FRAME (R321): A frame from an unknown source is dropped and counted. -/
  | unknownSourceFrame (src : Word)
  /-- NEIGHBOUR_SOLICITATION (R318): An IPv6 neighbour solicitation is answered, rate-limited for unknown sources. -/
  | neighbourSolicitation (src : Word)
  /-- BEACON (R320): A received PLCA beacon lets a follower rejoin, or makes a coordinator yield. -/
  | beacon (own : Bool)
  /-- BEACON_MISS (R320): A follower with no beacon for 4 ms falls back to CSMA/CD. -/
  | beaconMiss
  /-- COORDINATOR_LISTEN_EXPIRY (R319): A candidate that heard no beacon during 20 ms plus r begins beaconing. -/
  | coordinatorListenExpiry
  /-- MCHAIN (R337): A JTAG MCHAIN Update-DR starts a maintenance-chain access, served between sweeps or refused. -/
  | mchain (dr : BitVec 96)
  /-- POWER_APPLIED (R288): Input power reaches an unpowered module and bring-up begins at stage 0, up to the 12 V bus coming into regulation. -/
  | powerApplied (decivoltsA : BitVec 10) (decivoltsB : BitVec 10)
  /-- PORT_LINK_DOWN (R233): A host port's PCIe link goes down, so later posted writes to host memory are answered with a LINK NAK. -/
  | portLinkDown (port : PortId)
  /-- D3HOT (R335): The host moves a port between D0 and D3hot or changes PME enable, which controls assertion and deassertion of WAKEn#. -/
  | d3hot (port : PortId) (d3 : Bool) (pmeEn : Bool)
  /-- CROSSING_ALLOWANCE (R250): Each 10 µs period the tiles' flit allowance for traffic leaving the partition over shared crossings is renewed, releasing held packets. -/
  | crossingAllowance
  /-- MERE_FULL_CHARGE (R278): The Mere charger brings the bank to V_FULL, stops charging and sets the coulomb counter Q to c × 60 V. -/
  | mereFullCharge
  /-- FCS_ERR (R320): A Reedline frame arrives with a bad FCS and is discarded and counted in RL_STAT.FCS_ERR. -/
  | fcsErr
  /-- REEDLINE_FORMAT (R323): A Reedline message with a reserved TYPE, a wrong LEN or a nonzero must-be-zero byte is answered with STATUS 1 when its source is known. -/
  | reedlineFormat (src : Word) (msg : List Byte)
  /-- IPV6_ECHO (R318): An IPv6 echo request on the Reedline segment is answered with an echo reply. -/
  | ipv6Echo (src : Word) (payload : List Byte)
  /-- TAP_INSTRUCTION (R337): The IEEE 1149.1 TAP controller, driven by TCK, TMS and TRST#, loads and runs BYPASS, SAMPLE/PRELOAD, EXTEST or IDCODE, with EXTEST acting on the sideband pins. -/
  | tapInstruction (tms : Bool) (tdi : Bool) (trst : Bool)
deriving DecidableEq, Repr

end Sys2Proof
end

