-- ==== Sys2Proof/Decode.lean ====
section
/-!
DEFINITION. Commands spelled by words. No row of the table of operations and events gives bits: a Ramyr instruction's word is fetched by a
tile's core (Machine/Ramyr.lean holds its encoding), and every other command is an event. So no word spells a command.
-/

namespace Sys2Proof

/-- The command that a word spells by the table's bits: none. -/
def decodeTableWord (_nbits _w : Nat) : Option Instr := none

end Sys2Proof
end

