-- ==== Sys2Proof/Config.lean ====
section
/-!
DEFINITION. The free values: what the spec leaves open while the machine goes on. Each constant is opaque, so no
proof can see its value; what is stated holds for every value.

What the spec leaves open here: log entries 91, 103, 110 and 111.
-/

namespace Sys2Proof.Config

/-- A byte of SRAM whose content the spec calls undefined (R60, R61, R101, R293). The first argument numbers the event
that made the content undefined, the second is the byte's address. -/
opaque undefByte : Nat → Nat → Byte

/-- A lane of a vector register whose content the spec calls undefined (R123). The first argument numbers the event,
the second is `register × 64 + lane`. -/
opaque undefLane : Nat → Nat → Lane

/-- What a value is that the spec names but gives neither a rule nor a measurement for. The argument is the
model's counter of such values. -/
opaque freeWord : Nat → Word

/-- The instruction codes of EXTEST, SAMPLE/PRELOAD and IDCODE (in this order), which R337 names without a number. -/
opaque tapCode : Nat → BitVec 8

/-- The bits of IDCODE that R337 leaves open: the version and the manufacturer's identity. -/
opaque idcodeRest : BitVec 32

/-- The bits that Capture-IR loads. -/
opaque captureIr : BitVec 8

/-- The pin of the sideband header (0 for pin 1) that a cell of the boundary register covers: R337 gives the register no order. -/
opaque boundaryPin : Nat → Nat

/-- The code that a conversion to W1, W2T or W2Q gives under a scale of ±0, where every point of the grid is a zero (R79, R344): which of
the codes that the rules allow. The arguments are the format's index, the BF16 scale, and the sign, magnitude and exponent of the source. -/
opaque zeroScaleCode : Nat → Nat → Bool → Nat → Int → Nat

/-- Whether a byte of a broadcast whose source was written before the root completed is the new one (R195). The first argument numbers the event,
the second is the byte's address. -/
opaque newByte : Nat → Nat → Bool

/-- The set of the depot cache in which a page of a physical extent may lie: R213 gives 16 ways and no hash. -/
opaque depotSet : Nat → Nat → Nat

/-- What a 64-bit word of a port's configuration space holds in the bits for which R231 gives no value: the identifier assigned to Obmeuri among
them. -/
opaque configWord : Nat → Word

end Sys2Proof.Config
end

