-- ==== Sys2Proof/Machine/State.lean ====
section
/-!
DEFINITION. The state of the module as plain data, and the module right after power is first applied.

Register words live in one register file (`regs`), keyed by address; state that only the module's own logic holds (queues,
records, walks in progress) has typed fields. Sparse data (registers, tiles, memory) is a list of key and value
pairs in rising key order that lists no entry equal to what an unlisted key reads as.

What the spec leaves open here: log entries 1, 2, 5, 12, 50 and 101.
-/

namespace Sys2Proof.Machine

/-- Sparse data by key. -/
abbrev Sparse (α : Type) := List (Nat × α)

/-! ### The tile -/

/-- Table 2.1, the states of a context. -/
inductive CtxState where
  | idle
  | ready
  | running
  | waiting
  | done
  | faulted
deriving DecidableEq, Repr

/-- A wait instruction that is not yet met (R39); FLRD and FLCLR wait under R95. `upto` is the issue number below which entries must have completed. -/
inductive Wait where
  | nwait (counter : BitVec 6) (thresh : Lane) (consume : Bool)
  | qwait (sel : BitVec 3) (squeue : BitVec 4) (n : BitVec 5)
  | fence (mask : BitVec 4) (upto : Nat)
  | endCtx
  | epwait (seq : Lane) (xd : BitVec 5)
  | flrd (engine : BitVec 3) (xd : BitVec 5) (upto : Nat)
  | flclr (engine : BitVec 3) (mask : BitVec 5) (upto : Nat)
deriving DecidableEq, Repr

/-- One context of a tile (R36, Table 5.2). `x`, `p` and `td` are sparse with default 0; td n word w has key 2n + w. `pc` is the
index of the next instruction to issue, or of the faulting one. -/
structure Ctx where
  st    : CtxState
  pc    : Int
  fcode : Byte
  x     : Sparse Word
  p     : Sparse Word
  td    : Sparse Word
  wait  : Option Wait
deriving DecidableEq, Repr

/-- A context after reset (Table 2.1 IDLE, R38 NONE). -/
def Ctx.reset : Ctx := ⟨.idle, 0, 0, [], [], [], none⟩

/-- Who issued an entry and where (R127, R130): context, instruction index and the tile's issue number. -/
structure Issuer where
  ctx   : CtxId
  index : Int
  seq   : Nat
deriving DecidableEq, Repr

/-- The widths of scalar loads and stores (R134). -/
inductive MemWidth where
  | b
  | h
  | w
  | d
  | v
deriving DecidableEq, Repr

/-- A scalar access that waits for its bank (R128, R129). A load has `store = none`. -/
structure CoreAccess where
  by_    : Issuer
  addr   : Nat
  width  : MemWidth
  signed : Bool
  xd     : BitVec 5
  store  : Option Word
deriving DecidableEq, Repr

/-- The tensor operations (R98, R104). -/
inductive TeOp where
  | tmul
  | tmuls
  | tzero
  | tstore
deriving DecidableEq, Repr

/-- A tensor descriptor as taken at issue (R100, R127): word 0 and word 1. -/
structure TensorDesc where
  w0 : Word
  w1 : Word
deriving DecidableEq, Repr

/-- An entry of the TE queue (R127). -/
structure TeEntry where
  by_   : Issuer
  op    : TeOp
  c     : TensorDesc
  a     : TensorDesc
  b     : TensorDesc
  cnt   : BitVec 6
  cntEn : Bool
deriving DecidableEq, Repr

/-- A TE entry whose occupancy has started and that has not completed (R102, R103): the bank it holds and the instant its occupancy
ends. -/
structure TeExec where
  entry : TeEntry
  bank  : Nat
  ends  : Nat
deriving DecidableEq, Repr

/-- The vector operations (Table 5.4, MAJ 0x10 to 0x16, LD.V and ST.V). -/
inductive VeOp where
  | add | sub | max | min | abs | neg | mov | band | bor | bxor | cmpeq | cmplt | cmple | sel
  | mul | rcp | rsq | exp2 | log2
  | fma | fms | fnma
  | cvt
  | twosum | ftwosum | twoprod | cpadd
  | red | redMax | redMin | redOr | redCpsum
  | pset | pget | pand | por | pnot
  | ldv | stv
deriving DecidableEq, Repr

/-- An entry of the VE queue: the fields of its word and the scalar operands taken at issue (R127); `addr` is the address of
LD.V and ST.V. -/
structure VeEntry where
  by_  : Issuer
  op   : VeOp
  w    : IWord
  xs1  : Word
  xs2  : Word
  addr : Nat
deriving DecidableEq, Repr

/-- An entry of the shunter issue queue: the mnemonic's OP code, the named queue, and the 32 descriptor bytes with the offset
they were read from (R127, R142). -/
structure ShIssue where
  by_    : Issuer
  op     : BitVec 4
  q      : Fin 16
  offset : Nat
  w0     : Word
  w1     : Word
  w2     : Word
  w3     : Word
deriving DecidableEq, Repr

/-- A packet that a shunter descriptor awaits the answer of, with the row and source byte it carries or asks for. -/
structure ShPacket where
  p    : Packet
  row  : Nat
  byte : Nat
deriving DecidableEq, Repr

/-- A descriptor in a shunter queue: what was issued, whether it has started, the row and the source byte it has reached, whether its
bytes lie in the queue's open merge packet, the packets whose answers it awaits, those that a RETRY NAK sends again with their instants,
for a converting descriptor the rows already converted and the source bytes that wait for their row, and when it sent its first packet
(R63 to R66, R86, R216). -/
structure ShDesc where
  issue   : ShIssue
  started : Bool
  row     : Nat
  byte    : Nat
  merged  : Bool
  await   : List ShPacket
  retry   : List (Nat × ShPacket)
  conv    : Nat
  buf     : List (Nat × Nat × List Byte)
  since   : Option Nat
deriving DecidableEq, Repr

/-- An open merge packet (R66): its queue, plane and first destination byte, the bytes gathered and the instant the first descriptor
entered it. -/
structure MergePacket where
  q      : Fin 16
  plane  : Plane
  dst    : Nat
  data   : List Byte
  opened : Nat
deriving DecidableEq, Repr

/-- Who started a network operation: an instruction, or a triggered entry (R183). -/
inductive NiOrigin where
  | instr (i : Issuer)
  | entry (e : BitVec 8)
deriving DecidableEq, Repr

/-- The kinds of network operation (Table 5.8, Table 7.2). -/
inductive NiKind where
  | send
  | put
  | get
  | cntInc
  | coll
  | localInc
deriving DecidableEq, Repr

/-- A network operation with its operands (Table 5.8, Table 7.2). `loc` is the local offset; `c0` to `c3` are the first four words of
a collective descriptor (R188); `ended` says that a landing which ended after its issue has completed it (R194). -/
structure NiOp where
  origin : NiOrigin
  kind   : NiKind
  dga    : Word
  loc    : Nat
  len    : Nat
  value  : Word
  lc     : BitVec 6
  lcEn   : Bool
  rc     : BitVec 6
  rcEn   : Bool
  plane  : BitVec 2
  c0     : Word
  c1     : Word
  c2     : Word
  c3     : Word
  ended  : Bool := false
deriving DecidableEq, Repr

/-- A started network operation (R186): its tag, the packets whose answers it awaits, the last packet it holds back (R181), those that a
RETRY NAK sends again with their instants (R215), the instant it started, and how many roles of a collective are still open (R181). -/
structure NiStarted where
  op      : NiOp
  tag     : BitVec 16
  await   : List Packet
  held    : Option Packet
  retry   : List (Nat × Packet)
  started : Nat
  roles   : Nat
deriving DecidableEq, Repr

/-- A landing record or a waiting posting of a broadcast target (R192): the collective, the posting and its tag, the byte ranges that have
landed, and the tags of later postings of a standing collective (R194). -/
structure Landing where
  part    : PartId
  collId  : Nat
  root    : Nat
  op      : NiOp
  tag     : BitVec 16
  landed  : List (Nat × Nat)
  later   : List (BitVec 16)
deriving DecidableEq, Repr

/-- A root record (R193, R201): the collective, the posting and its tag, how many must grant or contribute, and when it was taken. For a
broadcast: whether it has been admitted and the member indices that have granted. For a reduce: the count that each 64-byte unit has
reached, by unit number. -/
structure RootRec where
  part     : PartId
  collId   : Nat
  root     : Nat
  op       : NiOp
  tag      : BitVec 16
  awaited  : Nat
  taken    : Nat
  admitted : Bool
  granted  : List Nat
  counts   : Sparse Nat
deriving DecidableEq, Repr

/-- A reducer's slot (R198, R199): the segment it holds, by the address of its first unit; the type it forwards, the group, the subtree total, the
value and count of each unit, the units already forwarded, the poisoned ones (R202), and the instant of the last contribution. `size` is the
number of the segment's units where the model knows it (log 12). -/
structure PrSlot where
  part    : PartId
  collId  : Nat
  base    : Nat
  seg     : Word
  rtype   : Nat
  group   : Word
  tgen    : Bool
  total   : Nat
  size    : Option Nat
  units   : Sparse (Nat × List Lane)
  sent    : List Nat
  poison  : List Nat
  last    : Nat
deriving DecidableEq, Repr

/-- A packet that waits at the head of a siding (R198, R193, R201): its input port, itself and the instant of its arrival. -/
structure Waiter where
  port   : Dir
  packet : Packet
  since  : Nat
deriving DecidableEq, Repr

/-- The arbiter of one scratchpad bank (R49 to R51): waiting HASH-mode and external requests with the CCLK they have waited, and the
conflict queue. -/
structure BankArb where
  waiting  : List (Nat × BankReq)
  conflict : List BankReq
deriving DecidableEq, Repr

/-- What else holds a bank: the STRICT-mode requests whose issuers stall on a full conflict queue (R51), and the request
in whose second CCLK the bank is: a write narrower than 64 bits takes two (R53). -/
structure BankHold where
  stalled : List BankReq
  second  : Option BankReq
deriving DecidableEq, Repr

/-- The four queues of the core (R35). -/
inductive QUnit where
  | te
  | ve
  | sh
  | ni
deriving DecidableEq, Repr

/-- A stall cause (Table 1.5). With an instant, the cause of a wait on the lower tiers since then, which the time waited decides (Table 8.5).
`full` is the full queue that the head instruction waits on, whose head entry reports the cause (R67 3). -/
structure Cause where
  code  : Fin 16
  since : Option Nat
  full  : Option QUnit
deriving DecidableEq, Repr

/-- A flit in a siding (R155): its channel, whether the siding is a shared one, and the number of the packet it belongs to. -/
structure Flit where
  ch     : BitVec 2
  shared : Bool
  worm   : Nat
deriving DecidableEq, Repr

/-- The sidings of one router input port (R155, R156): the flits in them, oldest first, and the sidings left whose credit, tagged with
channel and pool, the upstream router has not had back. -/
structure Sidings where
  flits : List Flit
  back  : List (BitVec 2 × Bool)
deriving DecidableEq, Repr

/-- An input port that a packet's flits pass: its key, the ports they go on to (none while the head flit has not won an output), and how many
have gone on (R157). -/
structure Hop where
  port   : Nat
  outs   : List Nat
  passed : Nat
deriving DecidableEq, Repr

/-- A packet on its way through the routers (R151 to R158): its number, the packet, the destinations of its copies (a multicast's share their
flits until their routes part, R193), the router and the port at which it enters, the flits still at the source, the order in which it
began to enter (0 before), and the ports it passes. -/
structure Worm where
  id    : Nat
  p     : Packet
  dests : List (BitVec 6 × BitVec 8)
  start : Nat
  entry : Nat
  left  : Nat
  inj   : Nat
  hops  : List Hop
deriving DecidableEq, Repr

/-- An epoch that a unit has armed (R297, R298): its ID, type and argument, the step it carries, the instant the unit received the ARM,
and the apply time once EP_COMMIT has come. -/
structure Armed where
  part   : PartId
  id     : Lane
  kind   : Lane
  step   : Lane
  rcvd   : Nat
  apply  : Option Nat
deriving DecidableEq, Repr

/-- A combined message that a signal node holds for one partition (R172): the contributions that have come. -/
structure Combine where
  part  : PartId
  orIn  : List (Contributor × Lane)
  cpIn  : List (Contributor × Lane × Lane)
deriving DecidableEq, Repr

/-- A REPORT held at a node (R172, Table 6.6). -/
structure Report where
  part   : PartId
  id     : BitVec 13
  what   : ReportWhat
  count  : BitVec 4
  detail : Lane
deriving DecidableEq, Repr

/-- A claim of the signal root (R291). -/
structure Claim where
  prio    : BitVec 2
  station : BitVec 3
  hops    : BitVec 8
deriving DecidableEq, Repr

/-- A signal node of a tile or a station die (R170 to R172, R291): its best claim, when it improved, and what it holds back to combine or merge.
`status` and `expect` are a station die's node's SIG_STATUS and SIG_EXPECT; a tile's stand in its registers. `down` are the ports whose link
is DOWN and `errs` the retransmissions under way at each port (R174). -/
structure NodeState where
  best     : Option Claim
  improved : Nat
  status   : Word
  expect   : Word
  combine  : List Combine
  reports  : List Report
  down     : List Nat
  errs     : Sparse (BitVec 16 × Nat)
  sigErr   : Word
deriving DecidableEq, Repr

/-- The engines' queues of a tile (R35, R65, R185, R186). -/
structure Queues where
  te      : List TeEntry
  teExec  : List TeExec
  ve      : List VeEntry
  sh      : List ShIssue
  shq     : Sparse (List ShDesc)
  shTurn  : Fin 16
  halted  : BitVec 16
  merge   : List MergePacket
  ni      : List NiOp
  fire    : List NiOp
  started : List NiStarted
  niFire  : Bool
  tag     : BitVec 16
deriving DecidableEq, Repr

/-- The collective records of a tile (R192 to R201); a plane's list holds what belongs to that plane. -/
structure Coll where
  landUp  : List Landing
  landDn  : List Landing
  lwaitUp : List Landing
  lwaitDn : List Landing
  roots   : List RootRec
  rootQ   : List (BitVec 16)
  slotsUp : Sparse PrSlot
  slotsDn : Sparse PrSlot
  waitUp  : List Waiter
  waitDn  : List Waiter
  rootW   : List Waiter
deriving DecidableEq, Repr

/-- The reset scopes below the module, numbered as DIE_STATE.LAST_RST numbers them (Tables 11.3 and 11.9). -/
inductive ResetKind where
  | tile
  | cluster
  | die
  | partition
deriving DecidableEq, Repr

/-- What a scope is doing (R295): open, or closing for a reset of a kind since an instant. A closed scope is reset and reopens in the same
step. -/
inductive Scope where
  | openScope
  | closing (k : ResetKind) (since : Nat)
deriving DecidableEq, Repr

/-- One tile position. `stallAt` is the instant up to which the tile's time is charged and `cause` the stall cause it charges now
(R67); `missed` is an epoch that the tile missed or reverted (R298, R300), of type 0 where no unit has applied it; `invStart` is the start of the invocation in VCO periods; `issuedAt` the instant of the last issue; `tokReq` the instant at which it asked
for a start token (R119). `allow` is what is left of its part of a flit allowance, `none` where it is unlimited, and `heldOut` the
packets that wait for the next one (R250). -/
structure Tile where
  ctx      : Sparse Ctx
  sel      : CtxId
  seq      : Nat
  core     : Option CoreAccess
  q        : Queues
  coll     : Coll
  vreg     : Sparse Lane
  vUndef   : Nat
  scrMode  : BitVec 5
  banks    : Sparse BankArb
  holds    : Sparse BankHold
  scrubRow : Nat
  scrubEnd : Nat
  scrubBanks : List Nat
  running  : Bool
  stallAt  : Nat
  cause    : Cause
  invStart : Nat
  cycles   : Nat
  issuedAt : Nat
  tokReq   : Option Nat
  invoc    : Word
  epSeq    : Lane
  epLast   : Word
  armed    : List Armed
  missed   : Option Armed
  t1       : Bool
  scope    : Scope
  allow    : Option Nat
  heldOut  : List Packet
deriving DecidableEq, Repr

/-- The queues of a tile after reset: empty (Table 11.7). -/
def Queues.reset : Queues := ⟨[], [], [], [], [], 0, 0, [], [], [], [], false, 0⟩

/-- The collective records of a tile after reset: none (Table 11.7). -/
def Coll.reset : Coll := ⟨[], [], [], [], [], [], [], [], [], [], []⟩

/-- A tile after reset (Table 11.7). -/
def Tile.reset : Tile where
  ctx := []
  sel := 0
  seq := 0
  core := none
  q := .reset
  coll := .reset
  vreg := []
  vUndef := 0
  scrMode := 0
  banks := []
  holds := []
  scrubRow := 0
  scrubEnd := 0
  scrubBanks := []
  running := false
  stallAt := 0
  cause := ⟨0, none, none⟩
  invStart := 0
  cycles := 0
  issuedAt := 0
  tokReq := none
  invoc := 0
  epSeq := 0
  epLast := 0
  armed := []
  missed := none
  t1 := false
  scope := .openScope
  allow := none
  heldOut := []

/-! ### Dies and station dies -/

/-- A die's account for its ledger (R316): nanoseconds powered up to `onAt`, thermal cycles, the temperature range of the running hour, the
lifetime peak, the margin minimum of the last completed day and of its life, and the errors and phase faults counted before the last die reset,
and when the next HOURLY record is due. -/
structure Life where
  powered : Nat
  onAt    : Option Nat
  cycles  : Nat
  tLow    : Nat
  tHigh   : Nat
  peak    : Nat
  dayMin  : Nat
  margin  : Nat
  ue      : Nat
  ce      : Nat
  crc     : Nat
  faults  : Nat
  hourAt  : Nat
deriving DecidableEq, Repr

/-- The account of a new die. -/
def Life.reset : Life := ⟨0, none, 0, 255, 0, 0, 0xFFFF, 0xFFFF, 0, 0, 0, 0, 0⟩

/-- A POWER message that waits for its apply time (R274): its OP, cluster mask, ARG and T. -/
structure PowerMsg where
  op       : Nat
  clusters : BitVec 16
  arg      : BitVec 4
  at_      : Nat
deriving DecidableEq, Repr

/-- A die's own state beside its registers. `offset` is GTIME less the root's at `slewFrom`, and `slew` the correction under way since then (R175, R176); `tokens` the tiles that hold a start token
(R118), `holdEnd` when a token is due for release; `stopped` when a route generation stopped being current (R160); `laneMap` the failing
lanes replaced on a link (R165); `govGear` by cluster, `dieGear` of the die as the governor sets it, and `thermGear` the gears of R275 and R338 and `coolSince` when the reading fell 3 °C below
the entry point; `clAnswer` is what its health block last answered for a cluster in C2 or C3 (R72); `sampledAt` and `grantAt` are when the next thermal sample and the next grant of start tokens are due. -/
structure Die where
  region    : Bool
  failed    : Bool
  offset    : Int
  slew      : Int
  slewFrom  : Nat
  tokens    : List Nat
  tokenLast : Nat
  holdEnd   : Sparse Nat
  thresh    : Nat
  scope     : Scope
  cstate    : Sparse Nat
  idleAt    : Nat
  stopped   : Sparse Nat
  laneMap   : Sparse (List Nat)
  govGear   : Sparse Nat
  dieGear   : Nat
  thermGear : Nat
  coolSince : Option Nat
  hotSince  : Option Nat
  sampledAt : Nat
  grantAt   : Nat
  armed     : List Armed
  epSeq     : Lane
  epLast    : Word
  epMissed  : Option Armed
  answered  : List (Nat × Word)
  reach     : Nat
  missed    : Nat
  readAt    : Nat
  clAnswer  : Option Word
  genCur    : Bool
  powerQ    : List PowerMsg
  milliJ    : Nat
  life      : Life
deriving DecidableEq, Repr

/-- A die after reset: its region off, in D3 (Table 11.9). The sampled SPARSE_THRESH is TEB_CTL's reset value 77. DESIGN CHOICE (log 101): the rotation of
start tokens, which R118 begins after the last tile granted, begins at tile 0. -/
def Die.reset : Die where
  region := false
  failed := false
  offset := 0
  slew := 0
  slewFrom := 0
  tokens := []
  tokenLast := 143
  holdEnd := []
  thresh := 77
  scope := .openScope
  cstate := []
  idleAt := 0
  stopped := []
  laneMap := []
  govGear := []
  dieGear := 0
  thermGear := 0
  coolSince := none
  hotSince := none
  sampledAt := 0
  grantAt := 0
  armed := []
  epSeq := 0
  epLast := 0
  epMissed := none
  answered := []
  reach := 3
  missed := 0
  readAt := 0
  clAnswer := none
  genCur := false
  powerQ := []
  milliJ := 0
  life := .reset

/-- The extent classes (Table 8.4). -/
inductive ExtClass where
  | d
  | w
  | s
  | r
  | g
  | k
deriving DecidableEq, Repr

/-- One version of a logical extent: the committed step it includes and the physical extent that holds it (Table 8.4). -/
structure ExtVersion where
  step : Nat
  phys : Nat
deriving DecidableEq, Repr

/-- An entry of a station die's extent map (R210, R211): namespace, extent index, class and the versions it holds, newest first. -/
structure ExtEntry where
  nsid     : BitVec 4
  ext      : BitVec 19
  cls      : ExtClass
  versions : List ExtVersion
deriving DecidableEq, Repr

/-- A line of the depot cache (R213), tagged by physical extent and logical page, with the partition that holds it. -/
structure DepotLine where
  part : PartId
  phys : Nat
  page : Nat
deriving DecidableEq, Repr

/-- An outlet record (R218): its entry, the collective, the member count, the accumulation length, the units already folded, the count
and value of each staged unit, the accumulation offset of its ROOT, the bytes of a segment, and the parameter blocks already folded. -/
structure OutletRec where
  entry   : Fin 64
  part    : PartId
  collId  : BitVec 12
  members : Nat
  len     : Nat
  done    : Nat
  units   : Sparse (Nat × List Lane)
  base    : Nat
  seg     : Nat
  blocks  : List Nat
deriving DecidableEq, Repr

/-- The update of one committed step on a station die (R220, R222): the hyperparameters latched at its commit, and the blocks done. -/
structure UpdateJob where
  part   : PartId
  step   : Nat
  kernel : BitVec 2
  lr     : Lane
  beta1  : Lane
  beta2  : Lane
  eps    : Lane
  wd     : Lane
  blocks : Nat
deriving DecidableEq, Repr

/-- A journal record (Table 8.8): its four words. -/
structure JournalRec where
  w0 : Word
  w1 : Word
  w2 : Word
  w3 : Word
deriving DecidableEq, Repr

/-- A ledger record (Table 12.6): the die and its eight words. -/
structure LedgerRec where
  die   : DieId
  words : List Word
deriving DecidableEq, Repr

/-- The power-loss extent of a station die (R283): the partitions whose resident bank was saved, with its step and its bytes here, and whether the closing record is
written. -/
structure PlossImage where
  saved  : List (PartId × Nat × Nat)
  closed : Bool
deriving DecidableEq, Repr

/-- The kinds of a channel's writes, in the order in which it serves them (R229). -/
inductive WriteKind where
  | journal
  | update
  | resident
deriving DecidableEq, Repr

/-- A page in a station die's write buffer (R213, R219, R223): its partition (none for the engine's own), its kind, its physical extent and page
(the parity page of row r is page 3,840 + r), and the instant it entered. -/
structure BufPage where
  part  : Option PartId
  kind  : WriteKind
  phys  : Nat
  page  : Nat
  since : Nat
deriving DecidableEq, Repr

/-- A weighted deficit round robin among partitions (R249): whose turn it is, the ns of the resource that the turn has used, and the
deficits. -/
structure Drr where
  turn    : Option PartId
  used    : Nat
  deficit : Sparse Nat
deriving DecidableEq, Repr

/-- An arbiter that has served nobody. -/
def Drr.reset : Drr := ⟨none, 0, []⟩

/-- A station die's Peat state (R205 to R226). `hold` are the reads held at closed gates, `reads` the requests that wait for flash pages with
the physical extent they resolved to. `flash` holds the data bytes by physical address `(phys × 3840 + page) × 16384 + byte`; `loose` the physical
extents whose unlisted bytes are free values, with the number of the event that made them so; `erased` the erase
counts; `retired` the physical extents out of use; `nandFail` the failed NAND dies, by channel and die; `lost` the lost pages; `folded` how
many passes have been folded into a block of a G extent in its step; `wbuf` the write buffer, oldest page first; `arbs` the arbiters of the
channels (0 to 15) and of the ejection of the routers (16 for the Up line, 17 for the Down line); `retires` the channel, NAND die and
instant of each retired block. -/
structure Station where
  lines    : List DepotLine
  hold     : List (PartId × Packet)
  reads    : List (Nat × Packet)
  map      : List ExtEntry
  flash    : List Host.Cell
  loose    : Sparse Nat
  erased   : Sparse Nat
  retired  : List Nat
  nandFail : List (Fin 16 × Fin 16)
  lost     : List (Nat × Nat)
  outlets  : List OutletRec
  outletW  : List Waiter
  folded   : Sparse Nat
  updates  : List UpdateJob
  journal  : List JournalRec
  ledger   : List LedgerRec
  ploss    : Option PlossImage
  ready    : Bool
  wbuf     : List BufPage
  arbs     : Sparse Drr
  retires  : List (Fin 16 × Fin 16 × Nat)
deriving DecidableEq, Repr

/-- A station die after its first power-up: an empty Peat (log 5). -/
def Station.reset : Station where
  lines := []
  hold := []
  reads := []
  map := []
  flash := []
  loose := []
  erased := []
  retired := []
  nandFail := []
  lost := []
  outlets := []
  outletW := []
  folded := []
  updates := []
  journal := []
  ledger := []
  ploss := none
  ready := false
  wbuf := []
  arbs := []
  retires := []

/-! ### Host ports -/

/-- A completion that waits to be written (R240, R242). -/
structure Completion where
  q      : Fin 16
  cid    : BitVec 16
  status : Byte
  detail : Byte
  result : Word
deriving DecidableEq, Repr

/-- What a BAR2 read answers (R237). -/
inductive ReadAnswer where
  | data (bytes : List Byte)
  | unsupported
  | abort
deriving DecidableEq, Repr

/-- A host port beside its registers (R231 to R244): link and power state, doorbell values, phases, commands fetched and not yet executed,
completions not yet written, events, interrupts raised, the queues that have stopped fetching (R240), and the last answers to BAR reads. -/
structure Port where
  linkUp  : Bool
  perst   : Bool
  d3      : Bool
  pmeEn   : Bool
  sqTail  : Sparse Nat
  cqHead  : Sparse Nat
  phase   : Sparse Bool
  turn    : Nat
  fetched : List HostCmd
  done    : List Completion
  events  : List Word
  lost    : Nat
  waiting : List HostCmd
  msix    : List (BitVec 6)
  stopped : List Nat
  answer  : Option ReadAnswer
  regRead : Word
  aerUr   : Nat
deriving DecidableEq, Repr

/-- A port before power-up: PERSTn# asserted by its pull-down (R334), link down. -/
def Port.reset : Port where
  linkUp := false
  perst := true
  d3 := false
  pmeEn := false
  sqTail := []
  cqHead := []
  phase := []
  turn := 0
  fetched := []
  done := []
  events := []
  lost := 0
  waiting := []
  msix := []
  stopped := []
  answer := none
  regRead := 0
  aerUr := 0

/-! ### Partitions, consists and epochs -/

/-- A PEATMAP entry (Table 9.15). -/
structure PeatMapEntry where
  nsid  : BitVec 4
  ext   : BitVec 19
  cls   : BitVec 3
  stn   : BitVec 3
  count : Lane
deriving DecidableEq, Repr

/-- An outlet table entry (Table 9.15, R218). -/
structure OutletEntry where
  p0  : Word
  ext : BitVec 19
  stn : BitVec 3
deriving DecidableEq, Repr

/-- A RESERVE entry (Table 9.15, R259). -/
structure ReserveEntry where
  die    : BitVec 6
  id     : Word
  source : Word
  len    : Word
deriving DecidableEq, Repr

/-- What the engine keeps of a loaded consist after its images, registers and routes are applied (R254 to R259). -/
structure Consist where
  id       : Word
  fenced   : Word
  peatmap  : List PeatMapEntry
  outlets  : List OutletEntry
  lag      : BitVec 4
  kernel   : BitVec 2
  resident : Word
  mereReq  : Lane
  kns      : BitVec 4
  reserve  : List ReserveEntry
deriving DecidableEq, Repr

/-- A partition beside its registers (R243, R246, R253): quota, loaded consist, the INVOKE that runs, whether its completion has been discarded by a port reset (`quiet`, R233) and the state before it (`prior`), the step numbers, the step guard's decision
where it waits for RES_SAVED, whether an abort is under way, since when, or has been asked for, a pending stop of R253, its epoch count and how many epochs its units have applied (R298). `locked` says whether its RWL fields are locked (R301). -/
structure Partition where
  quota     : Nat
  consist   : Option Consist
  invoke    : Option HostCmd
  quiet     : Bool
  committed : Nat
  step      : Nat
  resume    : Bool
  decided   : Option Bool
  aborting  : Bool
  abortAt   : Nat
  abortAsked : Bool
  locked    : Bool
  abortCmds : List HostCmd
  stopAt    : Option Nat
  epSeq     : BitVec 16
  applied   : Lane
  prior     : Nat
  resSaved  : Bool
deriving DecidableEq, Repr

/-- A partition number that no partition uses. -/
def Partition.reset : Partition := ⟨0, none, none, false, 0, 0, false, none, false, 0, false, false, [], none, 0, 0, 0, true⟩

/-- A namespace (R210, R247): its partition number and its extents per station die. -/
structure Namespace where
  nsid    : BitVec 4
  part    : PartId
  extents : Nat
deriving DecidableEq, Repr

/-- The origin of an epoch, which decides its outcome after three aborts (Table 11.11); of a load or ROUTE_COMMIT with its command, `none` once a
port reset has discarded it (R233). -/
inductive EpochOrigin where
  | stepBoundary
  | lagged
  | invoke
  | invEnd
  | load (p : PartId) (c : Option HostCmd)
  | commit (c : Option HostCmd)
  | revalidate
  | planeOff
deriving DecidableEq, Repr

/-- An epoch the signal box runs (R298, R300): ID, type, step, origin, instant A of the ARM (none while it waits its turn), how many attempts, the units that have not
answered READY, and the apply time once committed. -/
structure Epoch where
  part     : PartId
  id       : Lane
  kind     : Lane
  step     : Lane
  origin   : EpochOrigin
  armedAt  : Option Nat
  attempts : Nat
  silent   : List EpochUnit
  apply    : Option Nat
deriving DecidableEq, Repr

/-! ### Power, lamp domain, census, Reedline and test connector -/

/-- Where the Mere's charger is (R277): idle, discharging to 48 V, charging. -/
inductive MerePhase where
  | idle
  | discharging
  | charging
deriving DecidableEq, Repr

/-- The power-loss sequence (R282 to R285) and the module's power state. -/
inductive PowerPhase where
  | off
  | bringup
  | running
  | standby
  | flushing
  | lampOnly
deriving DecidableEq, Repr

/-- Power and lamp-domain state beside its registers (R261 to R285, R339). Voltages are in 0.1 V; `charge` is the coulomb counter Q
in µC; `govAt`, `coolAt` and `mereAt` when the next tick of the governor, coolant sample and Mere estimate are due, `tsyncAt` when the next TSYNC is due, `inputAt` when the input last came within range, `outside` the power outside the compute dies at the last tick in W, `caps` the capacities that the
timetable last saw, `dayAt` the end of the ledger day, `regionAt` the next region's slot, `xingAt` the next 10 µs period of R250; `expect` is
the host's topology expectation as its grade, hash and fenced-die mask (R292); `capMilli` the measured capacitance in mF; temperatures in 0.1 °C and flow in 0.1 L/min. -/
structure Power where
  phase    : PowerPhase
  feedA    : Nat
  feedB    : Nat
  shareA   : Nat
  shareB   : Nat
  mere     : MerePhase
  charge   : Int
  osc      : Bool
  pwrfail  : Bool
  tripAt   : Nat
  returned : Bool
  rolled   : Bool
  tIn      : Nat
  flow     : Nat
  coolCap  : Nat
  warmAt   : Option Nat
  slowAt   : Option Nat
  regionN  : Nat
  expect   : Option (Byte × List Byte × Nat)
  fuseRead : Bool
  fwVer    : Word
  pwrgd    : Bool
  alertCoolant : Bool
  byOff    : Bool
  flushUs  : Lane
  wakeAsked : Bool
  bootAt   : Nat
  lanes    : List Nat
  regionAt : Nat
  xingAt   : Nat
  govAt    : Nat
  coolAt   : Nat
  mereAt   : Nat
  dayAt    : Nat
  tsyncAt  : Nat
  inputAt  : Nat
  outside  : Nat
  caps     : List Nat
deriving DecidableEq, Repr

/-- The census (R313 to R315; `snapshot` are the two buffers as words): sweep number, its start, the records of the last sweep by die, the two chain breaks, the breaks already
alarmed, the dies that no direction of the chain reached, and whether S4 is the signal box. -/
structure Census where
  sweep    : Nat
  startAt  : Nat
  active   : Bool
  records  : Sparse (List Word)
  breakA   : Option Nat
  breakB   : Option Nat
  alarmed  : List Nat
  cutOff   : List Nat
  header   : List Word
  snapshot : Sparse (List Word)
  takeover : Bool
deriving DecidableEq, Repr

/-- An alarm sent and not yet acknowledged (R324). -/
structure Alarm where
  ctr    : Lane
  code   : BitVec 16
  part   : Option PartId
  detail : Lane
  sentAt : Nat
  sends  : Nat
  acked  : Bool
deriving DecidableEq, Repr

/-- The Reedline endpoint beside its registers (R318 to R327): the frames sent, alarms, installed key, the key words written so far, reply cache (CTR, tag, reply), PLCA
listening deadline, the last beacon and whether a follower does without (R320), the rate limits of R321, and the CENSUS_GET requests of the last 20 ms (source, CTR,
instant and the snapshot that answered). -/
structure Reedline where
  sent      : List (List Byte)
  alarms    : List Alarm
  key       : List Byte
  stage     : Sparse Word
  cache     : Option (Word × List Byte × List Byte)
  listenEnd : Nat
  lastBeacon : Nat
  fallback  : Bool
  nsAt      : List Nat
  asks      : List (Word × Word × Nat × List Word)
  strangerAt : Option Nat
  phyS4     : Bool
deriving DecidableEq, Repr

/-- The states of the IEEE 1149.1 TAP controller (R337). -/
inductive TapState where
  | reset | idle
  | selDr | capDr | shiftDr | exit1Dr | pauseDr | exit2Dr | updDr
  | selIr | capIr | shiftIr | exit1Ir | pauseIr | exit2Ir | updIr
deriving DecidableEq, Repr

/-- The TAP controller: its state, instruction and data shift registers, the loaded instruction, the boundary register's outputs, the
MCHAIN access that is pending and the answer the next Capture-DR records, and TDO. -/
structure Tap where
  st      : TapState
  irShift : BitVec 8
  ir      : BitVec 8
  dr      : BitVec 96
  bsr     : BitVec 28
  mchain  : Option (BitVec 96)
  answer  : BitVec 96
  tdo     : Bool
deriving DecidableEq, Repr

/-- The factory fuses (R4, R5, R289, R317): grade letter, positions fused at manufacture, module ID, MAC address, dies whose fuse record
fails its CRC, die revision and serial numbers. -/
structure Fuses where
  grade    : Byte
  fused    : List Nat
  moduleId : List Byte
  mac      : List Byte
  badCrc   : List DieId
  drev     : BitVec 16
  serial   : Sparse Lane
  cpmCount : Byte
deriving DecidableEq, Repr

/-- An open collective as its members have presented it (R188): partition, identifier, root address and descriptor word 0. -/
structure OpenColl where
  part   : PartId
  collId : Nat
  root   : Nat
  w0     : Word
deriving DecidableEq, Repr

/-- The module's state that no single die or port holds. `fencedTiles` and `fencedDies` are the ledger's fences; `net` the packets in
flight, `worms` their way through the routers, `wormSeq` the next number of one, `sidings` the routers' buffers by port, `turns` the last winner
of each round robin (R157, R186) and `replays` the errors in a row on each crossing link (R165); `ecc` the 64-bit SRAM words in error (false single, true uncorrectable), by address; `cells` and `undef` the memory
(see Machine/Memory.lean). -/
structure Module where
  fuses       : Fuses
  fencedTiles : List Nat
  fencedDies  : List Nat
  parts       : Sparse Partition
  nss         : List Namespace
  epochs      : List Epoch
  modSeq      : BitVec 16
  net         : List Packet
  worms       : List Worm
  wormSeq     : Nat
  sidings     : Sparse Sidings
  turns       : Sparse Nat
  replays     : Sparse Nat
  colls       : List OpenColl
  power       : Power
  census      : Census
  reedline    : Reedline
  tap         : Tap
  sboxS4      : Bool
  nodes       : Sparse NodeState
deriving DecidableEq, Repr

/-- What a write of RL_KEY3 replaces (R326): the key, RL_CMDCTR and the reply cache. -/
structure OldKey where
  key   : List Byte
  ctr   : Word
  cache : Option (Word × List Byte × List Byte)
deriving DecidableEq, Repr

/-- What hardware has done to registers in the UCLK cycle under way, by its number (R13, R14, R71): the words that counters had before the
cycle's first increment, the bits that events have set, the tiles that have forwarded TILE_EVENT, once administration has been handed over
in it, the port that held it before and whether that port's GIVE has done so (R245), the Reedline key that a write of RL_KEY3 has replaced (R327), and
the engine flags raised, each by its register, VCO period and bits (R96). -/
structure Tick where
  cycle  : Nat
  before : Sparse Word
  rose   : Sparse Word
  sent   : List Nat
  handed : Option (Nat × Bool)
  oldKey : Option OldKey
  raised : List (Nat × Nat × Nat)
deriving DecidableEq, Repr

/-- The module. `vco` counts 5.6 GHz VCO periods (R271), the base of every clock; `gtimeBase` is GTIME when it was 0 (R273); `fresh` numbers the
free values taken so far. -/
structure State where
  pending   : List Instr
  vco       : Nat
  gtimeBase : Nat
  fresh     : Nat
  regs      : Sparse Word
  tick      : Tick
  cells     : List Host.Cell
  undef     : List (Nat × Nat × Nat)
  ecc       : Sparse Bool
  tiles     : Sparse Tile
  dies      : Sparse Die
  stations  : Sparse Station
  ports     : Sparse Port
  m         : Module
deriving DecidableEq, Repr

/-- The module before power is applied: every field at the value the spec gives for reset; what the spec leaves open is named in log
entries 1 to 5. -/
def State.reset : State where
  pending := []
  vco := 0
  gtimeBase := 0
  fresh := 0
  regs := []
  tick := ⟨0, [], [], [], none, none, []⟩
  cells := []
  undef := []
  ecc := []
  tiles := []
  dies := []
  stations := []
  ports := []
  m := {
    fuses := {
      grade := 0x41
      fused := []
      moduleId := List.replicate 16 0
      mac := List.replicate 6 0
      badCrc := []
      drev := 0
      serial := []
      cpmCount := 0 }
    fencedTiles := []
    fencedDies := []
    parts := []
    nss := []
    epochs := []
    modSeq := 0
    net := []
    worms := []
    wormSeq := 1
    sidings := []
    turns := []
    replays := []
    colls := []
    power := {
      phase := .off
      feedA := 0
      feedB := 0
      shareA := 0
      shareB := 0
      mere := .idle
      charge := 0
      osc := false
      pwrfail := false
      tripAt := 0
      returned := false
      rolled := false
      tIn := 0
      flow := 600
      coolCap := 2600
      warmAt := none
      slowAt := none
      regionN := 0
      expect := none
      fuseRead := false
      fwVer := 0
      pwrgd := false
      alertCoolant := false
      byOff := false
      flushUs := 0
      wakeAsked := false
      bootAt := 0
      lanes := []
      regionAt := 0
      xingAt := 0
      govAt := 0
      coolAt := 0
      mereAt := 0
      dayAt := 86400000000000
      tsyncAt := 0
      inputAt := 0
      outside := 0
      caps := [] }
    census := {
      sweep := 0
      startAt := 0
      active := false
      records := []
      breakA := none
      breakB := none
      alarmed := []
      cutOff := []
      header := []
      snapshot := []
      takeover := false }
    reedline := {
      sent := []
      alarms := []
      key := []
      stage := []
      cache := none
      listenEnd := 0
      lastBeacon := 0
      fallback := false
      nsAt := []
      asks := []
      strangerAt := none
      phyS4 := false }
    tap := {
      st := .reset
      irShift := 0
      ir := 0
      dr := 0
      bsr := 0
      mchain := none
      answer := 0
      tdo := false }
    sboxS4 := false
    nodes := [] }

/-- Why a step stops with a fault. No command of this module does: a context fault, a NAK, a failed command or a fence is a state the
module goes on from. The one constructor is raised by no meaning (safe). -/
inductive Fault where
  /-- Raised by nothing: the spec gives the module no condition in which it stops altogether. Safe. -/
  | never
deriving DecidableEq, Repr

/-- Why a step is refused. -/
inductive Refusal where
  /-- Raised by an arm of exec whose command has no meaning yet; safe, the machine stops. -/
  | notModelled (mnemonic : String)
deriving DecidableEq, Repr

end Sys2Proof.Machine
end

