-- ==== Sys2Proof/Machine/RegMap.lean ====
section
/-!
DEFINITION. The register map: every register the spec tabulates, as ranges of equal registers with their fields, access codes
(Table 0.4) and reset values. A field marked F or U in its table has 0 here: what F fields read is computed from the fuses
(Machine/Regs.lean), what U fields read at reset is log entry 1. Reserved fields are absent and read 0 (R12).

What the spec leaves open here: log entries 1 and 103.
-/

namespace Sys2Proof.Machine

/-- The access codes of Table 0.4. -/
inductive Access where
  | rw
  | ro
  | w1c
  | wo
  | rc
  | rwl
deriving DecidableEq, Repr

/-- A field `[hi:lo]` of a register with its access code and reset value. -/
structure RegField where
  hi    : Nat
  lo    : Nat
  acc   : Access
  reset : Nat
deriving DecidableEq, Repr

/-- `count` registers of one layout, the first at offset `base`, `stride` bytes apart. -/
structure RegRange where
  base   : Nat
  count  : Nat
  stride : Nat
  fields : List RegField
deriving DecidableEq, Repr

/-- Tile registers by offset from 0x7F_0000 (Table 2.4): Tables 2.5 to 2.9, 3.9 and 3.10, 7.2, 7.7 and 7.8, 6.7 and 12.1. -/
def tileRegs : List RegRange := [
  ⟨0x0, 1, 0x8, [⟨12, 0, .ro, 0⟩, ⟨19, 16, .ro, 0⟩, ⟨23, 20, .ro, 0⟩, ⟨27, 24, .ro, 0⟩, ⟨33, 28, .ro, 0⟩]⟩,
  ⟨0x8, 1, 0x8, [⟨0, 0, .w1c, 0⟩, ⟨1, 1, .w1c, 0⟩, ⟨2, 2, .w1c, 0⟩, ⟨3, 3, .w1c, 0⟩, ⟨4, 4, .w1c, 0⟩, ⟨5, 5, .w1c, 0⟩, ⟨6, 6, .w1c, 0⟩, ⟨7, 7, .w1c, 0⟩, ⟨8, 8, .w1c, 0⟩, ⟨9, 9, .w1c, 0⟩]⟩,
  ⟨0x10, 1, 0x8, [⟨9, 0, .rw, 0x3F9⟩]⟩,
  ⟨0x40, 1, 0x8, [⟨3, 0, .rw, 0⟩, ⟨4, 4, .rw, 0⟩]⟩,
  ⟨0x48, 1, 0x8, [⟨31, 0, .rc, 0⟩]⟩,
  ⟨0x50, 1, 0x8, [⟨4, 0, .ro, 0⟩, ⟨27, 5, .ro, 0⟩, ⟨30, 28, .ro, 0⟩, ⟨33, 31, .ro, 0⟩, ⟨35, 34, .ro, 0⟩, ⟨63, 63, .w1c, 0⟩]⟩,
  ⟨0x58, 1, 0x8, [⟨23, 0, .rc, 0⟩, ⟨31, 24, .rc, 0⟩, ⟨54, 32, .ro, 0⟩, ⟨63, 63, .w1c, 0⟩]⟩,
  ⟨0x60, 1, 0x8, [⟨15, 0, .rw, 0x100⟩, ⟨47, 16, .ro, 0⟩]⟩,
  ⟨0x68, 1, 0x8, [⟨23, 0, .rc, 0⟩, ⟨31, 24, .rc, 0⟩, ⟨54, 32, .ro, 0⟩, ⟨63, 63, .w1c, 0⟩]⟩,
  ⟨0x80, 4, 0x8, [⟨22, 12, .rw, 0⟩, ⟨34, 24, .rw, 0⟩, ⟨40, 40, .rw, 0⟩, ⟨41, 41, .rw, 0⟩, ⟨42, 42, .rw, 0⟩, ⟨43, 43, .w1c, 0⟩, ⟨44, 44, .w1c, 0⟩]⟩,
  ⟨0xa0, 1, 0x8, [⟨0, 0, .rwl, 0⟩, ⟨1, 1, .rwl, 0⟩, ⟨2, 2, .rw, 0⟩, ⟨3, 3, .rw, 0⟩]⟩,
  ⟨0x100, 4, 0x8, [⟨12, 0, .rw, 0⟩, ⟨28, 16, .ro, 0⟩, ⟨31, 29, .ro, 0⟩, ⟨32, 32, .rw, 0⟩, ⟨47, 40, .ro, 0⟩]⟩,
  ⟨0x200, 1, 0x8, [⟨0, 0, .wo, 0⟩, ⟨1, 1, .wo, 0⟩, ⟨2, 2, .rw, 0⟩]⟩,
  ⟨0x208, 1, 0x8, [⟨35, 0, .rw, 0x77359400⟩]⟩,
  ⟨0x300, 32, 0x8, [⟨63, 0, .ro, 0⟩]⟩,
  ⟨0x400, 1, 0x8, [⟨0, 0, .rw, 1⟩, ⟨6, 1, .rw, 0x20⟩]⟩,
  ⟨0x408, 1, 0x8, [⟨15, 0, .ro, 0⟩, ⟨31, 16, .w1c, 0⟩, ⟨35, 32, .ro, 0⟩, ⟨39, 36, .ro, 0⟩, ⟨42, 40, .ro, 0⟩]⟩,
  ⟨0x800, 5, 0x8, [⟨0, 0, .w1c, 0⟩, ⟨1, 1, .w1c, 0⟩, ⟨2, 2, .w1c, 0⟩, ⟨3, 3, .w1c, 0⟩, ⟨4, 4, .w1c, 0⟩]⟩,
  ⟨0x828, 1, 0x8, [⟨4, 0, .ro, 0⟩]⟩,
  ⟨0x840, 1, 0x8, [⟨63, 0, .rw, 0⟩]⟩,
  ⟨0x848, 1, 0x8, [⟨0, 0, .rw, 1⟩]⟩,
  ⟨0x850, 1, 0x8, [⟨63, 0, .ro, 0x9e3779b97f4a7c15⟩]⟩,
  ⟨0x858, 1, 0x8, [⟨63, 0, .ro, 0xd1b54a32d192ed03⟩]⟩,
  ⟨0x1000, 64, 0x8, [⟨31, 0, .rw, 0⟩, ⟨35, 32, .ro, 5⟩]⟩,
  ⟨0x1200, 1, 0x8, [⟨15, 0, .rw, 0xc8⟩]⟩,
  ⟨0x1208, 1, 0x8, [⟨5, 0, .ro, 0⟩, ⟨8, 6, .ro, 0⟩, ⟨11, 9, .ro, 0⟩, ⟨14, 12, .ro, 0⟩, ⟨17, 15, .ro, 0⟩, ⟨21, 18, .ro, 0⟩, ⟨25, 22, .ro, 0⟩, ⟨29, 26, .ro, 0⟩]⟩,
  ⟨0x1210, 1, 0x8, [⟨7, 0, .ro, 0⟩, ⟨10, 8, .ro, 0⟩, ⟨63, 63, .w1c, 0⟩]⟩,
  ⟨0x1218, 1, 0x8, [⟨31, 0, .rc, 0⟩, ⟨63, 32, .rc, 0⟩]⟩,
  ⟨0x1220, 1, 0x8, [⟨31, 0, .rc, 0⟩]⟩,
  ⟨0x1228, 1, 0x8, [⟨31, 0, .rc, 0⟩]⟩,
  ⟨0x1300, 2, 0x40, [⟨15, 0, .rw, 0x190⟩, ⟨31, 16, .rw, 0x320⟩]⟩,
  ⟨0x1308, 2, 0x40, [⟨3, 0, .ro, 0⟩, ⟨6, 4, .ro, 0⟩]⟩,
  ⟨0x1310, 2, 0x40, [⟨31, 0, .rc, 0⟩]⟩,
  ⟨0x1318, 2, 0x40, [⟨31, 0, .rc, 0⟩]⟩,
  ⟨0x1320, 2, 0x40, [⟨63, 0, .rc, 0⟩]⟩,
  ⟨0x2000, 256, 0x20, [⟨5, 0, .rw, 0⟩, ⟨39, 8, .rw, 0⟩, ⟨40, 40, .rw, 0⟩, ⟨41, 41, .rw, 0⟩, ⟨42, 42, .rw, 0⟩, ⟨43, 43, .ro, 0⟩, ⟨47, 44, .rw, 0⟩, ⟨49, 48, .rw, 0⟩, ⟨55, 50, .rw, 0⟩, ⟨56, 56, .rw, 0⟩, ⟨62, 57, .rw, 0⟩, ⟨63, 63, .rw, 0⟩]⟩,
  ⟨0x2008, 256, 0x20, [⟨55, 0, .rw, 0⟩]⟩,
  ⟨0x2010, 256, 0x20, [⟨22, 0, .rw, 0⟩, ⟨45, 23, .rw, 0⟩]⟩,
  ⟨0x2018, 256, 0x20, [⟨63, 0, .rw, 0⟩]⟩,
  ⟨0x4000, 2, 0x100, [⟨4, 0, .ro, 0⟩, ⟨9, 5, .ro, 0⟩]⟩,
  ⟨0x4010, 5, 0x8, [⟨7, 0, .ro, 0⟩, ⟨15, 8, .ro, 0⟩, ⟨23, 16, .ro, 0⟩, ⟨31, 24, .ro, 0⟩, ⟨39, 32, .ro, 0⟩]⟩,
  ⟨0x4110, 5, 0x8, [⟨7, 0, .ro, 0⟩, ⟨15, 8, .ro, 0⟩, ⟨23, 16, .ro, 0⟩, ⟨31, 24, .ro, 0⟩, ⟨39, 32, .ro, 0⟩]⟩,
  ⟨0x4040, 2, 0x100, [⟨63, 0, .rc, 0⟩]⟩,
  ⟨0x4048, 2, 0x100, [⟨31, 0, .rc, 0⟩]⟩,
  ⟨0x4050, 2, 0x100, [⟨15, 0, .rc, 0⟩, ⟨31, 16, .rc, 0⟩, ⟨35, 32, .ro, 0⟩, ⟨36, 36, .ro, 0⟩]⟩,
  ⟨0x4200, 1, 0x8, [⟨3, 0, .ro, 0⟩, ⟨6, 4, .ro, 7⟩, ⟨7, 7, .ro, 0⟩, ⟨15, 8, .ro, 0⟩]⟩,
  ⟨0x4208, 1, 0x8, [⟨39, 0, .ro, 0⟩]⟩,
  ⟨0x4210, 1, 0x8, [⟨15, 0, .rc, 0⟩, ⟨31, 16, .rc, 0⟩]⟩,
  ⟨0x5000, 1, 0x8, [⟨0, 0, .ro, 0⟩, ⟨1, 1, .ro, 0⟩, ⟨4, 2, .ro, 0⟩, ⟨5, 5, .ro, 0⟩]⟩,
  ⟨0x5008, 1, 0x8, [⟨23, 0, .rc, 0⟩]⟩]

/-- Cluster registers by offset from 0x7F_8000 (Table 2.10). -/
def clusterRegs : List RegRange := [
  ⟨0x0, 1, 0x8, [⟨8, 0, .ro, 0⟩, ⟨17, 9, .ro, 0⟩, ⟨19, 18, .ro, 0⟩]⟩,
  ⟨0x8, 1, 0x8, [⟨5, 0, .ro, 0⟩, ⟨31, 16, .ro, 0⟩]⟩]

/-- TEB registers (Tables 4.5 and 4.6). -/
def tebRegs : List RegRange := [
  ⟨0x0, 1, 0x8, [⟨8, 0, .rw, 0x4d⟩, ⟨31, 16, .rw, 0x100⟩]⟩,
  ⟨0x8, 1, 0x8, [⟨7, 0, .ro, 0⟩, ⟨15, 8, .ro, 0⟩]⟩,
  ⟨0x10, 1, 0x8, [⟨63, 0, .rc, 0⟩]⟩,
  ⟨0x18, 1, 0x8, [⟨63, 0, .rc, 0⟩]⟩,
  ⟨0x20, 1, 0x8, [⟨63, 0, .rc, 0⟩]⟩,
  ⟨0x28, 1, 0x8, [⟨63, 0, .rc, 0⟩]⟩,
  ⟨0x30, 1, 0x8, [⟨63, 0, .rc, 0⟩]⟩]

/-- NCB registers and route tables (Table 6.8). -/
def ncbRegs : List RegRange := [
  ⟨0x0, 1, 0x8, [⟨0, 0, .rwl, 1⟩, ⟨1, 1, .rwl, 1⟩, ⟨2, 2, .ro, 0⟩]⟩,
  ⟨0x8, 1, 0x8, [⟨0, 0, .ro, 0⟩, ⟨1, 1, .ro, 0⟩, ⟨7, 2, .ro, 0⟩, ⟨13, 8, .ro, 0⟩, ⟨16, 14, .ro, 0⟩]⟩,
  ⟨0x10, 1, 0x8, [⟨7, 0, .ro, 0⟩]⟩,
  ⟨0x18, 1, 0x8, [⟨31, 0, .rc, 0⟩]⟩,
  ⟨0x20, 1, 0x8, [⟨15, 0, .ro, 0⟩, ⟨16, 16, .w1c, 0⟩]⟩,
  ⟨0x28, 1, 0x8, [⟨63, 0, .ro, 0⟩]⟩,
  ⟨0x100, 6, 0x8, [⟨7, 0, .rwl, 0xFF⟩, ⟨15, 8, .rwl, 0xFF⟩, ⟨23, 16, .rwl, 0xFF⟩, ⟨31, 24, .rwl, 0xFF⟩, ⟨39, 32, .rwl, 0xFF⟩, ⟨47, 40, .rwl, 0xFF⟩, ⟨55, 48, .rwl, 0xFF⟩, ⟨63, 56, .rwl, 0xFF⟩]⟩,
  ⟨0x140, 6, 0x8, [⟨7, 0, .rwl, 0xFF⟩, ⟨15, 8, .rwl, 0xFF⟩, ⟨23, 16, .rwl, 0xFF⟩, ⟨31, 24, .rwl, 0xFF⟩, ⟨39, 32, .rwl, 0xFF⟩, ⟨47, 40, .rwl, 0xFF⟩, ⟨55, 48, .rwl, 0xFF⟩, ⟨63, 56, .rwl, 0xFF⟩]⟩,
  ⟨0x180, 6, 0x8, [⟨7, 0, .rwl, 0xFF⟩, ⟨15, 8, .rwl, 0xFF⟩, ⟨23, 16, .rwl, 0xFF⟩, ⟨31, 24, .rwl, 0xFF⟩, ⟨39, 32, .rwl, 0xFF⟩, ⟨47, 40, .rwl, 0xFF⟩, ⟨55, 48, .rwl, 0xFF⟩, ⟨63, 56, .rwl, 0xFF⟩]⟩,
  ⟨0x1c0, 6, 0x8, [⟨7, 0, .rwl, 0xFF⟩, ⟨15, 8, .rwl, 0xFF⟩, ⟨23, 16, .rwl, 0xFF⟩, ⟨31, 24, .rwl, 0xFF⟩, ⟨39, 32, .rwl, 0xFF⟩, ⟨47, 40, .rwl, 0xFF⟩, ⟨55, 48, .rwl, 0xFF⟩, ⟨63, 56, .rwl, 0xFF⟩]⟩]

/-- PSB registers (Table 8.10). -/
def psbRegs : List RegRange := [
  ⟨0x0, 1, 0x8, [⟨15, 0, .ro, 0⟩, ⟨31, 16, .ro, 0⟩, ⟨47, 32, .ro, 0⟩]⟩,
  ⟨0x8, 1, 0x8, [⟨63, 0, .ro, 0⟩]⟩,
  ⟨0x38, 1, 0x8, [⟨7, 0, .ro, 0⟩]⟩,
  ⟨0x10, 1, 0x8, [⟨31, 0, .ro, 0x5156⟩, ⟨63, 32, .ro, 0⟩]⟩,
  ⟨0x18, 1, 0x8, [⟨23, 0, .rc, 0⟩, ⟨47, 24, .rc, 0⟩, ⟨63, 48, .rc, 0⟩]⟩,
  ⟨0x20, 1, 0x8, [⟨55, 0, .ro, 0⟩, ⟨63, 63, .w1c, 0⟩]⟩,
  ⟨0x28, 1, 0x8, [⟨6, 0, .rw, 0x10⟩, ⟨63, 32, .ro, 0⟩]⟩,
  ⟨0x30, 1, 0x8, [⟨15, 0, .rw, 0x40⟩]⟩,
  ⟨0x40, 1, 0x8, [⟨3, 0, .rw, 4⟩]⟩,
  ⟨0x48, 1, 0x8, [⟨63, 0, .rc, 0⟩]⟩,
  ⟨0x50, 1, 0x8, [⟨63, 0, .rc, 0⟩]⟩,
  ⟨0x58, 1, 0x8, [⟨15, 0, .ro, 0⟩, ⟨47, 16, .rc, 0⟩]⟩,
  ⟨0x100, 8, 0x40, [⟨3, 0, .rwl, 0⟩, ⟨5, 4, .rwl, 0⟩, ⟨6, 6, .ro, 0⟩, ⟨63, 32, .ro, 0⟩]⟩,
  ⟨0x108, 8, 0x40, [⟨31, 0, .rwl, 0⟩]⟩,
  ⟨0x110, 8, 0x40, [⟨31, 0, .rwl, 0⟩, ⟨63, 32, .rwl, 0⟩]⟩,
  ⟨0x118, 8, 0x40, [⟨31, 0, .rwl, 0⟩, ⟨63, 32, .rwl, 0⟩]⟩,
  ⟨0x120, 8, 0x40, [⟨31, 0, .rwl, 0x7f800000⟩]⟩,
  ⟨0x128, 8, 0x40, [⟨31, 0, .ro, 0⟩, ⟨32, 32, .ro, 0⟩, ⟨33, 33, .ro, 0⟩]⟩,
  ⟨0x130, 8, 0x40, [⟨31, 0, .rc, 0⟩]⟩,
  ⟨0x138, 8, 0x40, [⟨12, 0, .ro, 0⟩]⟩]

/-- Port and queue registers by BAR0 offset (Tables 9.5 and 9.6), then at 0x200_0000 and 0x300_0000 above it the MSI-X table and pending bits by BAR4
offset (R239) and the base address registers by offset in the configuration space (R234), laid out as the PCI Express standard lays them out. -/
def portRegs : List RegRange := [
  ⟨0x0, 1, 0x8, [⟨2, 0, .ro, 0⟩, ⟨5, 3, .ro, 0⟩, ⟨6, 6, .ro, 0⟩, ⟨7, 7, .ro, 0⟩]⟩,
  ⟨0x8, 1, 0x8, [⟨0, 0, .ro, 0⟩, ⟨1, 1, .ro, 0⟩, ⟨7, 4, .ro, 0⟩]⟩,
  ⟨0x10, 1, 0x8, [⟨1, 0, .ro, 0⟩, ⟨6, 2, .ro, 0⟩, ⟨7, 7, .ro, 0⟩, ⟨8, 8, .w1c, 0⟩]⟩,
  ⟨0x18, 1, 0x8, [⟨15, 0, .rc, 0⟩, ⟨31, 16, .rc, 0⟩, ⟨47, 32, .rc, 0⟩, ⟨63, 48, .rc, 0⟩]⟩,
  ⟨0x20, 1, 0x8, [⟨2, 0, .wo, 0⟩, ⟨3, 3, .wo, 0⟩]⟩,
  ⟨0x28, 1, 0x8, [⟨35, 0, .rw, 0x77359400⟩]⟩,
  ⟨0x1000, 16, 0x40, [⟨63, 6, .rw, 0⟩]⟩,
  ⟨0x1008, 16, 0x40, [⟨63, 6, .rw, 0⟩]⟩,
  ⟨0x1010, 16, 0x40, [⟨11, 0, .rw, 0⟩, ⟨27, 16, .rw, 0⟩, ⟨37, 32, .rw, 0⟩, ⟨40, 40, .rw, 0⟩, ⟨41, 41, .rw, 0⟩]⟩,
  ⟨0x1018, 16, 0x40, [⟨11, 0, .ro, 0⟩, ⟨27, 16, .ro, 0⟩, ⟨32, 32, .w1c, 0⟩, ⟨35, 33, .ro, 0⟩]⟩,
  ⟨0x2080000, 64, 0x10, [⟨63, 2, .rw, 0⟩]⟩,
  ⟨0x2080008, 64, 0x10, [⟨31, 0, .rw, 0⟩, ⟨32, 32, .rw, 1⟩]⟩,
  ⟨0x2090000, 1, 0x8, [⟨63, 0, .ro, 0⟩]⟩,
  ⟨0x3000010, 1, 0x8, [⟨3, 0, .ro, 4⟩, ⟨63, 25, .rw, 0⟩]⟩,
  ⟨0x3000018, 1, 0x8, [⟨3, 0, .ro, 4⟩, ⟨63, 37, .rw, 0⟩]⟩,
  ⟨0x3000020, 1, 0x8, [⟨3, 0, .ro, 4⟩, ⟨63, 20, .rw, 0⟩]⟩]

/-- Module and partition registers by offset from BAR0 0x1_0000 (Table 9.12). -/
def moduleRegs : List RegRange := [
  ⟨0x0, 1, 0x8, [⟨2, 0, .ro, 0⟩]⟩,
  ⟨0x8, 1, 0x8, [⟨31, 0, .ro, 1⟩]⟩,
  ⟨0x100, 8, 0x20, [⟨0, 0, .ro, 0⟩, ⟨1, 1, .ro, 0⟩, ⟨13, 2, .ro, 0⟩, ⟨21, 14, .ro, 0⟩, ⟨29, 22, .ro, 0⟩, ⟨63, 32, .ro, 0⟩]⟩,
  ⟨0x108, 8, 0x20, [⟨39, 0, .ro, 0⟩]⟩,
  ⟨0x110, 8, 0x20, [⟨2, 0, .ro, 0⟩, ⟨7, 3, .ro, 0⟩, ⟨63, 32, .ro, 0⟩]⟩,
  ⟨0x118, 8, 0x20, [⟨31, 0, .ro, 0⟩, ⟨63, 32, .ro, 0⟩]⟩]

/-- Die power registers (Tables 10.7 and 10.8). -/
def powerRegs : List RegRange := [
  ⟨0x0, 1, 0x8, [⟨4, 0, .ro, 0⟩, ⟨9, 5, .ro, 0⟩, ⟨19, 10, .ro, 0⟩, ⟨22, 20, .ro, 0⟩, ⟨23, 23, .ro, 0⟩, ⟨24, 24, .ro, 0⟩]⟩,
  ⟨0x8, 1, 0x8, [⟨9, 0, .ro, 0⟩, ⟨19, 10, .ro, 0⟩, ⟨43, 32, .ro, 0⟩]⟩,
  ⟨0x10, 1, 0x8, [⟨31, 0, .ro, 0⟩, ⟨63, 32, .ro, 0⟩]⟩,
  ⟨0x18, 1, 0x8, [⟨2, 0, .rw, 0⟩, ⟨15, 8, .rw, 0x1e⟩, ⟨23, 16, .rw, 0x28⟩]⟩,
  ⟨0x20, 1, 0x8, [⟨23, 0, .ro, 0⟩]⟩,
  ⟨0x28, 1, 0x8, [⟨4, 0, .ro, 0⟩, ⟨6, 5, .ro, 0⟩, ⟨55, 8, .ro, 0⟩, ⟨63, 63, .w1c, 0⟩]⟩,
  ⟨0x30, 1, 0x8, [⟨0, 0, .w1c, 0⟩, ⟨1, 1, .w1c, 0⟩, ⟨2, 2, .w1c, 0⟩, ⟨3, 3, .w1c, 0⟩, ⟨4, 4, .w1c, 0⟩, ⟨5, 5, .w1c, 0⟩]⟩,
  ⟨0x100, 16, 0x8, [⟨2, 0, .ro, 0⟩, ⟨15, 8, .ro, 0⟩, ⟨63, 32, .rc, 0⟩]⟩]

/-- Module power registers, on S0 and mirrored on S4 (Table 10.9). -/
def modulePowerRegs : List RegRange := [
  ⟨0x800, 1, 0x8, [⟨9, 0, .ro, 0⟩, ⟨19, 10, .ro, 0⟩, ⟨29, 20, .ro, 0⟩, ⟨39, 30, .ro, 0⟩, ⟨40, 40, .ro, 0⟩, ⟨41, 41, .ro, 0⟩]⟩,
  ⟨0x808, 1, 0x8, [⟨15, 0, .rw, 0xa28⟩, ⟨31, 16, .ro, 0⟩, ⟨47, 32, .ro, 0⟩, ⟨48, 48, .ro, 0⟩]⟩,
  ⟨0x810, 1, 0x8, [⟨9, 0, .ro, 0⟩]⟩,
  ⟨0x818, 1, 0x8, [⟨9, 0, .ro, 0⟩, ⟨10, 10, .ro, 0⟩, ⟨11, 11, .ro, 0⟩, ⟨12, 12, .ro, 0⟩, ⟨13, 13, .w1c, 0⟩, ⟨63, 32, .ro, 0⟩]⟩,
  ⟨0x820, 1, 0x8, [⟨31, 0, .ro, 0⟩, ⟨47, 32, .ro, 0⟩]⟩,
  ⟨0x828, 1, 0x8, [⟨31, 0, .ro, 0⟩, ⟨63, 32, .ro, 0⟩]⟩,
  ⟨0x830, 1, 0x8, [⟨31, 0, .ro, 0⟩, ⟨47, 32, .ro, 0⟩]⟩,
  ⟨0x838, 1, 0x8, [⟨31, 0, .ro, 0⟩, ⟨32, 32, .ro, 0⟩, ⟨33, 33, .ro, 0⟩, ⟨34, 34, .ro, 0⟩]⟩,
  ⟨0x840, 1, 0x8, [⟨15, 0, .rw, 0x2000⟩]⟩]

/-- Die health registers (Tables 12.2 and 11.9). -/
def healthRegs : List RegRange := [
  ⟨0x0, 1, 0x8, [⟨5, 0, .ro, 0⟩, ⟨6, 6, .ro, 0⟩, ⟨31, 16, .ro, 0⟩, ⟨63, 32, .ro, 0⟩]⟩,
  ⟨0x8, 1, 0x8, [⟨7, 0, .ro, 0⟩, ⟨15, 8, .ro, 0⟩, ⟨23, 16, .ro, 0⟩, ⟨31, 24, .ro, 0⟩, ⟨39, 32, .ro, 0⟩, ⟨47, 40, .ro, 0⟩, ⟨55, 48, .ro, 0⟩, ⟨63, 56, .ro, 0⟩]⟩,
  ⟨0x10, 1, 0x8, [⟨7, 0, .ro, 0⟩, ⟨10, 8, .ro, 0⟩, ⟨63, 16, .ro, 0⟩]⟩,
  ⟨0x18, 1, 0x8, [⟨15, 0, .ro, 0⟩, ⟨23, 16, .ro, 0⟩, ⟨47, 32, .ro, 0xffff⟩]⟩,
  ⟨0x38, 1, 0x8, [⟨15, 0, .ro, 0⟩, ⟨23, 16, .ro, 0⟩, ⟨31, 24, .ro, 0⟩, ⟨63, 32, .ro, 0⟩]⟩,
  ⟨0x40, 1, 0x8, [⟨47, 0, .ro, 0⟩, ⟨63, 48, .ro, 0⟩]⟩,
  ⟨0x48, 1, 0x8, [⟨31, 0, .ro, 0⟩, ⟨63, 32, .ro, 0⟩]⟩,
  ⟨0x20, 3, 0x8, [⟨63, 0, .ro, 0⟩]⟩,
  ⟨0x50, 4, 0x8, [⟨23, 0, .ro, 0⟩, ⟨47, 24, .ro, 0⟩, ⟨55, 48, .ro, 0⟩, ⟨63, 56, .ro, 0⟩]⟩,
  ⟨0x70, 3, 0x8, [⟨7, 0, .ro, 0⟩, ⟨15, 8, .ro, 0⟩, ⟨23, 16, .ro, 0⟩, ⟨31, 24, .ro, 0⟩, ⟨39, 32, .ro, 0⟩, ⟨47, 40, .ro, 0⟩, ⟨55, 48, .ro, 0⟩, ⟨63, 56, .ro, 0⟩]⟩,
  ⟨0x88, 1, 0x8, [⟨7, 0, .ro, 0⟩, ⟨12, 8, .ro, 0⟩]⟩,
  ⟨0x90, 1, 0x8, [⟨63, 0, .ro, 0⟩]⟩,
  ⟨0x98, 1, 0x8, [⟨15, 0, .ro, 0⟩, ⟨63, 16, .ro, 0⟩]⟩,
  ⟨0x100, 32, 0x8, [⟨7, 0, .ro, 0⟩, ⟨15, 8, .ro, 0⟩, ⟨23, 16, .ro, 0⟩, ⟨31, 24, .ro, 0⟩, ⟨39, 32, .ro, 0⟩, ⟨47, 40, .ro, 0⟩, ⟨55, 48, .ro, 0⟩, ⟨63, 56, .ro, 0⟩]⟩,
  ⟨0xf000, 1, 0x8, [⟨1, 0, .ro, 3⟩, ⟨2, 2, .ro, 0⟩, ⟨6, 3, .ro, 0⟩, ⟨10, 7, .ro, 0⟩, ⟨13, 11, .ro, 0⟩, ⟨14, 14, .w1c, 0⟩, ⟨15, 15, .w1c, 0⟩, ⟨63, 32, .ro, 0⟩]⟩,
  ⟨0xf008, 1, 0x8, [⟨2, 0, .ro, 0⟩, ⟨15, 8, .ro, 0⟩, ⟨63, 16, .ro, 0⟩]⟩]

/-- MOD_STATE and the Reedline registers, on S0 and mirrored on S4 (Tables 11.10 and 12.9). -/
def s0Regs : List RegRange := [
  ⟨0xf100, 1, 0x8, [⟨1, 0, .ro, 0⟩, ⟨4, 2, .ro, 0⟩, ⟨5, 5, .ro, 0⟩, ⟨6, 6, .ro, 0⟩, ⟨31, 16, .ro, 0⟩]⟩,
  ⟨0xf200, 1, 0x8, [⟨7, 0, .rw, 0xff⟩, ⟨15, 8, .rw, 8⟩, ⟨18, 16, .rw, 0⟩, ⟨26, 19, .rw, 0x80⟩, ⟨34, 27, .rw, 0x20⟩, ⟨51, 36, .rw, 0xc256⟩]⟩,
  ⟨0xf208, 1, 0x8, [⟨1, 0, .ro, 0⟩, ⟨2, 2, .w1c, 0⟩, ⟨3, 3, .ro, 0⟩, ⟨4, 4, .ro, 0⟩, ⟨31, 16, .rc, 0⟩, ⟨47, 32, .rc, 0⟩, ⟨63, 48, .rc, 0⟩]⟩,
  ⟨0xf210, 4, 0x8, [⟨63, 0, .wo, 0⟩]⟩,
  ⟨0xf230, 4, 0x8, [⟨63, 0, .rw, 0⟩]⟩,
  ⟨0xf250, 1, 0x8, [⟨31, 0, .ro, 0⟩, ⟨63, 32, .rc, 0⟩]⟩,
  ⟨0xf258, 1, 0x8, [⟨63, 0, .ro, 0⟩]⟩]
/-- Whether a range holds a register at offset `off`. -/
def RegRange.holds (r : RegRange) (off : Nat) : Bool :=
  decide (r.base ≤ off) && decide ((off - r.base) % r.stride = 0) && decide ((off - r.base) / r.stride < r.count)

/-- The fields of the register at an offset; an offset the map does not list is reserved and has none (R12). -/
def fieldsAt : List RegRange → Nat → List RegField
  | [], _ => []
  | r :: rs, off => if r.holds off then r.fields else fieldsAt rs off

/-- The reset value of a register from its fields. -/
def fieldsReset (fs : List RegField) : Word :=
  fs.foldl (fun w f => w ||| (BitVec.ofNat 64 f.reset <<< f.lo)) 0

end Sys2Proof.Machine
end

