-- ==== Sys2Proof/Machine/Ops.lean ====
section
/-!
DEFINITION. The named operations over sparse data, memory, the register file, tiles and contexts; the faults of R43 and what they do.

Everything a meaning does to the state goes through these.

What the spec leaves open here: log entries 4, 8, 40, 51, 52, 65, 66, 70 and 116.
-/

namespace Sys2Proof.Machine

/-! ### Sparse data -/

/-- The value at a key, `d` where none is listed. -/
def spGet {α : Type} : Sparse α → α → Nat → α
  | [], d, _ => d
  | (k, v) :: m, d, key => if key = k then v else spGet m d key

/-- Insert or replace the value at a key, keeping the keys rising. -/
def spPut {α : Type} : Sparse α → Nat → α → Sparse α
  | [], key, v => [(key, v)]
  | (k, u) :: m, key, v =>
    if key = k then (key, v) :: m
    else if key < k then (key, v) :: (k, u) :: m
    else (k, u) :: spPut m key v

/-- Remove a key. -/
def spDel {α : Type} : Sparse α → Nat → Sparse α
  | [], _ => []
  | (k, u) :: m, key => if key = k then spDel m key else (k, u) :: spDel m key

/-- Set the value at a key, listing nothing that equals the default. -/
def spSet {α : Type} [DecidableEq α] (m : Sparse α) (d : α) (key : Nat) (v : α) : Sparse α :=
  if v = d then spDel m key else spPut m key v

/-- Change what every listed key holds; `none` returns the key to its default. -/
def spMap {α : Type} (f : Nat → α → Option α) : Sparse α → Sparse α
  | [] => []
  | (k, v) :: m => match f k v with
    | some w => (k, w) :: spMap f m
    | none => spDel (spMap f m) k

/-- Keys strictly rising from `lo` on. -/
def keysRise {α : Type} : Nat → Sparse α → Bool
  | _, [] => true
  | lo, (k, _) :: m => decide (lo ≤ k) && keysRise (k + 1) m

/-! ### Bit fields and byte order -/

/-- Field `[hi:lo]` of a word as a number (R9). -/
def bits (w : Word) (hi lo : Nat) : Nat := (w.toNat >>> lo) % 2 ^ (hi + 1 - lo)

/-- One bit of a word. -/
def bit (w : Word) (i : Nat) : Bool := w.getLsbD i

/-- The word with field `[hi:lo]` replaced by the low bits of `v`. -/
def putBits (w : Word) (hi lo : Nat) (v : Nat) : Word :=
  let m : Word := BitVec.ofNat 64 (2 ^ (hi + 1 - lo) - 1) <<< lo
  (w &&& ~~~m) ||| ((BitVec.ofNat 64 v <<< lo) &&& m)

/-- A Bool as 0 or 1. -/
def b2n (b : Bool) : Nat := if b then 1 else 0

/-- Sign extension of the low `n` bits of a number to an integer. -/
def sext (n : Nat) (v : Nat) : Int :=
  if v % 2 ^ n < 2 ^ (n - 1) then (v % 2 ^ n : Nat) else ((v % 2 ^ n : Nat) : Int) - (2 ^ n : Nat)

/-- The number whose little-endian bytes these are (R9). -/
def leNat : List Byte → Nat
  | [] => 0
  | b :: bs => b.toNat + 256 * leNat bs

/-- The `n` little-endian bytes of a number (R9). -/
def leBytes : Nat → Nat → List Byte
  | 0, _ => []
  | n + 1, v => BitVec.ofNat 8 v :: leBytes n (v / 256)

/-- The words whose little-endian bytes these are, eight bytes a word. -/
def leWords : Nat → List Byte → List Word
  | 0, _ => []
  | n + 1, bs => BitVec.ofNat 64 (leNat (bs.take 8)) :: leWords n (bs.drop 8)

/-- `n div d` rounded up. -/
def ceilDiv (n d : Nat) : Nat := (n + d - 1) / d

/-! ### Time -/

/-- GTIME of the root in ns (R175, R271): 5 ns for each 28 VCO periods. -/
def State.now (s : State) : Nat := s.gtimeBase + s.vco * 5 / 28

/-- Let time pass up to a VCO period: a command that stands for an event at some instant brings the module to it (log 8). -/
def waitVco (s : State) (v : Nat) : State := if v ≤ s.vco then s else { s with vco := v }

/-- Let time pass up to an instant of GTIME. -/
def waitUntil (s : State) (ns : Nat) : State := waitVco s (ceilDiv ((ns - s.gtimeBase) * 28) 5)

/-- The earliest of some instants, if any. -/
def earliest : List Nat → Option Nat
  | [] => none
  | a :: l => match earliest l with
    | some b => some (min a b)
    | none => some a

/-- Let time pass up to the earliest of some instants. -/
def waitEarliest (s : State) (l : List Nat) : State := match earliest l with
  | some a => waitUntil s a
  | none => s

/-- A die's state. -/
def dieOf (s : State) (d : Nat) : Die := spGet s.dies Die.reset d

/-- Replace a die's state. -/
def setDie (s : State) (d : Nat) (x : Die) : State := { s with dies := spSet s.dies Die.reset d x }

/-- The part of a correction that has been made after some ns (R176): a die that is behind slews forward at 1 ns per µs; one that is ahead
by more than 20 ns holds its counter down to 20 ns and then slews. -/
def slewDone (slew : Int) (ns : Nat) : Int :=
  if 0 ≤ slew then min slew ((ns / 1000 : Nat) : Int)
  else
    let ahead := slew.natAbs
    let hold := ahead - 20
    if ns ≤ hold then -((ns : Nat) : Int) else -((hold + min (min ahead 20) ((ns - hold) / 1000) : Nat) : Int)

/-- GTIME of a die less the root's. -/
def offsetOf (s : State) (d : Nat) : Int := (dieOf s d).offset + slewDone (dieOf s d).slew (s.now - (dieOf s d).slewFrom)

/-- GTIME of a die (R175). -/
def gtimeOf (s : State) (d : Nat) : Nat := Int.toNat ((s.now : Int) + offsetOf s d)

/-! ### Memory

A byte of SRAM, of host memory or of a Peat staging range is kept by its device global address (R235). `undef` lists the ranges whose
content the spec has called undefined, newest first; a byte listed nowhere reads 0 (log 4), or as a free value where an event made it
undefined. -/

/-- The number of the newest event that made a byte undefined, if any. -/
def undefAt : List (Nat × Nat × Nat) → Nat → Option Nat
  | [], _ => none
  | (lo, hi, g) :: r, a => if lo ≤ a ∧ a < hi then some g else undefAt r a

/-- What a byte reads as that nothing has written since. -/
def memDefault (undef : List (Nat × Nat × Nat)) (a : Nat) : Byte :=
  match undefAt undef a with
  | none => 0
  | some g => Config.undefByte g a

/-- Canonical form of a memory: addresses strictly rising, no entry equal to what an unlisted address reads as. -/
def Memory.wf (undef : List (Nat × Nat × Nat)) (cells : List Host.Cell) : Bool :=
  keysRise 0 cells && cells.all (fun c => decide (c.2 ≠ memDefault undef c.1))

/-- Read one byte. -/
def readByte (s : State) (a : Nat) : Byte := spGet s.cells (memDefault s.undef a) a

/-- Write one byte. -/
def writeByte (s : State) (a : Nat) (b : Byte) : State :=
  { s with cells := spSet s.cells (memDefault s.undef a) a b }

/-- Read `n` bytes from `a`, ascending. -/
def readBytes (s : State) (a : Nat) : Nat → List Byte
  | 0 => []
  | n + 1 => readByte s a :: readBytes s (a + 1) n

/-- Write bytes from `a`, ascending. -/
def writeBytes (s : State) (a : Nat) : List Byte → State
  | [] => s
  | b :: bs => writeBytes (writeByte s a b) (a + 1) bs

/-- Read a little-endian 64-bit word. -/
def readWord (s : State) (a : Nat) : Word := BitVec.ofNat 64 (leNat (readBytes s a 8))

/-- Write a little-endian 64-bit word. -/
def writeWord (s : State) (a : Nat) (w : Word) : State := writeBytes s a (leBytes 8 w.toNat)

/-- The listed cells outside `[lo, hi)`. -/
def cellsOutside (lo hi : Nat) (cells : List Host.Cell) : List Host.Cell :=
  cells.filter (fun c => decide (c.1 < lo) || decide (hi ≤ c.1))

/-- Make the content of `[lo, hi)` undefined: every byte of it becomes a free value. -/
def undefine (s : State) (lo hi : Nat) : State :=
  { s with
    cells := cellsOutside lo hi s.cells
    undef := (lo, hi, s.fresh) :: s.undef
    fresh := s.fresh + 1 }

/-! ### The register file -/

/-- Device global address of byte `off` of a tile (Table 9.2). -/
def tileAddr (t off : Nat) : Nat := (t / 144) * 2 ^ 31 + (t % 144) * 2 ^ 23 + off

/-- Device global address of byte `off` of a compute die's die block (Table 9.2, tile index 0xFF). -/
def dieBlockAddr (d off : Nat) : Nat := d * 2 ^ 31 + 255 * 2 ^ 23 + off

/-- Device global address of byte `off` of station die Sn (Table 9.2). -/
def stationAddr (n off : Nat) : Nat := 2 ^ 52 + (40 + n) * 2 ^ 31 + off

/-- Device global address of a host address through port n (Table 9.2). -/
def hostAddr (n a : Nat) : Nat := (8 + n) * 2 ^ 52 + a % 2 ^ 52

/-- Key of a tile register by its offset from 0x7F_0000 (Table 2.4). -/
def tileReg (t off : Nat) : Nat := tileAddr t (0x7F0000 + off)

/-- The cluster of a tile index (R21). -/
def clusterOf (i : Nat) : Nat := (i / 12 / 3) * 4 + (i % 12) / 3

/-- The place of a tile inside its cluster: (ty mod 3) × 3 + (tx mod 3). -/
def inCluster (i : Nat) : Nat := (i / 12 % 3) * 3 + i % 12 % 3

/-- The tile index of cluster tile `k` of cluster `c`. -/
def clusterTile (c k : Nat) : Nat := (c / 4 * 3 + k / 3) * 12 + c % 4 * 3 + k % 3

/-- Key of a cluster register: every tile of the cluster reaches the one copy (R72). -/
def clusterReg (d c off : Nat) : Nat := tileAddr (d * 144 + clusterTile c 0) (0x7F8000 + off)

/-- Key of a register of a die's blocks by block offset, compute die or station die (Table 9.3). -/
def dieReg (d off : Nat) : Nat := if d < 40 then dieBlockAddr d off else stationAddr (d - 40) off

/-- Key of an NCB register. -/
def ncbReg (d off : Nat) : Nat := dieReg d (0x1000 + off)
/-- Key of a die health register. -/
def healthReg (d off : Nat) : Nat := dieReg d (0x10000 + off)
/-- Key of a die power register. -/
def powerReg (d off : Nat) : Nat := dieReg d (0x20000 + off)
/-- Key of a TEB register. -/
def tebReg (d off : Nat) : Nat := dieBlockAddr d off
/-- Key of a PSB register. -/
def psbReg (n off : Nat) : Nat := stationAddr n off
/-- Key of a register of partition p's block in the PSB. -/
def psbPart (n p off : Nat) : Nat := psbReg n (0x100 + 0x40 * p + off)
/-- Key of a register that S0 holds and S4 mirrors: module power, MOD_STATE, Reedline (R287, R310, R328). -/
def s0Power (off : Nat) : Nat := powerReg 40 off
/-- Key of a register of S0's health block that S4 mirrors. -/
def s0Health (off : Nat) : Nat := healthReg 40 off
/-- Key of a port or queue register by BAR0 offset. BAR0 has keys of its own in the reserved space 0x3 (Table 9.2). -/
def portReg (n off : Nat) : Nat := 3 * 2 ^ 52 + n * 2 ^ 32 + off
/-- Key of a module or partition register by its offset from BAR0 0x1_0000: one copy for every port (R260). -/
def moduleReg (off : Nat) : Nat := portReg 0 (0x10000 + off)
/-- Key of a register of partition p's block (Table 9.12). -/
def partReg (p off : Nat) : Nat := moduleReg (0x100 + 0x20 * p + off)

/-- The fields of the register at a key, by the block the key lies in. -/
def keyFields (key : Nat) : List RegField :=
  let sp := key / 2 ^ 52
  if sp = 0 then
    let off := key % 2 ^ 23
    if key / 2 ^ 23 % 256 = 255 then
      if off < 0x100 then fieldsAt tebRegs off
      else if 0x1000 ≤ off ∧ off < 0x1200 then fieldsAt ncbRegs (off - 0x1000)
      else if 0x10000 ≤ off ∧ off < 0x20000 then fieldsAt healthRegs (off - 0x10000)
      else if 0x20000 ≤ off ∧ off < 0x30000 then fieldsAt powerRegs (off - 0x20000)
      else []
    else if 0x7F8000 ≤ off then fieldsAt clusterRegs (off - 0x7F8000)
    else if 0x7F0000 ≤ off then fieldsAt tileRegs (off - 0x7F0000)
    else []
  else if sp = 1 then
    let off := key % 2 ^ 31
    let n := key / 2 ^ 31 % 64 - 40
    if off < 0x400 then fieldsAt psbRegs off
    else if 0x1000 ≤ off ∧ off < 0x1200 then fieldsAt ncbRegs (off - 0x1000)
    else if 0x10000 ≤ off ∧ off < 0x20000 then
      match fieldsAt healthRegs (off - 0x10000) with
      | [] => if n = 0 then fieldsAt s0Regs (off - 0x10000) else []
      | fs => fs
    else if 0x20000 ≤ off ∧ off < 0x30000 then
      match fieldsAt powerRegs (off - 0x20000) with
      | [] => if n = 0 then fieldsAt modulePowerRegs (off - 0x20000) else []
      | fs => fs
    else []
  else if sp = 3 then
    let off := key % 2 ^ 32
    if 0x10000 ≤ off ∧ off < 0x10200 then fieldsAt moduleRegs (off - 0x10000) else fieldsAt portRegs off
  else []

/-- What a register reads as that nothing has changed since reset. -/
def regReset (key : Nat) : Word := fieldsReset (keyFields key)

/-- The stored word of a register. -/
def rd (s : State) (key : Nat) : Word := spGet s.regs (regReset key) key

/-- Store a register's word. -/
def wr (s : State) (key : Nat) (w : Word) : State := { s with regs := spSet s.regs (regReset key) key w }

/-! ### Events and counts within a UCLK cycle (R13, R14, R71) -/

/-- The UCLK cycle under way (Table 10.3: VCO ÷ 32). -/
def uclk (s : State) : Nat := s.vco / 32

/-- What has happened in the UCLK cycle under way: nothing where the record is of an earlier one. -/
def State.ticks (s : State) : Tick := if s.tick.cycle = uclk s then s.tick else ⟨uclk s, [], [], [], none, none, []⟩

/-- Note the word a register had before the cycle's first increment (R14). -/
def noteCount (s : State) (key : Nat) : State :=
  { s with tick := { s.ticks with before := spPut s.ticks.before key (spGet s.ticks.before (rd s key) key) } }

/-- Note that an event sets bits of a register in this cycle (R13). -/
def noteEvent (s : State) (key : Nat) (mask : Word) : State :=
  { s with tick := { s.ticks with rose := spPut s.ticks.rose key (spGet s.ticks.rose 0 key ||| mask) } }

/-- A tick without what it holds of some registers, which a reset has cleared. -/
def Tick.without (k : Tick) (f : Nat → Bool) : Tick :=
  { k with
    before := k.before.filter (fun p => !(f p.1))
    rose := k.rose.filter (fun p => !(f p.1))
    raised := k.raised.filter (fun p => !(f p.1)) }

/-- The bits of a register that events have set in this cycle (R13). -/
def roseNow (s : State) (key : Nat) : Word := spGet s.ticks.rose 0 key

/-- Field `[hi:lo]` of a stored register. -/
def fld (s : State) (key hi lo : Nat) : Nat := bits (rd s key) hi lo

/-- Store a field of a register. -/
def setFld (s : State) (key hi lo v : Nat) : State := wr s key (putBits (rd s key) hi lo v)

/-- An event sets one bit of a register. -/
def setBit (s : State) (key i : Nat) : State := setFld (noteEvent s key (BitVec.ofNat 64 (2 ^ i))) key i i 1

/-- Add to a counter field, wrapping at its width. -/
def addFld (s : State) (key hi lo n : Nat) : State := setFld (noteCount s key) key hi lo (fld s key hi lo + n)

/-- Add to a counter field, saturating at its largest value. -/
def satFld (s : State) (key hi lo n : Nat) : State :=
  setFld (noteCount s key) key hi lo (min (fld s key hi lo + n) (2 ^ (hi + 1 - lo) - 1))

/-! ### Tiles and contexts -/

/-- A tile's state. -/
def tileOf (s : State) (t : Nat) : Tile := spGet s.tiles Tile.reset t

/-- Replace a tile's state. -/
def setTile (s : State) (t : Nat) (x : Tile) : State := { s with tiles := spSet s.tiles Tile.reset t x }

/-- Change a tile's state. -/
def updTile (s : State) (t : Nat) (f : Tile → Tile) : State := setTile s t (f (tileOf s t))

/-- A tile leaves T1: an NI counter changes, an invocation starts, an epoch applies, a register is accessed (Table 11.6). -/
def wakeT1 (s : State) (t : Nat) : State := if (tileOf s t).t1 then updTile s t (fun x => { x with t1 := false }) else s

/-- A context of a tile. -/
def Tile.ctxOf (x : Tile) (c : CtxId) : Ctx := spGet x.ctx Ctx.reset c.val

/-- Replace a context of a tile. -/
def Tile.setCtx (x : Tile) (c : CtxId) (y : Ctx) : Tile := { x with ctx := spSet x.ctx Ctx.reset c.val y }

/-- Change a context. -/
def updCtx (s : State) (t : Nat) (c : CtxId) (f : Ctx → Ctx) : State :=
  updTile s t (fun x => x.setCtx c (f (x.ctxOf c)))

/-- The selected context of a tile. -/
def selCtx (s : State) (t : Nat) : Ctx := (tileOf s t).ctxOf (tileOf s t).sel

/-- The state code of Table 2.1. -/
def CtxState.code : CtxState → Nat
  | .idle => 0
  | .ready => 1
  | .running => 2
  | .waiting => 3
  | .done => 4
  | .faulted => 5

/-- Whether a tile position is good: neither fused nor fenced in the field (R5, R290). -/
def goodTile (s : State) (t : Nat) : Bool := !(s.m.fuses.fused.contains t) && !(s.m.fencedTiles.contains t)

/-- Whether the CCLK of a tile runs: not after a power-loss trip (R282) nor while its die is too hot (Table 13.10). -/
def clockOn (s : State) (t : Nat) : Bool := !s.m.power.pwrfail && decide ((dieOf s (t / 144)).thermGear ≠ 5)

/-- Whether a tile may start work: neither its own scope nor its die's is closing (R295), and its clock runs. -/
def scopeOpen (s : State) (t : Nat) : Bool :=
  decide ((tileOf s t).scope = .openScope ∧ (dieOf s (t / 144)).scope = .openScope) && clockOn s t

/-- The partition that holds a compute die, by the shapes of PARTp_CFG (R28, Table 9.12). -/
def partHolds (s : State) (p d : Nat) : Bool :=
  let k := partReg p 0
  decide (fld s k 0 0 = 1 ∧ d < 40 ∧ fld s k 4 2 ≤ d % 8 ∧ d % 8 ≤ fld s k 7 5 ∧ fld s k 10 8 ≤ d / 8 ∧ d / 8 ≤ fld s k 13 11)

/-- The partition of a compute die, if any. -/
def partOfDie (s : State) (d : Nat) : Option Nat := (List.range 8).find? (fun p => partHolds s p d)

/-- The partition of a tile, 0 where it has none. -/
def partNum (s : State) (t : Nat) : Nat := (partOfDie s (t / 144)).getD 0

/-- A partition's state beside its registers. -/
def partOf (s : State) (p : Nat) : Partition := spGet s.m.parts Partition.reset p

/-- Change the module's own state. -/
def updM (s : State) (f : Module → Module) : State := { s with m := f s.m }

/-- The station die of the signal box (R23). -/
def boxStation (s : State) : Nat := if s.m.sboxS4 then 4 else 0

/-- The die of the signal box. -/
def boxDie (s : State) : Nat := 40 + boxStation s

/-- Change a partition. -/
def updPart (s : State) (p : Nat) (f : Partition → Partition) : State :=
  updM s (fun m => { m with parts := spSet m.parts Partition.reset p (f (spGet m.parts Partition.reset p)) })

/-- A port's state. -/
def portOf (s : State) (n : Nat) : Port := spGet s.ports Port.reset n

/-- Change a port. -/
def updPort (s : State) (n : Nat) (f : Port → Port) : State :=
  { s with ports := spSet s.ports Port.reset n (f (portOf s n)) }

/-- A station die's state. -/
def stationOf (s : State) (n : Nat) : Station := spGet s.stations Station.reset n

/-- Change a station die. -/
def updStation (s : State) (n : Nat) (f : Station → Station) : State :=
  { s with stations := spSet s.stations Station.reset n (f (stationOf s n)) }

/-- Apply an operation for each element of a list in order. -/
def forEach {α : Type} (l : List α) (s : State) (f : State → α → State) : State := l.foldl f s

/-! ### Events to the hosts -/

/-- The ports bound to a partition (R28, PARTp_CFG.PORTS). -/
def boundPorts (s : State) (p : Nat) : List Nat :=
  (List.range 8).filter (fun n => (fld s (partReg p 0) 21 14).testBit n)

/-- Queue an event record on a port, or count it as lost (R244). -/
def queueEvent (s : State) (n : Nat) (rec : Word) : State :=
  if (portOf s n).events.length < 64 then updPort s n (fun x => { x with events := x.events ++ [rec] })
  else updPort s n (fun x => { x with lost := x.lost + 1 })

/-- The RESULT of an event record (R244). -/
def eventRecord (code part detail : Nat) : Word := BitVec.ofNat 64 (code + part * 2 ^ 16 + detail % 2 ^ 32 * 2 ^ 32)

/-- The next event that a port delivers: EVENTS_LOST with the count where some were dropped, else the oldest queued; and the port without it. -/
def Port.takeEvent (x : Port) : Option (Word × Port) :=
  if x.lost ≠ 0 then some (eventRecord 0x0B 0 x.lost, { x with lost := 0 })
  else match x.events with
    | [] => none
    | e :: es => some (e, { x with events := es })

/-- A pending EVENT_WAIT takes the next event of its port (R244): its completion carries the record. -/
def serveWaits (s : State) (n : Nat) : State :=
  match (portOf s n).waiting, (portOf s n).takeEvent with
  | c :: cs, some (e, x) =>
    updPort s n (fun _ => { x with waiting := cs, done := x.done ++ [⟨c.q, BitVec.ofNat 16 (bits c.w0 31 16), 0, 0, e⟩] })
  | _, _ => s

/-- Deliver a partition's event to every port bound to it (R244). -/
def partEvent (s : State) (p code detail : Nat) : State :=
  forEach (boundPorts s p) s (fun s n => serveWaits (queueEvent s n (eventRecord code p detail)) n)

/-- Deliver a module event to every port (R244): code 0x0A, the chapter's code in [7:0] and its value above (R340). -/
def moduleEvent (s : State) (code value : Nat) : State :=
  forEach (List.range 8) s (fun s n => serveWaits (queueEvent s n (eventRecord 0x0A 0 (code + value * 256))) n)

/-- Replace the last element that satisfies a condition; `none` where none does. -/
def replaceLast {α : Type} (p : α → Bool) (f : α → α) : List α → Option (List α)
  | [] => none
  | a :: l => match replaceLast p f l with
    | some l' => some (a :: l')
    | none => if p a then some (f a :: l) else none

/-- A tile's event record of this UCLK cycle carries the bits as they now stand: in the port's event queue, or in the completion that took it
and has not been written (Table 2.6). Where it has left the port, the bits are a record of their own. -/
def mergeEvent (s : State) (n : Nat) (rec : Word) : State :=
  let same (w : Word) : Bool := decide (w.toNat % 2 ^ 45 = rec.toNat % 2 ^ 45)
  let x := portOf s n
  match replaceLast same (fun _ => rec) x.events with
  | some l => updPort s n (fun x => { x with events := l })
  | none => match replaceLast (fun c => same c.result) (fun c => { c with result := rec }) x.done with
    | some l => updPort s n (fun x => { x with done := l })
    | none => serveWaits (queueEvent s n rec) n

/-- Forward TILE_EVENT as it stands to the owning host; the bits of one UCLK cycle are one event (Table 2.6). -/
def forwardEvent (s : State) (t : Nat) : State :=
  match partOfDie s (t / 144) with
  | none => s
  | some p =>
    let detail := t + fld s (tileReg t 8) 9 0 * 2 ^ 13
    if s.ticks.sent.contains t then forEach (boundPorts s p) s (fun s n => mergeEvent s n (eventRecord 0x03 p detail))
    else partEvent { s with tick := { s.ticks with sent := t :: s.ticks.sent } } p 0x03 detail

/-- Set bits of TILE_EVENT and forward them to the owning host when a bit whose mask bit is 1 changes from 0 to 1 (Table 2.6). -/
def tileEvent (s : State) (t : Nat) (mask : Nat) : State :=
  let k := tileReg t 8
  let old := fld s k 9 0
  let new := old ||| mask
  let s' := setFld (noteEvent s k (BitVec.ofNat 64 mask)) k 9 0 new
  if (new ^^^ old) &&& fld s (tileReg t 0x10) 9 0 = 0 then s' else forwardEvent s' t

end Sys2Proof.Machine
end

