-- ==== Sys2Proof/Machine/Crypto.lean ====
section
/-!
DEFINITION. The checksums and hashes that the spec names: CRC-32, SHA-256 and HMAC-SHA-256 (R223, R254, R290, R316, R326).

The spec gives CRC-32 no polynomial; the model takes the one of IEEE 802.3, reflected, with initial value and final XOR of all ones (log 13).

What the spec leaves open here: log entry 13.
-/

namespace Sys2Proof.Machine

/-! ### CRC-32 -/

/-- One bit of a CRC-32. -/
def crcBit (c : Lane) : Lane := if c.getLsbD 0 then (c >>> 1) ^^^ (0xEDB88320 : Lane) else c >>> 1

/-- One byte of a CRC-32. -/
def crcByte (c : Lane) (b : Byte) : Lane :=
  crcBit (crcBit (crcBit (crcBit (crcBit (crcBit (crcBit (crcBit (c ^^^ b.setWidth 32))))))))

/-- CRC-32 over bytes. -/
def crc32 (bs : List Byte) : Lane := bs.foldl crcByte 0xFFFFFFFF ^^^ (0xFFFFFFFF : Lane)

/-! ### SHA-256 -/

/-- The largest number below `x + 2 ^ n` whose power `k` is at most `t`, where `x`'s is: a root, bit by bit. -/
def rootBelow (k t : Nat) : Nat → Nat → Nat
  | 0, x => x
  | n + 1, x => if (x + 2 ^ n) ^ k ≤ t then rootBelow k t n (x + 2 ^ n) else rootBelow k t n x

/-- The first 32 bits after the point of the root `k` of `p`: the numbers that SHA-256 takes its constants from. -/
def shaConstant (k p : Nat) : Lane := BitVec.ofNat 32 (rootBelow k (p * 2 ^ (32 * k)) 40 0)

/-- The primes below 312, of which there are 64: no number from 2 to 17 below one divides it. -/
def shaPrimes : List Nat := (List.range 312).filter (fun n => decide (1 < n) && (List.range' 2 16).all (fun d => decide (n ≤ d ∨ n % d ≠ 0)))

/-- The constants of the rounds: cube roots of the primes. -/
def shaK : List Lane := shaPrimes.map (shaConstant 3)

/-- The initial hash value: square roots of the first eight primes. -/
def shaInit : List Lane := (shaPrimes.take 8).map (shaConstant 2)

/-- Rotation to the right. -/
def rotr (x : Lane) (n : Nat) : Lane := (x >>> n) ||| (x <<< (32 - n))

/-- The exclusive or of two rotations of a word and a third word. -/
def twist (x : Lane) (m n : Nat) (y : Lane) : Lane := rotr x m ^^^ rotr x n ^^^ y

/-- The message schedule, newest word first: `n` further words. -/
def shaSchedule : Nat → List Lane → List Lane
  | 0, ws => ws
  | n + 1, ws =>
    let near := ws.getD 1 0
    let far := ws.getD 14 0
    shaSchedule n ((twist near 17 19 (near >>> 10) + ws.getD 6 0 + twist far 7 18 (far >>> 3) + ws.getD 15 0) :: ws)

/-- One round on the eight working words: the last two of the first and of the second four choose and vote beside the first. -/
def shaRound (h : List Lane) (k w : Lane) : List Lane :=
  match h with
  | [p0, p1, p2, p3, q0, q1, q2, q3] =>
    let choose := q2 ^^^ (q0 &&& (q1 ^^^ q2))
    let vote := (p0 &&& p1) ||| (p2 &&& (p0 ||| p1))
    let add := q3 + w + k + twist q0 6 11 (rotr q0 25) + choose
    [add + twist p0 2 13 (rotr p0 22) + vote, p0, p1, p2, p3 + add, q0, q1, q2]
  | _ => h

/-- A big-endian 32-bit word. -/
def beLane (bs : List Byte) : Lane := BitVec.ofNat 32 (bs.foldl (fun n b => n * 256 + b.toNat) 0)

/-- The 32-bit words of bytes, big-endian. -/
def beLanes : Nat → List Byte → List Lane
  | 0, _ => []
  | n + 1, bs => beLane (bs.take 4) :: beLanes n (bs.drop 4)

/-- One 64-byte block. -/
def shaBlock (h : List Lane) (block : List Byte) : List Lane :=
  let ws := (shaSchedule 48 (beLanes 16 block).reverse).reverse
  let r := (List.zip shaK ws).foldl (fun h p => shaRound h p.1 p.2) h
  (List.zip h r).map (fun p => p.1 + p.2)

/-- Blocks of 64 bytes. -/
def shaBlocks : Nat → List Lane → List Byte → List Lane
  | 0, h, _ => h
  | n + 1, h, bs => shaBlocks n (shaBlock h (bs.take 64)) (bs.drop 64)

/-- The `n` big-endian bytes of a number. -/
def beBytes (n v : Nat) : List Byte := (leBytes n v).reverse

/-- SHA-256 of bytes. -/
def sha256 (bs : List Byte) : List Byte :=
  let pad := (119 - bs.length % 64) % 64
  let m := bs ++ ((0x80 : Byte) :: List.replicate pad 0) ++ beBytes 8 (8 * bs.length)
  (shaBlocks (m.length / 64) shaInit m).flatMap (fun w => beBytes 4 w.toNat)

/-- HMAC-SHA-256 under a key of at most 64 bytes. -/
def hmac256 (key msg : List Byte) : List Byte :=
  let k := key ++ List.replicate (64 - key.length) 0
  sha256 (k.map (fun b => b ^^^ 0x5C) ++ sha256 (k.map (fun b => b ^^^ 0x36) ++ msg))

end Sys2Proof.Machine
end

