-- ==== Sys2Proof/Machine/Numeric.lean ====
section
/-!
DEFINITION. Number formats, rounding and conversion (R73 to R93, R99, R137, R139, R344), in exact integer arithmetic.

A finite value is a sign and a magnitude `m × 2^e`. Every operation computes the exact result and rounds it once. Flag sets are
numbers with the bits of Table 3.8.

What the spec leaves open here: log entries 91, 92, 96 and 97.
-/

namespace Sys2Proof.Machine

/-! ### Flags as bit sets (Table 3.8) -/

/-- Invalid operation. -/
def fNV : Nat := 1
/-- Overflow. -/
def fOF : Nat := 2
/-- Underflow. -/
def fUF : Nat := 4
/-- Inexact. -/
def fNX : Nat := 8
/-- Non-finite. -/
def fNF : Nat := 16

/-- The rounding modes (R83). -/
inductive Rnd where
  | rne
  | rtz
  | stoch
deriving DecidableEq, Repr

/-- The mode of a 2-bit RND field; 3 is reserved and is refused before it gets here. -/
def Rnd.ofCode (n : Nat) : Rnd := if n = 0 then .rne else if n = 1 then .rtz else .stoch

/-- The parameters of a floating-point format (Table 3.2). -/
structure FpFmt where
  ebits : Nat
  fbits : Nat
  bias  : Int
  inf   : Bool
deriving DecidableEq, Repr

/-- binary32. -/
def fmt32 : FpFmt := ⟨8, 23, 127, true⟩
/-- BF16. -/
def fmtBF : FpFmt := ⟨8, 7, 127, true⟩
/-- binary16. -/
def fmt16 : FpFmt := ⟨5, 10, 15, true⟩
/-- OCP E4M3, without infinity (R74). -/
def fmtE4 : FpFmt := ⟨4, 3, 7, false⟩
/-- OCP E5M2. -/
def fmtE5 : FpFmt := ⟨5, 2, 15, true⟩

/-- A decoded value (R74). -/
inductive FV where
  | nan
  | inf (neg : Bool)
  | fin (neg : Bool) (m : Nat) (e : Int)
deriving DecidableEq, Repr

/-- The exponent of the last place of a format's subnormals. -/
def FpFmt.emin (f : FpFmt) : Int := 1 - f.bias - f.fbits

/-- The canonical NaN of a format (Table 3.2): exponent all ones and the top fraction bit; E4M3 has all ones. -/
def FpFmt.nanBits (f : FpFmt) : Nat :=
  if f.inf then (2 ^ f.ebits - 1) * 2 ^ f.fbits + 2 ^ (f.fbits - 1) else 2 ^ (f.ebits + f.fbits) - 1

/-- Infinity without its sign. -/
def FpFmt.infBits (f : FpFmt) : Nat := (2 ^ f.ebits - 1) * 2 ^ f.fbits

/-- The largest finite magnitude without its sign (Table 3.2). -/
def FpFmt.maxBits (f : FpFmt) : Nat := if f.inf then f.infBits - 1 else 2 ^ (f.ebits + f.fbits) - 2

/-- The sign bit of a format. -/
def FpFmt.signBit (f : FpFmt) (neg : Bool) : Nat := if neg then 2 ^ (f.ebits + f.fbits) else 0

/-- Decode a bit pattern (R74). -/
def decodeFp (f : FpFmt) (b : Nat) : FV :=
  let neg := b.testBit (f.ebits + f.fbits)
  let ex := b / 2 ^ f.fbits % 2 ^ f.ebits
  let fr := b % 2 ^ f.fbits
  if ex = 0 then .fin neg fr f.emin
  else if f.inf && decide (ex = 2 ^ f.ebits - 1) then (if fr = 0 then .inf neg else .nan)
  else if !f.inf && decide (ex = 2 ^ f.ebits - 1 ∧ fr = 2 ^ f.fbits - 1) then .nan
  else .fin neg (2 ^ f.fbits + fr) (ex - 1 + f.emin)

/-- Whether `m` units of exponent `e`, plus something positive below its last place when `sticky`, rounds up at a last
place of exponent `t` (R83). `draw` is the 16-bit draw of stochastic rounding. -/
def roundsUp (mode : Rnd) (draw : Nat) (q rem sh : Nat) (sticky : Bool) : Bool :=
  match mode with
  | .rtz => false
  | .rne =>
    let half := 2 ^ (sh - 1)
    decide (rem > half) || (decide (rem = half) && (sticky || decide (q % 2 = 1)))
  | .stoch => decide (draw < rem * 65536 / 2 ^ sh)

/-- Round `m × 2^e` to multiples of `2^t`: the multiple and whether it is inexact. -/
def roundAt (mode : Rnd) (draw : Nat) (m : Nat) (e t : Int) (sticky : Bool) : Nat × Bool :=
  if t ≤ e then (m * 2 ^ (e - t).toNat, sticky)
  else
    let sh := (t - e).toNat
    let q := m / 2 ^ sh
    let rem := m % 2 ^ sh
    (if roundsUp mode draw q rem sh sticky then q + 1 else q, decide (rem ≠ 0) || sticky)

/-- A magnitude rounded into a format (R83 to R85): its bits without sign, whether it overflowed, and whether it is tiny and
whether it is inexact. -/
structure Rounded where
  mag      : Nat
  overflow : Bool
  tiny     : Bool
  inexact  : Bool
deriving DecidableEq, Repr

/-- Round a magnitude to a format's grid. The rounded magnitude is compared with the largest finite value (R84) and, after rounding, with
the smallest normal (R85). -/
def roundMag (f : FpFmt) (mode : Rnd) (draw : Nat) (m : Nat) (e : Int) (sticky : Bool) : Rounded :=
  if m = 0 then ⟨0, false, true, sticky⟩
  else
    let t := max ((Nat.log2 m : Int) + e - f.fbits) f.emin
    let r := roundAt mode draw m e t sticky
    let carry := decide (r.1 = 2 ^ (f.fbits + 1))
    let q := if carry then 2 ^ f.fbits else r.1
    let t' := if carry then t + 1 else t
    if q < 2 ^ f.fbits then ⟨q, false, true, r.2⟩
    else
      let mag := (t' - f.emin + 1).toNat * 2 ^ f.fbits + (q - 2 ^ f.fbits)
      ⟨mag, decide (mag > f.maxBits), false, r.2⟩

/-- The flags of an in-range rounding (R85). -/
def inexactFlags (r : Rounded) : Nat := if r.inexact then (if r.tiny then fUF ||| fNX else fNX) else 0

/-- An arithmetic result in FP32 (R81, R137): the rounded value and its flags. Under RNE an overflow gives infinity, under RTZ the largest
finite value (R84). -/
def finish32 (mode : Rnd) (neg : Bool) (m : Nat) (e : Int) (sticky : Bool) : Nat × Nat :=
  let r := roundMag fmt32 mode 0 m e sticky
  let sg := fmt32.signBit neg
  if r.overflow then
    (match mode with
     | .rtz => (sg + fmt32.maxBits, fOF ||| fNX)
     | _ => (sg + fmt32.infBits, fOF ||| fNX ||| fNF))
  else (sg + r.mag, inexactFlags r)

/-- The canonical FP32 NaN (Table 3.2). -/
def nan32 : Nat := 0x7FC00000

/-- Whether a decoded value is an infinity or a NaN. -/
def FV.nonfin : FV → Bool
  | .fin _ _ _ => false
  | _ => true

/-- The NF flag of operands (Table 3.8). -/
def nfOf (vs : List FV) : Nat := if vs.any FV.nonfin then fNF else 0

/-! ### Exact sums -/

/-- A dyadic number `i × 2^e`. -/
structure Dy where
  i : Int
  e : Int
deriving DecidableEq, Repr

/-- The sum of two dyadics. -/
def Dy.add (a b : Dy) : Dy :=
  let e := min a.e b.e
  ⟨a.i * 2 ^ (a.e - e).toNat + b.i * 2 ^ (b.e - e).toNat, e⟩

/-- The product of two dyadics. -/
def Dy.mul (a b : Dy) : Dy := ⟨a.i * b.i, a.e + b.e⟩

/-- A finite value as a dyadic. -/
def dyOf (neg : Bool) (m : Nat) (e : Int) : Dy := ⟨if neg then -(m : Int) else m, e⟩

/-- Round a dyadic to FP32; an exact zero takes the sign given. -/
def Dy.round32 (mode : Rnd) (d : Dy) (zeroNeg : Bool) : Nat × Nat :=
  if d.i = 0 then (fmt32.signBit zeroNeg, 0) else finish32 mode (decide (d.i < 0)) d.i.natAbs d.e false

/-! ### FP32 arithmetic -/

/-- `a × b + c` with one rounding. A NaN operand gives the canonical NaN and NF; 0 × ∞ and ∞ − ∞ give it with NV (R75). Zeros: a sum of like
zeros keeps the sign, any other exact zero is +0 (R74). DESIGN CHOICE (log 96): a NaN addend goes before 0 × ∞, so the two together set NF alone. -/
def fma32 (mode : Rnd) (a b c : Nat) : Nat × Nat :=
  let va := decodeFp fmt32 a
  let vb := decodeFp fmt32 b
  let vc := decodeFp fmt32 c
  match va, vb, vc with
  | .nan, _, _ => (nan32, fNF)
  | _, .nan, _ => (nan32, fNF)
  | _, _, .nan => (nan32, fNF)
  | .fin sa ma ea, .fin sb mb eb, .fin sc mc ec =>
    let sp := sa != sb
    Dy.round32 mode (Dy.add (dyOf sp (ma * mb) (ea + eb)) (dyOf sc mc ec)) (sp && sc && decide (ma * mb = 0 ∧ mc = 0))
  | .fin _ _ _, .fin _ _ _, .inf sc => (fmt32.signBit sc + fmt32.infBits, fNF)
  | _, _, _ =>
    let zeroTimesInf := match va, vb with
      | .inf _, .fin _ m _ => decide (m = 0)
      | .fin _ m _, .inf _ => decide (m = 0)
      | _, _ => false
    let sp := (match va with | .inf x => x | .fin x _ _ => x | .nan => false) != (match vb with | .inf x => x | .fin x _ _ => x | .nan => false)
    if zeroTimesInf then (nan32, fNV ||| fNF)
    else match vc with
      | .inf sc => if sc = sp then (fmt32.signBit sp + fmt32.infBits, fNF) else (nan32, fNV ||| fNF)
      | _ => (fmt32.signBit sp + fmt32.infBits, fNF)

/-- FP32 one. -/
def one32 : Nat := 0x3F800000

/-- The FP32 value with its sign turned, whatever it is (R137, VADD.NEG). -/
def neg32 (a : Nat) : Nat := if a.testBit 31 then a - 2 ^ 31 else a + 2 ^ 31

/-- `a + b`. -/
def add32 (mode : Rnd) (a b : Nat) : Nat × Nat := fma32 mode a one32 b

/-- `a − b`; a NaN operand is tested before the sign is turned, so the result is the same. -/
def sub32 (mode : Rnd) (a b : Nat) : Nat × Nat := add32 mode a (neg32 b)

/-- `a × b`. -/
def mul32 (mode : Rnd) (a b : Nat) : Nat × Nat :=
  match decodeFp fmt32 a, decodeFp fmt32 b with
  | .fin sa ma ea, .fin sb mb eb =>
    if ma * mb = 0 then (fmt32.signBit (sa != sb), 0) else finish32 mode (sa != sb) (ma * mb) (ea + eb) false
  | _, _ => fma32 mode a b 0

/-- Order of two FP32 patterns with +0 above −0 (R137): a key that rises with the value. -/
def orderKey (a : Nat) : Int := if a.testBit 31 then -((a - 2 ^ 31 : Nat) : Int) - 1 else a

/-- VADD.MAX and VADD.MIN (R137). -/
def maxmin32 (isMax : Bool) (a b : Nat) : Nat × Nat :=
  let va := decodeFp fmt32 a
  let vb := decodeFp fmt32 b
  if va = .nan ∨ vb = .nan then (nan32, fNF)
  else ((if (orderKey a ≤ orderKey b) = (isMax = true) then b else a), nfOf [va, vb])

/-- The comparisons of VADD.CMPEQ, .CMPLT and .CMPLE (R137): −0 equals +0, a NaN gives 0 and NF. -/
inductive Cmp where
  | eq
  | lt
  | le
deriving DecidableEq, Repr

/-- One lane of a compare. -/
def cmp32 (c : Cmp) (a b : Nat) : Bool × Nat :=
  if decodeFp fmt32 a = .nan ∨ decodeFp fmt32 b = .nan then (false, fNF)
  else
    let z (x : Nat) : Int := if x % 2 ^ 31 = 0 then 0 else orderKey x
    (match c with
     | .eq => decide (z a = z b)
     | .lt => decide (z a < z b)
     | .le => decide (z a ≤ z b), 0)

/-- 1/a (R137). -/
def rcp32 (mode : Rnd) (a : Nat) : Nat × Nat :=
  match decodeFp fmt32 a with
  | .nan => (nan32, fNF)
  | .inf n => (fmt32.signBit n, fNF)
  | .fin n m e =>
    if m = 0 then (fmt32.signBit n + fmt32.infBits, fNF)
    else
      let k := Nat.log2 m + 32
      finish32 mode n (2 ^ k / m) (-(k : Int) - e) (decide (2 ^ k % m ≠ 0))

/-- 1/√a (R137). -/
def rsq32 (mode : Rnd) (a : Nat) : Nat × Nat :=
  match decodeFp fmt32 a with
  | .nan => (nan32, fNF)
  | .inf n => if n then (nan32, fNV ||| fNF) else (0, fNF)
  | .fin n m e =>
    if m = 0 then (fmt32.signBit n + fmt32.infBits, fNF)
    else if n then (nan32, fNV ||| fNF)
    else
      let m' := if e % 2 = 0 then m else 2 * m
      let e' := if e % 2 = 0 then e else e - 1
      let j := 32 + Nat.log2 m'
      let q := Nat.sqrt (2 ^ (2 * j) / m')
      finish32 mode false q (-(j : Int) - e' / 2) (decide (q * q * m' ≠ 2 ^ (2 * j)))

/-- The largest `q` of 31 bits, built bit by bit from `i` down, with `q ^ (2^b) ≤ 2 ^ a`. -/
def rootBits (a b : Nat) : Nat → Nat → Nat
  | 0, q => q
  | i + 1, q =>
    let q' := q + 2 ^ i
    rootBits a b i (if q' ^ (2 ^ b) ≤ 2 ^ a then q' else q)

/-- 2^a (R137): for a fraction `f / 2^b` in lowest place, 2^30 times 2^(f/2^b) to its integer part, with what is below it sticky (a power of
two with a fractional exponent is irrational). -/
def exp232 (mode : Rnd) (a : Nat) : Nat × Nat :=
  match decodeFp fmt32 a with
  | .nan => (nan32, fNF)
  | .inf n => if n then (0, fNF) else (fmt32.infBits, fNF)
  | .fin n m e =>
    if m = 0 then (one32, 0)
    else
      let x := dyOf n m e
      if 0 ≤ e then
        let p := x.i * 2 ^ e.toNat
        if 1000 < p then finish32 mode false 1 1000 false
        else if p < -1000 then finish32 mode false 1 (-1000) false
        else finish32 mode false 1 p false
      else
        let b := (-e).toNat
        let ip := x.i / (2 ^ b : Nat)
        let fp := (x.i % (2 ^ b : Nat)).toNat
        if 1000 < ip then finish32 mode false 1 1000 false
        else if ip < -1000 then finish32 mode false 1 (-1000) true
        else if fp = 0 then finish32 mode false 1 ip false
        else finish32 mode false (rootBits (fp + 30 * 2 ^ b) b 31 0) (ip - 30) true

/-- log₂ a (R137). For a magnitude that is no power of two the logarithm is irrational: 2^60 times it lies strictly between an
integer and the next. -/
def log232 (mode : Rnd) (a : Nat) : Nat × Nat :=
  match decodeFp fmt32 a with
  | .nan => (nan32, fNF)
  | .inf n => if n then (nan32, fNV ||| fNF) else (fmt32.infBits, fNF)
  | .fin n m e =>
    if m = 0 then (fmt32.signBit true + fmt32.infBits, fNF)
    else if n then (nan32, fNV ||| fNF)
    else if m = 2 ^ Nat.log2 m then Dy.round32 mode ⟨(Nat.log2 m : Int) + e, 0⟩ false
    else
      let q : Int := (Nat.log2 (m ^ 2 ^ 60) : Int) + e * 2 ^ 60
      if 0 ≤ q then finish32 mode false q.toNat (-60) true
      else finish32 mode true (-q - 1).toNat (-60) true

/-! ### CP32 sequences (R92, R93) -/

/-- A pair result with its flags. -/
structure Pair where
  hi : Nat
  lo : Nat
  fl : Nat
deriving DecidableEq, Repr

/-- RNE addition keeping the flags of both steps. -/
def addF (a b : Nat) (fl : Nat) : Nat × Nat :=
  let r := add32 .rne a b
  (r.1, r.2 ||| fl)

/-- Whether an FP32 pattern is an infinity or NaN. -/
def nonfin32 (a : Nat) : Bool := (decodeFp fmt32 a).nonfin

/-- R93: with a non-finite input, or hi overflowed, the pair is (hi, +0) and NF is set; `plain` is the plain FP32 result. -/
def guardPair (inputs : List Nat) (plain : Nat × Nat) (seq : Pair) : Pair :=
  if inputs.any nonfin32 || nonfin32 plain.1 then ⟨plain.1, 0, plain.2 ||| fNF⟩ else seq

/-- The sequence of vtwosum (R92). -/
def twosumSeq (a b : Nat) : Pair :=
  let s := addF a b 0
  let bb := addF s.1 (neg32 a) s.2
  let t := addF s.1 (neg32 bb.1) bb.2
  let u := addF a (neg32 t.1) t.2
  let v := addF b (neg32 bb.1) u.2
  let e := addF u.1 v.1 v.2
  ⟨s.1, e.1, e.2⟩

/-- The sequence of vftwosum (R92). -/
def ftwosumSeq (a b : Nat) : Pair :=
  let s := addF a b 0
  let t := addF s.1 (neg32 a) s.2
  let e := addF b (neg32 t.1) t.2
  ⟨s.1, e.1, e.2⟩

/-- VTWOSUM on one lane (R92, R93). -/
def twosum32 (a b : Nat) : Pair := guardPair [a, b] (add32 .rne a b) (twosumSeq a b)

/-- VFTWOSUM on one lane. -/
def ftwosum32 (a b : Nat) : Pair := guardPair [a, b] (add32 .rne a b) (ftwosumSeq a b)

/-- VTWOPROD on one lane. -/
def twoprod32 (a b : Nat) : Pair :=
  let p := mul32 .rne a b
  let e := fma32 .rne a b (neg32 p.1)
  guardPair [a, b] p ⟨p.1, e.1, p.2 ||| e.2⟩

/-- VCPADD on one pair of pairs, the combination that VRED.CPSUM, the points reducers and the signal network use (R92, R93, R172). -/
def cpadd32 (xh xl yh yl : Nat) : Pair :=
  let h := add32 .rne xh yh
  let l := add32 .rne xl yl
  let plain := add32 .rne h.1 l.1
  let t := twosumSeq xh yh
  let e := addF t.lo l.1 (t.fl ||| l.2)
  let r := ftwosumSeq t.hi e.1
  guardPair [xh, xl, yh, yl] (plain.1, plain.2 ||| h.2 ||| l.2) ⟨r.hi, r.lo, r.fl ||| e.2⟩

/-! ### Conversion (R82 to R85, R344, Table 3.7) -/

/-- The six plain formats (Table 3.6). -/
inductive Plain where
  | bf16
  | fp16
  | fp32
  | e4m3
  | e5m2
  | int8
deriving DecidableEq, Repr

/-- The plain format of a code (Table 3.1). -/
def Plain.ofCode : Nat → Option Plain
  | 0 => some .bf16
  | 1 => some .fp16
  | 2 => some .fp32
  | 3 => some .e4m3
  | 4 => some .e5m2
  | 5 => some .int8
  | _ => none

/-- Element width in bits (Table 3.1). -/
def Plain.width : Plain → Nat
  | .bf16 => 16
  | .fp16 => 16
  | .fp32 => 32
  | .e4m3 => 8
  | .e5m2 => 8
  | .int8 => 8

/-- The floating-point parameters of a plain format; INT8 has none. -/
def Plain.fmt? : Plain → Option FpFmt
  | .bf16 => some fmtBF
  | .fp16 => some fmt16
  | .fp32 => some fmt32
  | .e4m3 => some fmtE4
  | .e5m2 => some fmtE5
  | .int8 => none

/-- The exact value of an element. -/
def Plain.decode (p : Plain) (b : Nat) : FV :=
  match p.fmt? with
  | some f => decodeFp f b
  | none => if b % 256 < 128 then .fin false (b % 256) 0 else .fin true (256 - b % 256) 0

/-- An infinity converted to a floating-point format (Table 3.7). -/
def convInf (p : Plain) (sat : Bool) (neg : Bool) : Nat × Nat :=
  match p, p.fmt? with
  | .e4m3, some f => if sat then (f.signBit neg + f.maxBits, fNF) else (f.nanBits, fNV ||| fNF)
  | .e5m2, some f => if sat then (f.signBit neg + f.maxBits, fNF) else (f.signBit neg + f.infBits, fNF)
  | _, some f => (f.signBit neg + f.infBits, fNF)
  | _, none => if sat then (if neg then 0x80 else 0x7F, fNF) else (0x80, fNV ||| fNF)

/-- A finite overflow (Table 3.7): under RTZ, or with SAT, the largest finite value; else infinity, or NaN in E4M3. -/
def convOverflow (p : Plain) (mode : Rnd) (sat : Bool) (neg : Bool) : Nat × Nat :=
  match p, p.fmt? with
  | _, none => if sat then (if neg then 0x80 else 0x7F, fOF ||| fNX) else (0x80, fNV)
  | .e4m3, some f =>
    if sat || decide (mode = .rtz) then (f.signBit neg + f.maxBits, fOF ||| fNX) else (f.nanBits, fOF ||| fNX ||| fNF)
  | _, some f =>
    if sat || decide (mode = .rtz) then (f.signBit neg + f.maxBits, fOF ||| fNX)
    else (f.signBit neg + f.infBits, fOF ||| fNX ||| fNF)

/-- Convert a value to a plain format (R83 to R85, Table 3.7): the element and its flags. -/
def convPlain (p : Plain) (mode : Rnd) (sat : Bool) (draw : Nat) : FV → Nat × Nat
  | .nan => match p.fmt? with
    | some f => (f.nanBits, fNF)
    | none => (0, fNV ||| fNF)
  | .inf neg => convInf p sat neg
  | .fin neg m e => match p.fmt? with
    | some f =>
      let r := roundMag f mode draw m e false
      if r.overflow then convOverflow p mode sat neg else (f.signBit neg + r.mag, inexactFlags r)
    | none =>
      let r := roundAt mode draw m e 0 false
      if (if neg then 128 else 127) < r.1 then convOverflow p mode sat neg
      else ((if neg then (256 - r.1) % 256 else r.1), if r.2 then fNX else 0)

/-- A CP32 value to FP32 (R83, R139): the exact hi + lo, rounded once under the entry's mode and saturation (Table 3.7). A zero sum and a
non-finite pair come out as the FP32 addition gives them, an infinity then under Table 3.7. -/
def cpTo32 (mode : Rnd) (sat : Bool) (draw hi lo : Nat) : Nat × Nat :=
  let plain := add32 .rne hi lo
  match decodeFp fmt32 hi, decodeFp fmt32 lo with
  | .fin _ m e, .fin _ n f =>
    let d := Dy.add (dyOf (hi.testBit 31) m e) (dyOf (lo.testBit 31) n f)
    if d.i = 0 then plain else convPlain .fp32 mode sat draw (.fin (decide (d.i < 0)) d.i.natAbs d.e)
  | _, _ =>
    let r := convPlain .fp32 mode sat draw (decodeFp fmt32 plain.1)
    (r.1, r.2 ||| plain.2)

/-! ### Weight formats (R77 to R79, R344) -/

/-- W1, W2T and W2Q. -/
inductive WFmt where
  | w1
  | w2t
  | w2q
deriving DecidableEq, Repr

/-- The weight format of a code (Table 3.1). -/
def WFmt.ofCode : Nat → Option WFmt
  | 6 => some .w1
  | 7 => some .w2t
  | 8 => some .w2q
  | _ => none

/-- Bits per weight. -/
def WFmt.bits : WFmt → Nat
  | .w1 => 1
  | _ => 2

/-- Bytes of one 64-weight group. -/
def WFmt.group : WFmt → Nat
  | .w1 => 8
  | _ => 16

/-- Twice the level of a code (R77, Table 3.4). -/
def WFmt.level2 : WFmt → Nat → Int
  | .w1, 0 => 2
  | .w1, _ => -2
  | .w2t, 1 => 2
  | .w2t, 3 => -2
  | .w2t, _ => 0
  | .w2q, 0 => -3
  | .w2q, 1 => -1
  | .w2q, 2 => 1
  | .w2q, _ => 3

/-- The FP32 value of a weight under its BF16 scale, with the decoding flags of R79; the flag of a W2T code 0b10 is included. -/
def decodeWeight (f : WFmt) (code scale : Nat) : Nat × Nat :=
  let l := f.level2 code
  let bad := if f = .w2t ∧ code = 2 then fNV else 0
  match decodeFp fmtBF scale with
  | .nan => (nan32, fNF ||| bad)
  | .inf n => if l = 0 then (nan32, fNV ||| fNF) else (fmt32.signBit (n != decide (l < 0)) + fmt32.infBits, fNF ||| bad)
  | .fin n m e =>
    let neg := n != decide (l < 0)
    if l = 0 then (fmt32.signBit n, bad)
    else if m = 0 then (fmt32.signBit neg, bad)
    else
      let r := finish32 .rne neg (m * l.natAbs) (e - 1) false
      (r.1, r.2 ||| bad)

/-- The code of a value under a scale of ±0: every level is a zero, so R344 and Table 3.7 leave open which point is the nearest. A zero takes
any code that the format encodes, any other value one of the two end levels. -/
def zeroScaleCode (f : WFmt) (scale : Nat) (neg : Bool) (m : Nat) (e : Int) (zero : Bool) : Nat :=
  let i := match f with | .w1 => 0 | .w2t => 1 | .w2q => 2
  let codes : List Nat :=
    match f with
    | .w1 => [0, 1]
    | .w2t => if zero then [0, 1, 3] else [1, 3]
    | .w2q => if zero then [0, 1, 2, 3] else [0, 3]
  codes.getD (Config.zeroScaleCode i scale neg m e % codes.length) 0

/-- Convert a finite value to the code of a grid point of a weight format with twice-levels `l` times the scale magnitude `s` (R344): choose
between the neighbours nearer to and farther from zero. -/
def convWeight (f : WFmt) (mode : Rnd) (draw : Nat) (scale : Nat) (v : FV) : Nat × Nat :=
  match decodeFp fmtBF scale with
  | .nan => (0, fNV ||| fNF)
  | .inf _ => (0, fNV ||| fNF)
  | .fin sn sm se =>
    -- code of the grid point of sign `neg` and magnitude `k` (in half scales)
    let code (neg : Bool) (k : Nat) : Nat :=
      let n := neg != sn
      match f with
      | .w1 => if n then 1 else 0
      | .w2t => if k = 0 then 0 else if n then 3 else 1
      | .w2q => if k = 3 then (if n then 0 else 3) else (if n then 1 else 2)
    let top := match f with | .w1 => 2 | .w2t => 2 | .w2q => 3
    match v with
    | .nan => (0, fNV ||| fNF)
    | .inf neg => if sm = 0 then (zeroScaleCode f scale neg 0 0 false, fNF) else (code neg top, fNF)
    | .fin neg m e =>
      if sm = 0 then (zeroScaleCode f scale neg m e (decide (m = 0)), if m = 0 then 0 else fNX)
      else
        -- x and the half scale h on one exponent, as naturals
        let c := min e (se - 1)
        let x := m * 2 ^ (e - c).toNat
        let h := sm * 2 ^ (se - 1 - c).toNat
        let low := match f with | .w1 => 2 | .w2t => 0 | .w2q => 1
        if x = top * h then (code neg top, 0)
        else if x = low * h then (code neg low, 0)
        else if top * h < x then (code neg top, fNX)
        else if x < low * h then
          -- no neighbour nearer to zero: between −m and +m with m = low × h
          let mm := low * h
          match mode with
          | .rtz => (code neg low, fNX)
          | .rne => (code neg low, fNX)
          | .stoch => (code (if draw < (x + mm) * 65536 / (2 * mm) then neg else !neg) low, fNX)
        else
          let up := match mode with
            | .rtz => false
            | .rne => decide (2 * x > (low + top) * h)
            | .stoch => decide (draw < (x - low * h) * 65536 / ((top - low) * h))
          (code neg (if up then top else low), fNX)

/-! ### G8 (R87 to R90) -/

/-- The FP32 value of element byte `b` in a block of scale byte `s` (R87). -/
def g8Decode (s b : Nat) : FV :=
  if s = 255 then .nan
  else match decodeFp fmtE4 b with
    | .fin n m e => .fin n m (e + s - 127)
    | v => v

/-- The smallest scale byte from `s` up, in `fuel` steps, for which `m × 2^e × 2^(127 − s)` is at most 448 (R88). -/
def g8Scale (m : Nat) (e : Int) : Nat → Nat → Nat
  | 0, s => s
  | fuel + 1, s =>
    let x := e + 127 - s
    if (if 0 ≤ x then m * 2 ^ x.toNat ≤ 448 else m ≤ 448 * 2 ^ (-x).toNat) then s else g8Scale m e fuel (s + 1)

/-- The larger of two magnitudes. -/
def magMax (a b : Nat × Int) : Nat × Int :=
  let c := min a.2 b.2
  if a.1 * 2 ^ (a.2 - c).toNat < b.1 * 2 ^ (b.2 - c).toNat then b else a

/-- Quantise elements under a scale byte, drawing from the list (R88, R89): the bytes and the flags. -/
def g8Quant (mode : Rnd) (s : Nat) : List FV → List Nat → List Nat × Nat
  | [], _ => ([], 0)
  | v :: vs, ds =>
    let x := match v with
      | .fin n m e => convPlain .e4m3 mode true (ds.headD 0) (.fin n m (e + 127 - s))
      | w => convPlain .e4m3 mode true 0 w
    let r := g8Quant mode s vs (ds.drop 1)
    (x.1 :: r.1, x.2 ||| r.2)

/-- Convert 32 FP32 values to a G8 block (R88): its 33 bytes and the flags. -/
def g8Block (mode : Rnd) (draws : List Nat) (vs : List FV) : List Nat × Nat :=
  if vs.any FV.nonfin then (List.replicate vs.length 0x7F ++ [0xFF], fNF)
  else
    let mx := vs.foldl (fun acc v => match v with | .fin _ m e => magMax acc (m, e) | _ => acc) ((0 : Nat), (0 : Int))
    let s := if mx.1 = 0 then 0 else g8Scale mx.1 mx.2 248 0
    let r := g8Quant mode s vs draws
    (r.1 ++ [s], r.2)

/-- The residual block of a quantised block (R89): residuals under scale s − 4, with RNE. -/
def g8Residual (xs : List FV) (block : List Nat) : List Nat × Nat :=
  let s := block.getD 32 0
  if s = 255 then (List.replicate 32 0x7F ++ [0xFF], fNF)
  else
    let diff (x q : FV) : FV := match x, q with
      | .fin n m e, .fin n' m' e' =>
        let d := Dy.add (dyOf n m e) (dyOf (!n') m' e')
        .fin (decide (d.i < 0)) d.i.natAbs d.e
      | _, _ => .nan
    let rs := (List.zip xs (block.take 32)).map (fun p => diff p.1 (g8Decode s p.2))
    let r := g8Quant .rne (s - 4) rs []
    (r.1 ++ [s - 4], r.2)

/-- A value as an FP32 pattern, RNE. -/
def to32 (v : FV) : Nat × Nat := convPlain .fp32 .rne false 0 v

/-! ### The stochastic generator (R86) -/

/-- One draw: the new state and the upper 16 bits. -/
def rngStep (s : Word) : Word × Nat :=
  let a := s ^^^ (s <<< 13)
  let b := a ^^^ (a >>> 7)
  let c := b ^^^ (b <<< 17)
  (c, c.toNat >>> 48)

/-- `n` draws in order. -/
def rngDraws : Nat → Word → Word × List Nat
  | 0, s => (s, [])
  | n + 1, s =>
    let r := rngStep s
    let rest := rngDraws n r.1
    (rest.1, r.2 :: rest.2)

/-- The start of stream k under a seed (R86). -/
def rngSeed (c seed : Word) : Word := if seed ^^^ c = 0 then c else seed ^^^ c

end Sys2Proof.Machine
end

