-- ==== Sys2Proof/Machine/Desc.lean ====
section
/-!
DEFINITION. Descriptors as their readers take them apart: collective descriptors and their groups (R188, R189, R196, Table 7.3), and the
shunter's (Table 2.3).
-/

namespace Sys2Proof.Machine

/-! ### Collective descriptors (Table 7.3) -/

/-- The fields of a collective descriptor, from its first four words. -/
structure CollDesc where
  reduce   : Bool
  opOk     : Bool
  rtype    : Nat
  plane    : Nat
  standing : Bool
  collId   : Nat
  segu     : Nat
  len      : Nat
  root     : Nat
  group    : Word
  loc      : Nat
  gmap     : Nat
deriving DecidableEq, Repr

/-- Read the fields of a descriptor. -/
def collDesc (w0 w1 w2 w3 : Word) : CollDesc where
  reduce := decide (bits w0 1 0 = 1)
  opOk := decide (bits w0 1 0 ≤ 1)
  rtype := bits w0 4 2
  plane := bits w0 6 5
  standing := bit w0 7
  collId := bits w0 19 8
  segu := bits w0 23 20
  len := bits w0 46 24
  root := bits w1 55 0
  group := w2
  loc := bits w3 22 0
  gmap := bits w3 46 24

/-- The descriptor of a collective operation. -/
def NiOp.desc (o : NiOp) : CollDesc := collDesc o.c0 o.c1 o.c2 o.c3

/-- The plane of a collective (Table 7.3). -/
def CollDesc.line (c : CollDesc) : Plane :=
  if c.plane = 1 then .up else if c.plane = 2 then .down else if c.collId % 2 = 0 then .up else .down

/-- Wafer column and row of a tile (R189). -/
def waferX (t : Nat) : Nat := t / 144 % 8 * 12 + t % 12
/-- The wafer row of a tile. -/
def waferY (t : Nat) : Nat := t / 144 / 8 * 12 + t % 144 / 12

/-- A step field; 0 means 1. -/
def stepOf (v : Nat) : Nat := if v = 0 then 1 else v

/-- Whether a position belongs to a group's lattice (R189). -/
def inGroup (g : Word) (t : Nat) : Bool :=
  let x := waferX t
  let y := waferY t
  decide (bits g 6 0 ≤ x ∧ x ≤ bits g 13 7 ∧ bits g 19 14 ≤ y ∧ y ≤ bits g 25 20
    ∧ (x - bits g 6 0) % stepOf (bits g 29 26) = 0 ∧ (y - bits g 19 14) % stepOf (bits g 33 30) = 0)

/-- Whether a die meets a group's rectangle. -/
def groupMeetsDie (g : Word) (d : Nat) : Bool :=
  decide (bits g 6 0 < d % 8 * 12 + 12 ∧ d % 8 * 12 ≤ bits g 13 7 ∧ bits g 19 14 < d / 8 * 12 + 12 ∧ d / 8 * 12 ≤ bits g 25 20)

/-- The members of a group in ascending global tile ID: the good tiles of the lattice (R189). -/
def members (s : State) (g : Word) : List Nat :=
  ((List.range 40).filter (groupMeetsDie g)).flatMap (fun d =>
    ((List.range 144).map (fun i => d * 144 + i)).filter (fun t => inGroup g t && goodTile s t))

/-- The accumulation length of a reduce (R196). -/
def CollDesc.accLen (c : CollDesc) : Nat := if c.rtype = 1 then 2 * c.len else c.len

/-- The element size of a collective (R190). -/
def CollDesc.elem (c : CollDesc) : Nat := if !c.reduce then 1 else if c.rtype = 1 then 2 else if c.rtype = 2 then 8 else 4

/-- The tile a tile-space DGA names. -/
def dgaTile (a : Nat) : Nat := a / 2 ^ 31 % 64 * 144 + a / 2 ^ 23 % 256

/-- The accumulation bytes of a segment (R196). -/
def CollDesc.segBytes (c : CollDesc) : Nat := 2048 * (if c.segu = 0 then 8 else c.segu)

/-- The root tile of a collective. -/
def CollDesc.rootTile (c : CollDesc) : Nat := dgaTile c.root

/-- Whether a tile is the root. -/
def CollDesc.rootIs (c : CollDesc) (t : Nat) : Bool := decide (c.root / 2 ^ 52 = 0 ∧ dgaTile c.root = t)

/-! ### Shunter descriptors (Table 2.3) -/

/-- The offset of an address in the issuing tile's own tile space. -/
def ownOffset (t a : Nat) : Option Nat := if a / 2 ^ 23 = t / 144 * 256 + t % 144 then some (a % 2 ^ 23) else none

/-- OP. -/
def shOp (e : ShIssue) : Nat := bits e.w0 63 60
/-- SRC. -/
def shSrc (e : ShIssue) : Nat := bits e.w0 55 0
/-- SFMT. -/
def shSfmt (e : ShIssue) : Nat := bits e.w0 59 56
/-- DST. -/
def shDst (e : ShIssue) : Nat := bits e.w1 55 0
/-- DFMT. -/
def shDfmt (e : ShIssue) : Nat := bits e.w1 59 56
/-- RND. -/
def shRnd (e : ShIssue) : Nat := bits e.w1 61 60
/-- SAT. -/
def shSat (e : ShIssue) : Bool := bit e.w1 62
/-- NOMERGE. -/
def shNoMerge (e : ShIssue) : Bool := bit e.w1 63
/-- ROW_LEN. -/
def shLen (e : ShIssue) : Nat := bits e.w2 23 0
/-- ROWS. -/
def shRows (e : ShIssue) : Nat := bits e.w2 39 24
/-- IDX_OFF. -/
def shIdx (e : ShIssue) : Nat := bits e.w2 62 40
/-- PLANE. -/
def shPlane (e : ShIssue) : Nat := bits e.w3 56 55
/-- Whether the descriptor converts. -/
def shConverts (e : ShIssue) : Bool := decide (shSfmt e ≠ shDfmt e)

/-- The pairs that Table 3.6 lists for the shunter: between plain formats, FP32 to G8, G8 to FP32 and BF16. A pair that it does not list is
rejected, one of equal codes too (R64, R82). -/
def shPairOk (a b : Nat) : Bool := decide ((a ≤ 5 ∧ b ≤ 5) ∨ (a = 2 ∧ b = 9) ∨ (a = 9 ∧ (b = 2 ∨ b = 0)))

/-- Source bytes of the smallest whole unit of a conversion, and the destination bytes it makes (R87). -/
def shUnit (e : ShIssue) : Nat × Nat :=
  let a := shSfmt e
  let b := shDfmt e
  if a = b then (1, 1)
  else if a = 9 then (33, 32 * elemBytesOf b)
  else if b = 9 then (128, 33)
  else (elemBytesOf a, elemBytesOf b)
where
  /-- Element bytes of a plain format. -/
  elemBytesOf (f : Nat) : Nat := match Plain.ofCode f with
    | some p => p.width / 8
    | none => 1

/-- Destination bytes of `n` source bytes. -/
def shOut (e : ShIssue) (n : Nat) : Nat := n / (shUnit e).1 * (shUnit e).2

/-- Source bytes of the next chunk (R65): at most 2 KiB and whole units; a packet's payload is at most 2 KiB as well (R152). -/
def chunkLen (e : ShIssue) (srcOwn dstOwn : Bool) (left : Nat) : Nat :=
  let u := shUnit e
  if !srcOwn then min 2048 left
  else min left (u.1 * (if dstOwn then 2048 / u.1 else min (2048 / u.1) (2048 / u.2)))

end Sys2Proof.Machine
end

