-- ==== Sys2Proof/Machine/Flags.lean ====
section
/-!
DEFINITION. The sticky flags of a tile's five engines (R94 to R96, Table 3.9) and the draws of its two stochastic streams (R86).
-/

namespace Sys2Proof.Machine

/-- The engines that keep flags, in the order of Table 3.9 and R146. -/
inductive FlagEngine where
  | te
  | ve
  | shunter
  | pru
  | prd
deriving DecidableEq, Repr

/-- The number of an engine (R146). -/
def FlagEngine.code : FlagEngine → Nat
  | .te => 0
  | .ve => 1
  | .shunter => 2
  | .pru => 3
  | .prd => 4

/-- The engine of a number (R146); 5 is ANY, which no engine is. -/
def FlagEngine.ofCode : Nat → Option FlagEngine
  | 0 => some .te
  | 1 => some .ve
  | 2 => some .shunter
  | 3 => some .pru
  | 4 => some .prd
  | _ => none

/-- Key of an engine's flag register (Table 3.9). -/
def flagReg (t : Nat) (e : FlagEngine) : Nat := tileReg t (0x800 + 8 * e.code)

/-- The flags of an engine. -/
def flagsOf (s : State) (t : Nat) (e : FlagEngine) : Nat := fld s (flagReg t e) 4 0

/-- Note the flags raised at this VCO period (R96). -/
def noteFlags (s : State) (key mask : Nat) : State := { s with tick := { s.ticks with raised := (key, s.vco, mask) :: s.ticks.raised } }

/-- Raise flags: each stays set until software clears it (R94). -/
def raiseFlags (s : State) (t : Nat) (e : FlagEngine) (mask : Nat) : State :=
  if mask % 32 = 0 then s
  else setFld (noteFlags (noteEvent s (flagReg t e) (BitVec.ofNat 64 (mask % 32))) (flagReg t e) (mask % 32)) (flagReg t e) 4 0 (flagsOf s t e ||| mask % 32)

/-- Clear the flags a mask selects (R95). -/
def clearFlags (s : State) (t : Nat) (e : FlagEngine) (mask : Nat) : State :=
  setFld s (flagReg t e) 4 0 (flagsOf s t e &&& (31 - mask % 32))

/-- The OR of the five flag registers, FLAGS_ANY (Table 3.10). -/
def flagsAny (s : State) (t : Nat) : Nat :=
  flagsOf s t .te ||| flagsOf s t .ve ||| flagsOf s t .shunter ||| flagsOf s t .pru ||| flagsOf s t .prd

/-- C_0 and C_1 (R86). -/
def rngConst (sh : Bool) : Word := if sh then 0xD1B54A32D192ED03 else 0x9E3779B97F4A7C15

/-- Key of a stream's state register: stream 0 of the VE or stream 1 of the shunter (Table 3.9). -/
def rngReg (t : Nat) (sh : Bool) : Nat := tileReg t (if sh then 0x858 else 0x850)

/-- Take `n` draws from a stream. -/
def takeDraws (s : State) (t : Nat) (sh : Bool) (n : Nat) : State × List Nat :=
  let r := rngDraws n (rd s (rngReg t sh))
  (wr s (rngReg t sh) r.1, r.2)

/-- Load both streams from RNG_SEED (R86). -/
def loadStreams (s : State) (t : Nat) : State :=
  let seed := rd s (tileReg t 0x840)
  wr (wr s (rngReg t false) (rngSeed (rngConst false) seed)) (rngReg t true) (rngSeed (rngConst true) seed)

end Sys2Proof.Machine
end

