-- ==== Sys2Proof/Machine/Operands.lean ====
section
/-!
DEFINITION. The operand forms of Ramyr instructions (Tables 5.1, 5.2, 5.7 to 5.9) and the registers they name.

What the spec leaves open here: log entries 3 and 6.
-/

namespace Sys2Proof

/-! ### Immediate and extension fields -/

/-- The immediate sign-extended to 64 bits (R132). -/
def IWord.imm (w : IWord) : Word := w.ext.signExtend 64

/-- The immediate as an instruction offset (R133). -/
def IWord.off (w : IWord) : Int := w.ext.toInt

/-- Field `[hi:lo]` of the extension. -/
def IWord.extBits (w : IWord) (hi lo : Nat) : Nat := (w.ext.toNat >>> lo) % 2 ^ (hi + 1 - lo)

/-! ### The vector extension (Table 5.7) -/

/-- PRED. -/
def IWord.pred (w : IWord) : Nat := w.extBits 2 0
/-- BS. -/
def IWord.bs (w : IWord) : Bool := decide (w.extBits 3 3 = 1)
/-- SFMT. -/
def IWord.sfmt (w : IWord) : Nat := w.extBits 7 4
/-- DFMT. -/
def IWord.dfmt (w : IWord) : Nat := w.extBits 11 8
/-- RND. -/
def IWord.rnd (w : IWord) : Nat := w.extBits 13 12
/-- SAT. -/
def IWord.sat (w : IWord) : Bool := decide (w.extBits 14 14 = 1)
/-- SPOS. -/
def IWord.spos (w : IWord) : Nat := w.extBits 19 15
/-- DPOS. -/
def IWord.dpos (w : IWord) : Nat := w.extBits 24 20

/-! ### The network extension (Table 5.9) -/

/-- LC. -/
def IWord.lc (w : IWord) : BitVec 6 := BitVec.ofNat 6 (w.extBits 5 0)
/-- LC_EN. -/
def IWord.lcEn (w : IWord) : Bool := decide (w.extBits 6 6 = 1)
/-- RC. -/
def IWord.rc (w : IWord) : BitVec 6 := BitVec.ofNat 6 (w.extBits 12 7)
/-- RC_EN. -/
def IWord.rcEn (w : IWord) : Bool := decide (w.extBits 13 13 = 1)
/-- PLANE. -/
def IWord.plane (w : IWord) : BitVec 2 := BitVec.ofNat 2 (w.extBits 15 14)

end Sys2Proof

namespace Sys2Proof.Machine

/-! ### Scalar registers, predicates and tensor descriptors -/

/-- Read a scalar register; x0 reads 0 (Table 5.2). -/
def xGet (c : Ctx) (r : BitVec 5) : Word := if r = 0 then 0 else spGet c.x 0 r.toNat

/-- Write a scalar register; a write to x0 is discarded (R124). -/
def xSet (c : Ctx) (r : BitVec 5) (v : Word) : Ctx := if r = 0 then c else { c with x := spSet c.x 0 r.toNat v }

/-- Read a predicate; p0 reads as all ones (Table 5.2). -/
def pGet (c : Ctx) (r : Nat) : Word := if r = 0 then BitVec.allOnes 64 else spGet c.p 0 r

/-- Write a predicate; a write to p0 is discarded (R124). -/
def pSet (c : Ctx) (r : Nat) (v : Word) : Ctx := if r = 0 then c else { c with p := spSet c.p 0 r v }

/-- Read a tensor descriptor (R100). -/
def tdGet (c : Ctx) (r : Nat) : TensorDesc := ⟨spGet c.td 0 (2 * r), spGet c.td 0 (2 * r + 1)⟩

/-- Write a tensor descriptor (R141). -/
def tdSet (c : Ctx) (r : Nat) (d : TensorDesc) : Ctx :=
  { c with td := spSet (spSet c.td 0 (2 * r) d.w0) 0 (2 * r + 1) d.w1 }

/-! ### Vector registers -/

/-- What a lane reads as that nothing has written since the vector registers became undefined (R123, log 3). -/
def laneDefault (undef k : Nat) : Lane := if undef = 0 then 0 else Config.undefLane undef k

/-- Read a lane of a vector register. -/
def vGet (x : Tile) (r lane : Nat) : Lane := spGet x.vreg (laneDefault x.vUndef (r * 64 + lane)) (r * 64 + lane)

/-- Write a lane of a vector register. -/
def vSet (x : Tile) (r lane : Nat) (v : Lane) : Tile :=
  { x with vreg := spSet x.vreg (laneDefault x.vUndef (r * 64 + lane)) (r * 64 + lane) v }

/-- The 64 lanes of a vector register. -/
def vRead (x : Tile) (r : Nat) : List Lane := (List.range 64).map (vGet x r)

/-- Write lanes of a vector register: the listed lane numbers with their values. -/
def vWrite (x : Tile) (r : Nat) (l : List (Nat × Lane)) : Tile := l.foldl (fun x p => vSet x r p.1 p.2) x

/-- Whether a field names a predicate or descriptor with its upper two bits zero (R122). -/
def is3 (r : BitVec 5) : Bool := decide (r.toNat < 8)

/-- Must-be-zero fields of each format (R122, Table 5.1). -/
inductive Form where
  | s
  | i
  | ld
  | st
  | sh
  | br
  | jump
  | v
  | t
  | n
  | x
deriving DecidableEq, Repr

/-- Whether the must-be-zero fields of a format are zero. Reserved EXT bits of V and N are must-be-zero too (log 6). A field the
format names and the instruction does not use is ignored (log 6). -/
def Form.ok (f : Form) (w : IWord) : Bool :=
  match f with
  | .s => decide (w.c = 0 ∧ w.ext = 0)
  | .i => decide (w.b = 0 ∧ w.c = 0)
  | .ld => decide (w.b = 0 ∧ w.c = 0)
  | .st => decide (w.d = 0 ∧ w.c = 0)
  | .sh => decide (w.d = 0 ∧ w.b = 0 ∧ w.c = 0 ∧ w.extBits 31 4 = 0)
  | .br => decide (w.d = 0 ∧ w.c = 0)
  | .jump => decide (w.c = 0)
  | .v => decide (w.extBits 31 25 = 0)
  | .t => decide (w.c = 0)
  | .n => decide (w.d = 0)
  | .x => decide (w.b = 0 ∧ w.c = 0)

/-! ### Tensor descriptor fields (Table 4.1) -/

/-- BASE. -/
def TensorDesc.base (d : TensorDesc) : Nat := bits d.w0 22 0
/-- FMT. -/
def TensorDesc.fmt (d : TensorDesc) : Nat := bits d.w0 26 23
/-- ROWS. -/
def TensorDesc.rows (d : TensorDesc) : Nat := bits d.w0 33 27
/-- COLS. -/
def TensorDesc.cols (d : TensorDesc) : Nat := bits d.w0 40 34
/-- TRANS. -/
def TensorDesc.trans (d : TensorDesc) : Bool := bit d.w0 41
/-- PACKED. -/
def TensorDesc.packed (d : TensorDesc) : Bool := bit d.w0 42
/-- ABM_EN. -/
def TensorDesc.abm (d : TensorDesc) : Bool := bit d.w0 43
/-- STRIDE. -/
def TensorDesc.stride (d : TensorDesc) : Nat := bits d.w1 22 0
/-- AUX. -/
def TensorDesc.aux (d : TensorDesc) : Nat := bits d.w1 45 23

end Sys2Proof.Machine
end

