-- ==== Sys2Proof/Machine/Regs.lean ====
section
/-!
DEFINITION. Reading and writing registers field by field (R12 to R15, R342), and the fields that are computed from other state when a
register is read.

What the spec leaves open here: log entries 2, 7, 30, 108 and 116.
-/

namespace Sys2Proof.Machine

/-! ### Locks (R15, R160, R301) -/

/-- The die whose block or tile a register key belongs to. -/
def keyDie (key : Nat) : Nat := key / 2 ^ 31 % 64

/-- Whether some partition is RUNNING (R301 for NCB_CTL). -/
def anyRunning (s : State) : Bool := (List.range 8).any (fun p => fld s (partReg p 0x10) 2 0 = 4)

/-- Whether a generation's route table on a die is locked: current, or within 1 ms after it stopped being current (R160). -/
def genLocked (s : State) (d g : Nat) : Bool :=
  let x := dieOf s d
  decide (b2n x.genCur = g) || (match spGet (x.stopped.map (fun p => (p.1, some p.2))) none g with
    | some at_ => decide (s.now < at_ + 1000000)
    | none => false)

/-- Whether the RWL fields of a register are locked. -/
def keyLocked (s : State) (key : Nat) : Bool :=
  let d := keyDie key
  let off := key % 2 ^ 23
  let isBlock := decide (key / 2 ^ 52 = 1) || decide (key / 2 ^ 52 = 0 ∧ key / 2 ^ 23 % 256 = 255)
  if isBlock && decide (off = 0x1000) then anyRunning s
  else if isBlock && decide (0x1100 ≤ off ∧ off < 0x1200) then genLocked s d ((off - 0x1100) / 0x80)
  else if key / 2 ^ 52 = 1 then (if 0x100 ≤ off ∧ off < 0x300 then (partOf s ((off - 0x100) / 0x40)).locked else false)
  else match partOfDie s d with
    | some p => (partOf s p).locked
    | none => false

/-! ### Ranges outside which a written field value is discarded (R342) -/

/-- Whether a value may be written to the field at bit `lo` of a register. -/
def fieldOk (key lo v : Nat) : Bool :=
  let off := key % 2 ^ 23
  let tileSp := decide (key / 2 ^ 52 = 0 ∧ key / 2 ^ 23 % 256 ≠ 255)
  let blk := decide (key / 2 ^ 52 = 1) || decide (key / 2 ^ 52 = 0 ∧ key / 2 ^ 23 % 256 = 255)
  if tileSp && decide (off = 0x7F0208) then decide (1000000 ≤ v)
  else if tileSp && decide (off = 0x7F0400 ∧ lo = 1) then decide (v ≤ 32)
  else if tileSp && decide (off = 0x7F1200 ∨ off = 0x7F1300 ∨ off = 0x7F1340) then decide (v ≠ 0)
  else if blk && decide (off = 0x20018 ∧ lo = 0) then decide (v ≤ 4)
  else if blk && decide (off = 0x20018 ∧ lo = 8) then decide (20 ≤ v ∧ v ≤ 100)
  else if blk && decide (off = 0x20808 ∧ lo = 0) then decide (1000 ≤ v ∧ v ≤ 2600)
  else if key / 2 ^ 52 = 1 ∧ off = 0x28 ∧ lo = 0 then decide (1 ≤ v ∧ v ≤ 100)
  else if key / 2 ^ 52 = 1 ∧ 0x100 ≤ off ∧ off < 0x300 ∧ off % 0x40 = 0 ∧ lo = 0 then decide (v ≤ 8)
  else if key / 2 ^ 52 = 1 ∧ off = 0x1F200 ∧ lo = 8 then decide (v ≠ 0)
  else if key / 2 ^ 52 = 1 ∧ off = 0x1F200 ∧ lo = 36 then decide (1024 ≤ v)
  else if key / 2 ^ 52 = 3 ∧ key % 2 ^ 32 = 0x28 then decide (1000000 ≤ v)
  else true

/-- One field's new value under its access code (Table 0.4, R342). A WO field acts and stores nothing. A W1C bit that an event sets in the same
UCLK cycle (`rose`) stays set (R13). -/
def fieldWrite (key : Nat) (locked : Bool) (rose : Word) (f : RegField) (old new : Word) : Nat :=
  let o := bits old f.hi f.lo
  let n := bits new f.hi f.lo
  match f.acc with
  | .rw => if fieldOk key f.lo n then n else o
  | .ro => o
  | .w1c => o &&& ((n ^^^ (2 ^ (f.hi + 1 - f.lo) - 1)) ||| bits rose f.hi f.lo)
  | .wo => 0
  | .rc => o
  | .rwl => if locked then o else if fieldOk key f.lo n then n else o

/-- The word a register holds after a write, field by field (R342). Bits of no field stay 0 (R12). -/
def writeFields (key : Nat) (locked : Bool) (rose : Word) (fs : List RegField) (old new : Word) : Word :=
  fs.foldl (fun w f => putBits w f.hi f.lo (fieldWrite key locked rose f old new)) 0

/-- Whether a write carries a changed value for a locked field (R15). -/
def rwlChanged (fs : List RegField) (old new : Word) : Bool :=
  fs.any (fun f => decide (f.acc = .rwl) && decide (bits old f.hi f.lo ≠ bits new f.hi f.lo))

/-- Write a register field by field; a write that would change a locked field is counted once in HB_DISC.RWL of the die that holds it
(R15, R312). What else a register's write does is in Machine/RegEffects.lean. -/
def storeReg (s : State) (key : Nat) (v : Word) : State :=
  let fs := keyFields key
  let old := rd s key
  let locked := keyLocked s key
  let s' := if fs.isEmpty then s else wr s key (writeFields key locked (roseNow s key) fs old v)
  if locked && rwlChanged fs old v then addFld s' (healthReg (keyDie key) 0x48) 31 0 1 else s'

/-! ### Fields computed at a read -/

/-- The good tiles of a die. -/
def goodTiles (s : State) (d : Nat) : List Nat := (List.range 144).filter (fun i => goodTile s (d * 144 + i))

/-- STARTS = ceil(good tiles / 16) (R118). -/
def startsOf (s : State) (d : Nat) : Nat := ceilDiv (goodTiles s d).length 16

/-- The tile next to a tile in a direction, on its own die or across a crossing to a compute die; `none` off the block, at a station die and
for the local port. -/
def neighbour (t : Nat) (dir : Dir) : Option Nat :=
  let d := t / 144
  let i := t % 144
  match dir with
  | .north => if 12 ≤ i then some (t - 12) else if 8 ≤ d then some ((d - 8) * 144 + i + 132) else none
  | .south => if i < 132 then some (t + 12) else if d < 32 then some ((d + 8) * 144 + i - 132) else none
  | .east => if i % 12 < 11 then some (t + 1) else if d % 8 < 7 then some ((d + 1) * 144 + i - 11) else none
  | .west => if 0 < i % 12 then some (t - 1) else if 0 < d % 8 then some ((d - 1) * 144 + i + 11) else none
  | .local => none

/-- The station die a tile's outer edge faces in a direction (Table 1.1). -/
def stationAt (t : Nat) (dir : Dir) : Option Nat :=
  let d := t / 144
  let i := t % 144
  match dir with
  | .north => if d < 8 ∧ i < 12 then some (d / 2) else none
  | .south => if 32 ≤ d ∧ 132 ≤ i then some (4 + d % 8 / 2) else none
  | _ => none

/-- RTx_STATUS.PORT_EN: a port toward a fused tile or off the block is disabled (R151). -/
def portEnabled (s : State) (t : Nat) (dir : Dir) : Bool :=
  match dir with
  | .local => true
  | _ => (match neighbour t dir with
    | some n => !(s.m.fuses.fused.contains n)
    | none => (stationAt t dir).isSome)

/-- A direction's number in the order of RTx_STATUS. -/
def dirNum : Dir → Nat
  | .north => 0
  | .east => 1
  | .south => 2
  | .west => 3
  | .local => 4

/-- A plane's number (Table 6.1). -/
def planeNum : Plane → Nat
  | .up => 0
  | .down => 1

/-- Key of an input port of a router on a plane. A tile's router has the tile's number, router `side` of station die n number 5760 + 2n + side
(R151). Ports 0 to 4 are numbered as RTx_STATUS numbers them, 5 is the buffer behind the local output, 6 the points reducer's, and 6 + c is link c of a
station die's router. -/
def portKey (r : Nat) (pl : Plane) (port : Nat) : Nat := (2 * r + planeNum pl) * 32 + port

/-- The port of the next router that a direction leads into. -/
def facing : Dir → Dir
  | .north => .south
  | .south => .north
  | .east => .west
  | .west => .east
  | .local => .local

/-- The failed replays in a row after which a crossing link retrains (R165). -/
def replayLimit : Nat := 8

/-- Whether the link into a port retrains: the error that called for the first replay and 8 failed replays have followed each other (R165). -/
def retraining (s : State) (k : Nat) : Bool := decide (replayLimit < spGet s.m.replays 0 k)

/-- Whether a router's link in a direction retrains, in either direction of its flits. -/
def linkRetrains (s : State) (t : Nat) (pl : Plane) (dir : Dir) : Bool :=
  retraining s (portKey t pl (dirNum dir)) || (match neighbour t dir with
    | some n => retraining s (portKey n pl (dirNum (facing dir)))
    | none => false)

/-- RTx_STATUS.LINK_UP: a link of a powered die to an enabled port; across a crossing only while the crossing is usable on the plane and the link
does not retrain (R165). -/
def linkUp (s : State) (t : Nat) (pl : Plane) (dir : Dir) : Bool :=
  let same := match dir with
    | .local => true
    | _ => (match neighbour t dir with
      | some n => decide (n / 144 = t / 144)
      | none => false)
  (dieOf s (t / 144)).region && portEnabled s t dir
    && (same || bit (rd s (ncbReg (t / 144) 0x10)) (2 * dirNum dir + planeNum pl) && !(linkRetrains s t pl dir))

/-- SIG_STATUS.LINK_UP: the signal links to powered neighbours that are not DOWN (R170, R174). -/
def sigLinkUp (s : State) (t : Nat) (dir : Dir) : Bool :=
  (dieOf s (t / 144)).region && (match neighbour t dir with
    | some n => (dieOf s (n / 144)).region
    | none => false)
    && !((spGet (s.m.nodes.map (fun k => (k.1, k.2.down))) [] t).contains (dirNum dir))

/-- The five ports of a router in the order of RTx_STATUS. -/
def allDirs : List Dir := [.north, .east, .south, .west, .local]

/-- A set of flags as bits from bit 0. -/
def bitsOf : List Bool → Nat
  | [] => 0
  | b :: bs => b2n b + 2 * bitsOf bs

/-- The landing records of a plane. -/
def Coll.land (c : Coll) : Plane → List Landing
  | .up => c.landUp
  | .down => c.landDn
/-- The landing wait list of a plane. -/
def Coll.lwait (c : Coll) : Plane → List Landing
  | .up => c.lwaitUp
  | .down => c.lwaitDn
/-- The reducer slots of a plane. -/
def Coll.slots (c : Coll) : Plane → Sparse PrSlot
  | .up => c.slotsUp
  | .down => c.slotsDn
/-- The waiting RD_OPENs of a plane's reducer. -/
def Coll.waits (c : Coll) : Plane → List Waiter
  | .up => c.waitUp
  | .down => c.waitDn

/-- Whether a DGA lies in host memory (Table 9.2). -/
def dgaSpace (a : Nat) : Nat := a / 2 ^ 52 % 16

/-- A cause that time does not change. -/
def Cause.of (c : Fin 16) : Cause := ⟨c, none, none⟩

/-- The instants, in ns after its first packet, at which a wait on the lower tiers changes its cause, with the cause up to each
(Table 8.5). -/
def tierSteps : List (Nat × Fin 16) := [(2000, 4), (80000, 7)]

/-- The code of a cause at an instant. -/
def Cause.at (c : Cause) (now : Nat) : Fin 16 :=
  match c.since with
  | none => c.code
  | some t0 => (match tierSteps.find? (fun p => decide (now < t0 + p.1)) with
    | some p => p.2
    | none => 6)

/-- The cause of waiting for a station or Peat address since an instant (Table 8.5): a class-W read behind a closed gate, else by the time
waited. -/
def stationCause (s : State) (t a since : Nat) : Cause :=
  let n := a / 2 ^ 26 % 8
  let isW := match (stationOf s n).map.find? (fun e => decide (e.nsid.toNat = a / 2 ^ 48 % 16 ∧ e.ext.toNat = a / 2 ^ 29 % 2 ^ 19)) with
    | some e => decide (e.cls = .w)
    | none => false
  let closed := match partOfDie s (t / 144) with
    | some p => decide (fld s (psbPart n p 0) 6 6 = 0)
    | none => false
  if decide (dgaSpace a = 2) && isW && closed then .of 8 else ⟨4, some since, none⟩

/-- The cause of waiting for responses from an address since an instant (Tables 7.1 and 8.5): hosts HOST_IN, station and Peat logical space by
Table 8.5, another die NET_XING, the own die OPERAND_LATE. -/
def respCause (s : State) (t a since : Nat) : Cause :=
  if 8 ≤ dgaSpace a then .of 9
  else if dgaSpace a = 1 ∨ dgaSpace a = 2 then stationCause s t a since
  else .of (if a / 2 ^ 31 % 64 ≠ t / 144 then 4 else 2)

/-! ### Injection as its waits show it (R155, R182, R196) -/

/-- The sidings of a port. -/
def sidingsAt (s : State) (k : Nat) : Sidings := spGet s.m.sidings ⟨[], []⟩ k

/-- A unit's packets that have flits left to inject, a request with this TAG, in order. -/
def toInject (s : State) (t : Nat) (tag : BitVec 16) : List Packet :=
  (s.m.worms.filter (fun w => decide (w.p.srcDie.toNat = t / 144 ∧ w.p.srcTile.toNat = t % 144 ∧ w.p.tag = tag ∧ 0 < w.left ∧ w.entry % 32 ≠ 6
    ∧ ¬(2 ≤ w.p.type.toNat ∧ w.p.type.toNat ≤ 4)))).map (fun w => w.p)

/-- Whether a packet of a tile and TAG waits for its crossing allowance (R250). -/
def heldBack (s : State) (t : Nat) (tag : BitVec 16) : Bool := (tileOf s t).heldOut.any (fun p => decide (p.tag = tag))

/-- The segments of a tile's own contributions that are open on a plane (R196): RD_OPEN injected, data flits left to inject. -/
def openSegs (s : State) (t : Nat) (pl : Plane) : List (BitVec 16 × Word) :=
  let own := s.m.worms.filter (fun w => decide (w.p.srcDie.toNat = t / 144 ∧ w.p.srcTile.toNat = t % 144 ∧ w.p.plane = pl ∧ 0 < w.left)
    && (tileOf s t).q.started.any (fun o => decide (o.tag = w.p.tag ∧ o.op.kind = .coll)))
  let seg (w : Worm) : BitVec 16 × Word := (w.p.tag, w.p.seg)
  let waiting := (own.filter (fun w => decide (w.p.type = 8))).map seg
  (((own.filter (fun w => decide (w.p.type = 9))).map seg).eraseDups).filter (fun k => !(waiting.contains k))

/-! ### The causes that the NI reports (R182) -/

/-- The cause of a started operation, the first row of Table 7.1 that applies: a reduce OPEN to inject next, or a root without a root record;
another flit to inject next, or a posting without a landing record; then by what it awaits answers from. A packet held back for the
crossing allowance counts as NET_XING (R250). -/
def startedCause (s : State) (t : Nat) (o : NiStarted) : Cause :=
  let x := tileOf s t
  let next := (toInject s t o.tag).head?
  if next.any (fun p => decide (p.type = 8)) || x.coll.rootQ.contains o.tag then .of 13
  else if heldBack s t o.tag then .of 4
  else if next.isSome || (x.coll.lwaitUp ++ x.coll.lwaitDn).any (fun l => decide (l.tag = o.tag)) then .of 3
  else if o.await.isEmpty && o.retry.isEmpty then .of 5
  else respCause s t o.op.dga.toNat o.started

/-- Whether a broadcast target's posting must stay at the head of its queue: no record is free on its plane and the landing wait list is full
(R192). -/
def landFull (s : State) (t : Nat) (o : NiOp) : Bool :=
  let c := o.desc
  let k := (tileOf s t).coll
  let same (l : Landing) : Bool := decide (l.part.val = partNum s t ∧ l.collId = c.collId ∧ l.root = c.root)
  decide (o.kind = .coll) && !c.reduce && !(c.rootIs t) && decide (8 ≤ (k.lwait c.line).length)
    && !(c.standing && (k.land c.line ++ k.lwait c.line).any same)

/-- The cause of an operation that has not started (Table 7.1). -/
def unstartedCause (s : State) (t : Nat) (o : NiOp) : Cause := .of (if landFull s t o then 3 else 5)

/-- NI_CNTk.CAUSE: the report of the oldest outstanding local operation naming k as LC, TRIG_WAIT where there is none (R182). -/
def niCause (s : State) (t k : Nat) : Cause :=
  let names (o : NiOp) : Bool := o.lcEn && decide (o.lc.toNat = k)
  match (tileOf s t).q.started.find? (fun o => names o.op), ((tileOf s t).q.ni ++ (tileOf s t).q.fire).find? names with
  | some o, _ => startedCause s t o
  | none, some o => unstartedCause s t o
  | none, none => .of 5

/-- A tile register as it reads, by its offset from 0x7F_0000. -/
def tileView (s : State) (t off : Nat) (w : Word) : Word :=
  let x := tileOf s t
  if off = 0 then
    BitVec.ofNat 64 (t + (t % 12) * 2 ^ 16 + (t % 144 / 12) * 2 ^ 20 + clusterOf (t % 144) * 2 ^ 24 + t / 144 * 2 ^ 28)
  else if 0x100 ≤ off ∧ off < 0x120 then
    let c := spGet x.ctx Ctx.reset ((off - 0x100) / 8)
    putBits (putBits (putBits w 28 16 (c.pc % 8192).toNat) 31 29 c.st.code) 47 40 c.fcode.toNat
  else if off = 0x408 then putBits w 15 0 (bitsOf ((List.range 16).map (fun q => !(spGet x.q.shq [] q).isEmpty)))
  else if off = 0x828 then BitVec.ofNat 64 (flagsAny s t)
  else if 0x1000 ≤ off ∧ off < 0x1200 then putBits w 35 32 ((niCause s t ((off - 0x1000) / 8)).at s.now).val
  else if off = 0x1208 then
    BitVec.ofNat 64 (x.q.fire.length + min 4 (openSegs s t .up).length * 2 ^ 6 + min 4 (openSegs s t .down).length * 2 ^ 9
      + x.coll.landUp.length * 2 ^ 12 + x.coll.landDn.length * 2 ^ 15 + x.coll.roots.length * 2 ^ 18
      + x.coll.lwaitUp.length * 2 ^ 22 + x.coll.lwaitDn.length * 2 ^ 26)
  else if off = 0x1308 ∨ off = 0x1348 then
    let pl := if off = 0x1308 then Plane.up else Plane.down
    BitVec.ofNat 64 (bitsOf ((List.range 4).map (fun i => (x.coll.slots pl).any (fun p => decide (p.1 = i)))) + min 5 (x.coll.waits pl).length * 16)
  else if off = 0x4000 ∨ off = 0x4100 then
    putBits (putBits w 4 0 (bitsOf (allDirs.map (portEnabled s t)))) 9 5 (bitsOf (allDirs.map (linkUp s t (if off = 0x4000 then .up else .down))))
  else if off = 0x4200 then putBits w 3 0 (bitsOf ([Dir.north, .east, .south, .west].map (sigLinkUp s t)))
  else if (0x4010 ≤ off ∧ off < 0x4038) ∨ (0x4110 ≤ off ∧ off < 0x4138) then
    let g := sidingsAt s (portKey t (if off < 0x4100 then .up else .down) ((off % 0x100 - 0x10) / 8))
    let held (c : BitVec 2) : Nat := (g.flits.filter (fun f => decide (f.ch = c))).length
    BitVec.ofNat 64 (held 0 + held 1 * 2 ^ 8 + held 2 * 2 ^ 16 + held 3 * 2 ^ 24
      + (g.flits.filter (fun f => f.shared)).length * 2 ^ 32)
  else if off = 0x5000 then putBits w 5 5 (b2n (s.m.fencedTiles.contains t))
  else w

/-- The state code of a cluster: 0 run, 2 C2, 3 C3; a cluster with no good tile stays in C3 (R72). -/
def clusterState (s : State) (d c : Nat) : Nat :=
  if (List.range 9).all (fun k => !(goodTile s (d * 144 + clusterTile c k))) then 3 else spGet (dieOf s d).cstate 0 c

/-- A cluster register as it reads (Table 2.10); in C2 and C3 the health block answers, with CSTATE and PRESENT alone (R72). -/
def clusterView (s : State) (d c off : Nat) (w : Word) : Word :=
  let st := clusterState s d c
  if off = 0 then
    BitVec.ofNat 64 (bitsOf ((List.range 9).map (fun k => goodTile s (d * 144 + clusterTile c k)))
      + (if st < 2 then bitsOf ((List.range 9).map (fun k => (tileOf s (d * 144 + clusterTile c k)).t1)) * 2 ^ 9 else 0)
      + st * 2 ^ 18)
  else if st < 2 then w else 0

/-- A health or power register of a die as it reads: identity from the fuses, mirrors (Table 12.2). -/
def dieView (s : State) (d off : Nat) (w : Word) : Word :=
  if off = 0x10000 then
    BitVec.ofNat 64 (d + (if d < 40 then 0 else 64) + s.m.fuses.drev.toNat * 2 ^ 16 + (spGet s.m.fuses.serial 0 d).toNat * 2 ^ 32)
  else if off = 0x10020 then rd s (powerReg d 8)
  else if off = 0x10028 then rd s (powerReg d 0x10)
  else if off = 0x10030 then putBits (rd s (powerReg d 0)) 9 5 (if d < 40 then 22 else 11)
  else if off = 0x10038 then putBits w 31 24 s.m.fuses.cpmCount.toNat
  else if off = 0x10090 then rd s (powerReg d 0x20)
  else if off = 0x20000 then putBits w 9 5 (if d < 40 then 22 else 11)
  else w

/-- The namespaces that hold a lost page on a station die, as a mask (R217, R230). -/
def damagedMask (x : Station) : Nat :=
  bitsOf ((List.range 16).map (fun k => x.map.any (fun e => decide (e.nsid.toNat = k)
    && e.versions.any (fun v => x.lost.any (fun l => decide (l.1 = v.phys))))))

/-- A station die's PSB register as it reads: the damaged namespaces (R217) and the hold queues' lengths (R215). -/
def psbView (s : State) (n off : Nat) (w : Word) : Word :=
  if off = 0 then putBits w 47 32 (damagedMask (stationOf s n))
  else if off = 0x58 then putBits w 15 0 (stationOf s n).hold.length
  else if 0x100 ≤ off ∧ off < 0x300 ∧ off % 0x40 = 0x38 then
    BitVec.ofNat 64 ((stationOf s n).hold.filter (fun h => decide (h.1.val = (off - 0x100) / 0x40))).length
  else w

/-- The administration port (R245). -/
def adminPort (s : State) : Nat := fld s (moduleReg 0) 2 0

/-- The partition a port is bound to (R28). -/
def boundPart (s : State) (n : Nat) : Option Nat :=
  (List.range 8).find? (fun p => decide (fld s (partReg p 0) 0 0 = 1) && (fld s (partReg p 0) 21 14).testBit n)

/-- Key of MOD_STATUS: one value for all ports (Table 9.5). -/
def modStatus : Nat := portReg 0 8

/-- A port register as it reads (Table 9.5). -/
def portView (s : State) (n off : Nat) (w : Word) : Word :=
  if off = 0 then
    BitVec.ofNat 64 (n + (match boundPart s n with | some p => p * 8 + 64 | none => 0) + (if adminPort s = n then 128 else 0))
  else if off = 8 then rd s modStatus
  else w

/-- A register as a reader sees it, before any RC field is cleared. -/
def regView (s : State) (key : Nat) : Word :=
  let w := rd s key
  let sp := key / 2 ^ 52
  if sp = 0 then
    let off := key % 2 ^ 23
    let d := keyDie key
    let i := key / 2 ^ 23 % 256
    if i = 255 then
      (if off = 8 then BitVec.ofNat 64 (startsOf s d + (dieOf s d).tokens.length * 256) else dieView s d off w)
    else if 0x7F8000 ≤ off then clusterView s d (clusterOf i) (off - 0x7F8000) (rd s (clusterReg d (clusterOf i) (off - 0x7F8000)))
    else tileView s (d * 144 + i) (off - 0x7F0000) w
  else if sp = 1 then
    let off := key % 2 ^ 31
    let n := keyDie key - 40
    if off < 0x400 then psbView s n off w
    else if n = 4 ∧ ((0x20800 ≤ off ∧ off < 0x21000) ∨ (0x1F100 ≤ off ∧ off < 0x1F300)) then rd s (stationAddr 0 off)
    else dieView s (40 + n) off w
  else if sp = 3 then
    let off := key % 2 ^ 32
    if 0x10000 ≤ off ∧ off < 0x10200 then rd s (moduleReg (off - 0x10000)) else portView s (key / 2 ^ 32 % 16) off w
  else w

/-- The word with its RC fields replaced by a function of each. -/
def mapRc (fs : List RegField) (f : RegField → Nat) (w : Word) : Word :=
  fs.foldl (fun w g => if g.acc = .rc then putBits w g.hi g.lo (f g) else w) w

/-- Read a register: the value, and the state with its RC fields cleared (Table 0.4). Where a field has been incremented in the same UCLK
cycle, the read returns the value before the increment and the increment alone stays (R14). WO fields read zero, for they are never stored. -/
def readReg (s : State) (key : Nat) : State × Word :=
  let fs := keyFields key
  if fs.any (fun f => decide (f.acc = .rc)) then
    let now := rd s key
    let old := spGet s.ticks.before now key
    let left := mapRc fs (fun f => bits now f.hi f.lo + 2 ^ (f.hi + 1 - f.lo) - bits old f.hi f.lo) now
    let s' := wr s key left
    (if old = now then s' else { s' with tick := { s.ticks with before := spPut s.ticks.before key (mapRc fs (fun _ => 0) old) } },
      mapRc fs (fun f => bits old f.hi f.lo) (regView s key))
  else (s, regView s key)

end Sys2Proof.Machine
end

