-- ==== Sys2Proof/Machine/Tilespace.lean ====
section
/-!
DEFINITION. The tile space: regions, scratchpad bank mapping, KEEP ranges, ECC and the reads and writes of every requester
(R44 to R61, R134, Tables 5.6 and 2.7).

A byte of scratchpad is kept by its physical place (row, bank, byte), so a byte written in one mode and read in the other is read from
another location (R47).

What the spec leaves open here: log entries 17, 19, 21, 22, 24, 86 and 93.
-/

namespace Sys2Proof.Machine

/-! ### Regions (Table 5.6) -/

/-- The mapped regions of tile space. -/
inductive Region where
  | scr
  | acc
  | ist
  | reg
deriving DecidableEq, Repr

/-- The region that holds all of `n` bytes from an offset; `none` when a byte is unmapped or the range crosses regions. -/
def regionOf (off n : Nat) : Option Region :=
  if off + n ≤ 0x600000 then some .scr
  else if 0x600000 ≤ off ∧ off + n ≤ 0x640000 then some .acc
  else if 0x700000 ≤ off ∧ off + n ≤ 0x740000 then some .ist
  else if 0x7F0000 ≤ off ∧ off + n ≤ 0x800000 then some .reg
  else none

/-! ### Banks (R46 to R48) -/

/-- The bank of a scratchpad offset (R47). -/
def scrBank (strict : Bool) (off : Nat) : Nat :=
  let b := off / 64 % 32
  if strict then b else b ^^^ (off / 2048 % 32) ^^^ (off / 65536 % 32) ^^^ (off / 2097152 % 4)

/-- The physical place of a scratchpad byte: row, bank and byte, numbered as STRICT mode numbers offsets (R46, R47). -/
def scrPlace (strict : Bool) (off : Nat) : Nat := off / 2048 * 2048 + scrBank strict off * 64 + off % 64

/-- Key of TILE_KEEPn. -/
def keepReg (t n : Nat) : Nat := tileReg t (0x80 + 8 * n)

/-- The first byte of a KEEP word's range. -/
def keepBase (w : Word) : Nat := bits w 22 12 * 4096
/-- The byte after a KEEP word's range. -/
def keepEnd (w : Word) : Nat := keepBase w + bits w 34 24 * 4096

/-- Whether an enabled KEEP range overlaps `[off, off + n)`. -/
def keepMeets (w : Word) (off n : Nat) : Bool :=
  bit w 40 && decide (keepBase w < off + n ∧ off < keepEnd w)

/-- The enabled KEEP range that holds a byte. -/
def keepOf (s : State) (t off : Nat) : Option Nat := (List.range 4).find? (fun n => keepMeets (rd s (keepReg t n)) off 1)

/-- Whether a write of `n` bytes meets an enabled range with WR = 0 (R57). -/
def keepBlocks (s : State) (t off n : Nat) : Bool :=
  (List.range 4).any (fun k => keepMeets (rd s (keepReg t k)) off n && !(bit (rd s (keepReg t k)) 41))

/-- The mode of an access (R48): the KEEP range's, else the issuing context's, else EXT; true for STRICT. -/
def modeAt (s : State) (t : Nat) (who : Option CtxId) (off : Nat) : Bool :=
  match keepOf s t off with
  | some n => bit (rd s (keepReg t n)) 42
  | none => match who with
    | some c => (tileOf s t).scrMode.getLsbD c.val
    | none => (tileOf s t).scrMode.getLsbD 4

/-- Key of a byte of a tile's memory. -/
def tilePlace (s : State) (t : Nat) (who : Option CtxId) (off : Nat) : Nat :=
  if off < 0x600000 then tileAddr t (scrPlace (modeAt s t who off) off) else tileAddr t off

/-- The bytes of a tile's memory from an offset, as they stand. -/
def tileBytes (s : State) (t : Nat) (who : Option CtxId) (off : Nat) : Nat → List Byte
  | 0 => []
  | n + 1 => readByte s (tilePlace s t who off) :: tileBytes s t who (off + 1) n

/-- Store bytes into a tile's memory from an offset. -/
def putTileBytes (s : State) (t : Nat) (who : Option CtxId) (off : Nat) : List Byte → State
  | [] => s
  | b :: bs => putTileBytes (writeByte s (tilePlace s t who off) b) t who (off + 1) bs

/-! ### ECC (R44, R53, R58, R61) -/

/-- Key of the ECC register of a region: SCR_ECC or ACC_ECC. -/
def eccReg (t : Nat) (r : Region) : Nat := tileReg t (if r = .acc then 0x68 else 0x58)

/-- Count a corrected error: in the region's register and event (R53), in TH_ISTORE for the instruction store (R44), and in HB_ECC (R312). -/
def countCe (s : State) (t : Nat) (r : Region) : State :=
  let s1 := match r with
    | .ist => addFld s (tileReg t 0x5008) 23 0 1
    | .scr => tileEvent (addFld s (eccReg t r) 23 0 1) t 4
    | _ => addFld s (eccReg t r) 23 0 1
  addFld s1 (healthReg (t / 144) 0x40) 47 0 1

/-- Record an uncorrectable read at an offset: count, first address, event, HB_ECC, and INVALID of the KEEP range that holds it (R53, R58). -/
def countUe (s : State) (t : Nat) (r : Region) (off : Nat) : State :=
  let s1 := match r with
    | .scr | .acc =>
      let k := eccReg t r
      let s0 := satFld s k 31 24 1
      let s0 := if fld s0 k 63 63 = 0 then setBit (setFld s0 k 54 32 off) k 63 else s0
      tileEvent s0 t (if r = .scr then 8 else 0x200)
    | _ => s
  let s2 := match (if r = .scr then keepOf s1 t off else none) with
    | some n => setBit s1 (keepReg t n) 44
    | none => s1
  satFld s2 (healthReg (t / 144) 0x40) 63 48 1

/-- The offsets, one for each 64-bit word, that an access of `n` bytes from `off` touches. -/
def wordOffsets (off n : Nat) : List Nat :=
  (List.range ((off + n + 7) / 8 - off / 8)).map (fun i => (off / 8 + i) * 8)

/-- The ECC mark of the word at an offset: none, corrected when read, or uncorrectable. -/
def eccMark (s : State) (t : Nat) (who : Option CtxId) (off : Nat) : Option Bool :=
  spGet (s.ecc.map (fun p => (p.1, some p.2))) none (tilePlace s t who off / 8 * 8)

/-- Remove the ECC mark of the word at an offset. -/
def eccClear (s : State) (t : Nat) (who : Option CtxId) (off : Nat) : State :=
  { s with ecc := spDel s.ecc (tilePlace s t who off / 8 * 8) }

/-- Check words of a region by their offsets: correct and count single errors, count uncorrectable ones; true when one was
uncorrectable (R53). -/
def eccCheckAt (s : State) (t : Nat) (who : Option CtxId) (r : Region) (offs : List Nat) : State × Bool :=
  if s.ecc = [] then (s, false)
  else offs.foldl (fun (a : State × Bool) o =>
    match eccMark a.1 t who o with
    | none => a
    | some false => (countCe (eccClear a.1 t who o) t r, a.2)
    | some true => (countUe a.1 t r o, true)) (s, false)

/-- Check the words that a read of `n` bytes touches (R53). -/
def eccCheck (s : State) (t : Nat) (who : Option CtxId) (r : Region) (off n : Nat) : State × Bool :=
  eccCheckAt s t who r (wordOffsets off n)

/-- A read of tile memory: the state with errors corrected and counted, the bytes, and whether a word was uncorrectable. -/
def tileRead (s : State) (t : Nat) (who : Option CtxId) (r : Region) (off n : Nat) : State × List Byte × Bool :=
  let c := eccCheck s t who r off n
  (c.1, tileBytes s t who off n, c.2)

/-- A write of tile memory. A word wholly written has fresh check bits; one written in part is read, corrected and counted first, and
keeps its mark where it is uncorrectable (R53). -/
def tileWrite (s : State) (t : Nat) (who : Option CtxId) (r : Region) (off : Nat) (bs : List Byte) : State :=
  let s1 := if s.ecc = [] then s
    else (wordOffsets off bs.length).foldl (fun a o =>
      if off ≤ o ∧ o + 8 ≤ off + bs.length then eccClear a t who o
      else (eccCheck a t who r o 8).1) s
  putTileBytes s1 t who off bs

/-! ### The instruction store (R44, R45) -/

/-- Offset of instruction `pc` of a context. -/
def istoreOff (c : CtxId) (pc : Nat) : Nat := 0x700000 + c.val * 0x10000 + pc * 8

/-- Whether a context accepts writes into its instruction-store range (R45). -/
def istoreOpen (s : State) (t : Nat) (c : CtxId) : Bool :=
  match ((tileOf s t).ctxOf c).st with
  | .idle | .done | .faulted => true
  | _ => false

/-- The contexts whose range a write into the instruction store touches. -/
def istoreCtxs (off n : Nat) : List CtxId :=
  (List.finRange 4).filter (fun c => decide (istoreOff c 0 < off + n ∧ off < istoreOff c 0 + 0x10000))

/-- A write into the instruction store (R45): discarded with ISTORE_BUSY unless every context it touches accepts it. -/
def istoreWrite (s : State) (t off : Nat) (bs : List Byte) : State :=
  if (istoreCtxs off bs.length).all (istoreOpen s t) then tileWrite s t none .ist off bs
  else tileEvent s t 0x40

/-! ### Banks held (R49, R61) -/

/-- Whether the TE holds an accumulator bank that `n` bytes from an offset meet (R61, R103). -/
def accHeldIn (s : State) (t off n : Nat) : Bool :=
  (tileOf s t).q.teExec.any (fun e => decide (0x600000 + e.bank * 0x4000 < off + n ∧ off < 0x600000 + e.bank * 0x4000 + 0x4000))

/-- Whether the TE holds the accumulator bank of an offset (R61, R103). -/
def accHeld (s : State) (t off : Nat) : Bool := accHeldIn s t off 1

/-- The arbiter of a bank. -/
def Tile.arb (x : Tile) (b : Nat) : BankArb := spGet x.banks ⟨[], []⟩ b

/-- What else holds a bank. -/
def Tile.hold (x : Tile) (b : Nat) : BankHold := spGet x.holds ⟨[], none⟩ b

/-- Whether a request has waited 16 CCLK: such requests go before STRICT-mode accesses (R51). -/
def overdue (r : Nat × BankReq) : Bool := decide (16 ≤ r.1 ∧ r.2.who ≠ .scrubber)

/-- Whether the scrubber writes a corrected row back into a bank (R54). -/
def scrubBusy (s : State) (t b : Nat) : Bool := decide (s.vco < (tileOf s t).scrubEnd) && (tileOf s t).scrubBanks.contains b

/-- Whether a HASH-mode or external access finds a bank taken but for the scrubber: by requests that wait, or by the second CCLK of a narrow
write (R49, R53). -/
def bankTaken (x : Tile) (b : Nat) : Bool :=
  !(x.arb b).waiting.isEmpty || !(x.arb b).conflict.isEmpty || (x.hold b).second.isSome

/-- Whether an access waits at its scratchpad bank: a STRICT-mode one only where the conflict queue is full and the bank serves requests that
have waited 16 CCLK (R50, R51), another one where the bank is taken or the scrubber has it (R49, R54). -/
def bankBusy (s : State) (t : Nat) (who : Option CtxId) (off : Nat) : Bool :=
  let x := tileOf s t
  let strict := modeAt s t who off
  let b := scrBank strict off
  if strict then !(x.hold b).stalled.isEmpty || (decide (4 ≤ (x.arb b).conflict.length) && (x.arb b).waiting.any overdue)
  else bankTaken x b || scrubBusy s t b

/-- The cause of waiting at a scratchpad bank: ECC_SCRUB where the scrubber alone has it, else SCR_BANK (R49, R54). -/
def bankCause (s : State) (t : Nat) (who : Option CtxId) (off : Nat) : Fin 16 :=
  let strict := modeAt s t who off
  let b := scrBank strict off
  if !strict && scrubBusy s t b && !(bankTaken (tileOf s t) b) then 14 else 1

/-- Whether a request of a unit waits at a bank of its tile (R49, R51). -/
def unitWaits (x : Tile) (who : Requester) : Bool :=
  x.banks.any (fun p => (p.2.waiting.map (fun r => r.2) ++ p.2.conflict).any (fun r => decide (r.who = who)))
    || x.holds.any (fun p => p.2.stalled.any (fun r => decide (r.who = who)))

/-- The cause of a scalar access that waits: OPERAND_LATE for an accumulator bank that the TE holds, else its bank's (R49, R61). -/
def coreCause (s : State) (t : Nat) (c : CtxId) (off : Nat) : Cause :=
  if 0x600000 ≤ off then .of 2 else .of (bankCause s t (some c) off)

/-- The cause of the scalar access that stands before a bank; NONE where there is none. -/
def parkedCause (s : State) (t : Nat) : Cause :=
  match (tileOf s t).core with
  | some a => coreCause s t a.by_.ctx a.addr
  | none => .of 0

/-! ### Rows of a shunter descriptor (R63) -/

/-- idx[r]. -/
def shIndex (s : State) (t : Nat) (e : ShIssue) (r : Nat) : Nat :=
  leNat (tileBytes s t (some e.by_.ctx) (shIdx e + 4 * r) 4)

/-- Source and destination addresses of a row. -/
def shRowAddr (s : State) (t : Nat) (e : ShIssue) (r : Nat) : Nat × Nat :=
  let i := if shOp e = 0 then r else shIndex s t e r
  (shSrc e + (if shOp e = 1 then i else r) * bits e.w3 23 0, shDst e + (if shOp e = 2 then i else r) * bits e.w3 47 24)

/-- The own tile's bytes that the next chunk of a descriptor reads and writes, as offset and length; `none` for a side outside the tile, and for
the destination of data that is still to be requested (R65). -/
def chunkSpans (s : State) (t : Nat) (d : ShDesc) : Option (Nat × Nat) × Option (Nat × Nat) :=
  let e := d.issue
  let a := shRowAddr s t e d.row
  let src := ownOffset t a.1
  let dst := ownOffset t a.2
  let n := chunkLen e src.isSome dst.isSome (shLen e - d.byte)
  (src.map (fun off => (off + d.byte, n)), if src.isSome then dst.map (fun off => (off + shOut e d.byte, shOut e n)) else none)

/-- The cause of an access to the own tile's memory that waits: OPERAND_LATE for an accumulator bank that the TE holds, the bank's cause in the
scratchpad, NONE where it need not wait (R49, R61). -/
def ownCause (s : State) (t : Nat) (c : CtxId) (off n : Nat) : Cause :=
  if off < 0x600000 then .of (if bankBusy s t (some c) off then bankCause s t (some c) off else 0)
  else .of (if accHeldIn s t off n then 2 else 0)

/-- The cause for which the next chunk of a descriptor waits for the own tile's memory: the source's, else the destination's. -/
def chunkCause (s : State) (t : Nat) (d : ShDesc) : Cause :=
  let spans := chunkSpans s t d
  let at_ (o : Option (Nat × Nat)) : Cause := match o with
    | some p => ownCause s t d.issue.by_.ctx p.1 p.2
    | none => .of 0
  if at_ spans.1 = .of 0 then at_ spans.2 else at_ spans.1

end Sys2Proof.Machine
end

