-- ==== Sys2Proof/Machine/Issue.lean ====
section
/-!
DEFINITION. The control core: what every issue shares (R35 to R43, R67 to R70, R122, R126 to R130).

Taking a context fault is one operation, `faultCtx`; charging time to a stall cause is one operation, `charge`; `issue` makes the checks that
every instruction has in common.

What the spec leaves open here: log entries 9, 17, 18, 40, 49 and 87.
-/

namespace Sys2Proof.Machine

/-! ### Stall accounting (R67 to R70) -/

/-- The stall causes of Table 1.5 that the core names itself. -/
def causeNone : Fin 16 := 0
/-- OPERAND_LATE. -/
def causeOperand : Fin 16 := 2
/-- SCR_BANK. -/
def causeBank : Fin 16 := 1
/-- POWER_GOV. -/
def causePower : Fin 16 := 10
/-- MODE_EPOCH. -/
def causeEpoch : Fin 16 := 11
/-- CTX_SWITCH. -/
def causeSwitch : Fin 16 := 12

/-- The divider of a gear: VCO periods in a CCLK (R268). -/
def gearDiv (g : Nat) : Nat :=
  match g with
  | 0 => 4
  | 1 => 5
  | 2 => 6
  | 3 => 8
  | _ => 16

/-- Key of CL_PWRc. -/
def clPwr (d c : Nat) : Nat := powerReg d (0x100 + 8 * c)

/-- VCO periods of a tile's CCLK at the gear in force (R268, Table 10.8). -/
def cclk (s : State) (t : Nat) : Nat := gearDiv (fld s (clPwr (t / 144) (clusterOf (t % 144))) 2 0)

/-- Key of STALL_CNT[i]. -/
def stallCnt (t i : Nat) : Nat := tileReg t (0x300 + 8 * i)

/-- Whether STALL_CTL.FREEZE holds the counters (R69). -/
def frozen (s : State) (t : Nat) : Bool := decide (fld s (tileReg t 0x200) 2 2 = 1)

/-- Add quarters of a G0 CCLK period to a stall counter (R68). -/
def addStallCnt (s : State) (t : Nat) (cause : Fin 16) (n : Nat) : State :=
  setFld s (stallCnt t cause.val) 63 0 (fld s (stallCnt t cause.val) 63 0 + n)

/-- Add `n` CCLK of divider `d` to a cause: 4 quarters each to it and the rest to POWER_GOV (R68). -/
def addStall (s : State) (t : Nat) (cause : Fin 16) (n d : Nat) : State :=
  if n = 0 ∨ frozen s t = true then s
  else
    let s1 := addStallCnt s t cause (4 * n)
    if d = 4 then s1 else addStallCnt s1 t causePower ((d - 4) * n)

/-- Add VCO periods in which the CCLK was stretched or stopped: a quarter of POWER_GOV each (R68, R338). -/
def addStretch (s : State) (t : Nat) (n : Nat) : State :=
  if n = 0 ∨ frozen s t = true then s else addStallCnt s t causePower n

/-- Whether the watchdog's measure pauses on a cause: PEAT_WR, HOST_IN, MODE_EPOCH (R70). -/
def pauses (cause : Fin 16) : Bool := decide (cause.val = 8 ∨ cause.val = 9 ∨ cause.val = 11)

/-- How many of `n` CCLK of divider `d` from a VCO period on begin before an instant of GTIME. -/
def cclkBefore (s : State) (start n d ns : Nat) : Nat := min n (ceilDiv (ceilDiv ((ns - s.gtimeBase) * 28) 5 - start) d)

/-- Add CCLK to the causes that a wait on the lower tiers has one after the other (Table 8.5): `done` of them are already added. -/
def addTiers (s : State) (t start n d t0 : Nat) : List (Nat × Fin 16) → Nat → State
  | [], done => addStall s t 6 (n - done) d
  | (ns, c) :: steps, done =>
    let upto := cclkBefore s start n d (t0 + ns)
    addTiers (addStall s t c (upto - done) d) t start n d t0 steps (max done upto)

/-- Add `n` CCLK from a VCO period on to a cause. -/
def addCause (s : State) (t : Nat) (c : Cause) (start n d : Nat) : State :=
  match c.since with
  | none => addStall s t c.code n d
  | some t0 => addTiers s t start n d t0 tierSteps 0

/-- Charge the whole CCLK that have passed since the last charge to the cause in force (R67). -/
def charge (s : State) (t : Nat) : State :=
  let x := tileOf s t
  if !x.running then s
  else if !(clockOn s t) then updTile (addStretch s t (s.vco - x.stallAt)) t (fun y => { y with stallAt := s.vco })
  else
    let d := cclk s t
    let n := (s.vco - x.stallAt) / d
    updTile (addCause s t x.cause x.stallAt n d) t (fun y =>
      { y with
        stallAt := y.stallAt + n * d
        cycles := y.cycles + n
        issuedAt := if pauses x.cause.code then y.issuedAt + n * d else y.issuedAt })

/-- Charge what has passed and change the cause for what follows. -/
def setCause (s : State) (t : Nat) (cause : Cause) : State := updTile (charge s t) t (fun y => { y with cause := cause })

/-- The CCLK in which the core issues: charged to NONE (R67 1), and the watchdog's measure starts again (R70). -/
def issueCycle (s : State) (t : Nat) : State :=
  let s1 := charge s t
  if (tileOf s1 t).running then
    let d := cclk s1 t
    updTile (addStall s1 t causeNone 1 d) t (fun y =>
      { y with stallAt := y.stallAt + d, cycles := y.cycles + 1, issuedAt := s.vco, cause := .of causeNone, t1 := false })
  else s1

/-- CCLK since the start of the invocation (Table 5.3 CYCLE). -/
def cycleOf (s : State) (t : Nat) : Nat :=
  let x := tileOf s t
  x.cycles + (if x.running then (s.vco - x.stallAt) / cclk s t else 0)

/-! ### Reports to the signal box (Table 6.6) -/

/-- The key of a signal node: a tile, or station die n after the tiles (R170). -/
def nodeKey : SigNode → Nat
  | .tile t => t.val
  | .station n => 5760 + n.val

/-- A signal node before it has heard anything. -/
def NodeState.reset : NodeState := ⟨none, 0, 0x70, 0, [], [], [], [], 0⟩

/-- A signal node's state. -/
def nodeOf (s : State) (k : Nat) : NodeState := spGet s.m.nodes NodeState.reset k

/-- Change a signal node. -/
def updNode (s : State) (k : Nat) (f : NodeState → NodeState) : State :=
  updM s (fun m => { m with nodes := spSet m.nodes NodeState.reset k (f (spGet m.nodes NodeState.reset k)) })

/-- Merge a REPORT into the ones a node holds: one of the same code and partition takes the lower ID and the sum of the counts, saturating
at 15 (R172, Table 6.6). -/
def mergeReport : List Report → Report → List Report
  | [], r => [r]
  | q :: qs, r =>
    if q.part = r.part ∧ q.what = r.what then
      { q with
        id := if r.id.toNat < q.id.toNat then r.id else q.id
        count := BitVec.ofNat 4 (min 15 (q.count.toNat + r.count.toNat)) } :: qs
    else q :: mergeReport qs r

/-- A node starts a REPORT. -/
def sendReport (s : State) (node : Nat) (part : Nat) (id : Nat) (what : ReportWhat) (detail : Nat) : State :=
  updNode s node (fun n => { n with
    reports := mergeReport n.reports ⟨Fin.ofNat 8 part, BitVec.ofNat 13 id, what, 1, BitVec.ofNat 32 detail⟩ })

/-- A tile reports for its partition; a tile of no partition reports nothing. -/
def tileReport (s : State) (t : Nat) (what : ReportWhat) (detail : Nat) : State :=
  match partOfDie s (t / 144) with
  | some p => sendReport s t p t what detail
  | none => s

/-! ### Selecting contexts, and the fault of a context (R40, R43, R130) -/

/-- Whether a context can still run (Table 2.1). -/
def CtxState.live : CtxState → Bool
  | .ready | .running | .waiting => true
  | _ => false

/-- The first READY context after the selected one, in ascending order modulo 4 (R40). -/
def nextReady (x : Tile) : Option CtxId :=
  [x.sel + 1, x.sel + 2, x.sel + 3].find? (fun c => decide ((x.ctxOf c).st = .ready))

/-- Select a READY context: it runs. The switch is charged to CTX_SWITCH (R42, R67 2). -/
def selectReady (s : State) (t : Nat) (c : CtxId) : State :=
  updTile (setCause s t (.of causeSwitch)) t (fun x => { x.setCtx c { x.ctxOf c with st := .running } with sel := c })

/-- After the selected context has stopped: select the next READY one, or end the invocation on the tile when no context can run (R38). -/
def selectNext (s : State) (t : Nat) : State :=
  match nextReady (tileOf s t) with
  | some c => selectReady s t c
  | none =>
    if [0, 1, 2, 3].any (fun c => ((tileOf s t).ctxOf c).st.live) then s
    else updTile (charge s t) t (fun x => { x with running := false })

/-- A fault of a context (R43, R130): FAULTED with the code and the instruction's index; CTX_FAULT, the report of a step abort, and the next
READY context when it was the selected one. A context that cannot run takes none. -/
def faultCtx (s : State) (t : Nat) (c : CtxId) (code : Nat) (pc : Int) : State :=
  let x := tileOf s t
  if (x.ctxOf c).st.live then
    let s1 := updCtx s t c (fun y => { y with st := .faulted, fcode := BitVec.ofNat 8 code, pc := pc, wait := none })
    let s2 := updTile s1 t (fun y => { y with
      core := match y.core with
        | some a => if a.by_.ctx = c then none else some a
        | none => none })
    let s3 := tileReport (tileEvent s2 t 1) t .ctxFault code
    if x.sel = c then selectNext s3 t else s3
  else s

/-! ### Outstanding work (R126, R145) -/

/-- The issuer of a network operation; a fired entry has none (R187). -/
def NiOp.issuer (o : NiOp) : Option Issuer :=
  match o.origin with
  | .instr i => some i
  | .entry _ => none

/-- The network operations of a tile that have been issued and have not completed. -/
def niOps (x : Tile) : List NiOp := x.q.ni ++ x.q.started.map (fun o => o.op)

/-- The shunter descriptors of a tile, by queue. -/
def shDescs (x : Tile) : List ShDesc := x.q.shq.flatMap (fun p => p.2)

/-- Who issued what is outstanding in a queue. -/
def outstanding (x : Tile) : QUnit → List Issuer
  | .te => x.q.te.map (fun e => e.by_) ++ x.q.teExec.map (fun e => e.entry.by_)
  | .ve => x.q.ve.map (fun e => e.by_)
  | .sh => x.q.sh.map (fun e => e.by_) ++ (shDescs x).map (fun d => d.issue.by_)
  | .ni => (niOps x).filterMap NiOp.issuer

/-- All four queues. -/
def allUnits : List QUnit := [.te, .ve, .sh, .ni]

/-- How many entries a QWAIT selector counts (R145). -/
def qCount (x : Tile) (sel squeue : Nat) : Nat :=
  match sel with
  | 0 => (outstanding x .te).length
  | 1 => (outstanding x .ve).length
  | 2 => (outstanding x .sh).length
  | 3 => (outstanding x .ni).length
  | _ => (spGet x.q.shq [] squeue).length + (x.q.sh.filter (fun e => decide (e.q.val = squeue))).length

/-- The queues a FENCE mask selects; 0 selects all four (R145). -/
def maskUnits (mask : Nat) : List QUnit :=
  (if mask % 16 = 0 then allUnits
   else (if mask.testBit 0 then [QUnit.te] else []) ++ (if mask.testBit 1 then [QUnit.ve] else [])
     ++ (if mask.testBit 2 then [QUnit.sh] else []) ++ (if mask.testBit 3 then [QUnit.ni] else []))

/-- Whether the entries issued before `upto` to these queues have all completed. -/
def doneBefore (x : Tile) (us : List QUnit) (upto : Nat) : Bool :=
  us.all (fun u => (outstanding x u).all (fun i => decide (upto ≤ i.seq)))

/-- The queues whose entries an FLRD or FLCLR of an engine awaits (R95, R146): none for a points reducer. -/
def engineUnits (engine : Nat) : List QUnit :=
  match engine with
  | 0 => [.te]
  | 1 => [.ve]
  | 2 => [.sh]
  | 5 => [.te, .ve, .sh]
  | _ => []

/-- Key of NI counter k (Table 7.2). -/
def cntReg (t k : Nat) : Nat := tileReg t (0x1000 + 8 * k)

/-- The value of NI counter k. -/
def cntOf (s : State) (t k : Nat) : Nat := fld s (cntReg t k) 31 0

/-- Whether EPOCH_SEQ has reached a number (R148). -/
def epReached (x : Tile) (n : Lane) : Bool := decide ((x.epSeq - n).toNat < 2 ^ 31)

/-- Whether a context's wait is met. -/
def waitMet (s : State) (t : Nat) (c : CtxId) (w : Wait) : Bool :=
  let x := tileOf s t
  match w with
  | .nwait k th _ => decide (th.toNat ≤ cntOf s t k.toNat)
  | .qwait sel q n => decide (qCount x sel.toNat q.toNat ≤ n.toNat)
  | .fence m upto => doneBefore x (maskUnits m.toNat) upto
  | .endCtx => allUnits.all (fun u => (outstanding x u).all (fun i => decide (i.ctx ≠ c)))
  | .epwait n _ => epReached x n
  | .flrd e _ upto => doneBefore x (engineUnits e.toNat) upto
  | .flclr e _ upto => doneBefore x (engineUnits e.toNat) upto

/-! ### Causes that units report (R67) -/

/-- Whether a tile holds a start token of its die (R118). -/
def holdsToken (s : State) (t : Nat) : Bool := (dieOf s (t / 144)).tokens.contains (t % 144)

/-- The cause that the TE reports: SCR_BANK while a request of its own waits at a bank, NONE while it works, POWER_GOV while it waits for a
start token. -/
def teCause (s : State) (t : Nat) : Fin 16 :=
  let x := tileOf s t
  if unitWaits x .te then causeBank else if !x.q.teExec.isEmpty then causeNone else if x.q.te.isEmpty then causeNone
  else if holdsToken s t then causeNone else causePower

/-- The cause that the VE's head entry reports: SCR_BANK or OPERAND_LATE for an LD.V or ST.V that waits for its banks, NONE otherwise. -/
def veCause (s : State) (t : Nat) : Fin 16 :=
  match (tileOf s t).q.ve with
  | [] => causeNone
  | e :: _ =>
    if e.op = .ldv ∨ e.op = .stv then
      (if e.addr < 0x600000 then (if bankBusy s t (some e.by_.ctx) e.addr then bankCause s t (some e.by_.ctx) e.addr
        else if unitWaits (tileOf s t) .ve then causeBank else causeNone)
       else if accHeld s t e.addr then causeOperand else if unitWaits (tileOf s t) .ve then causeBank else causeNone)
    else causeNone

/-- The cause that a shunter queue's head descriptor reports (R65, R67): the wait for a credit or for answers, by the oldest packet that
awaits one; else the wait of the next row for the own tile's memory; NONE where it waits for nothing outside the shunter. -/
def shqCause (s : State) (t q : Nat) : Cause :=
  match spGet (tileOf s t).q.shq [] q with
  | [] => .of causeNone
  | d :: _ =>
    match d.await ++ d.retry.map (fun r => r.2) with
    | r :: _ =>
      if heldBack s t r.p.tag then .of 4
      else if (toInject s t r.p.tag).isEmpty then respCause s t r.p.addr.toNat (d.since.getD s.now) else .of 3
    | [] => if unitWaits (tileOf s t) .shunter then .of causeBank
      else if d.started && decide (d.row < shRows d.issue) then chunkCause s t d else .of causeNone

/-- The outstanding items of a queue: who issued each, and the cause that the unit that holds it reports (R67). Items behind the one that
executes or waits in a unit wait for it. -/
def items (s : State) (t : Nat) (u : QUnit) : List (Issuer × Cause) :=
  let x := tileOf s t
  match u with
  | .te => (outstanding x .te).map (fun i => (i, .of (teCause s t)))
  | .ve => (outstanding x .ve).map (fun i => (i, .of (veCause s t)))
  | .sh => x.q.sh.map (fun e => (e.by_, shqCause s t e.q.val)) ++ x.q.shq.flatMap (fun p => p.2.map (fun d => (d.issue.by_, shqCause s t p.1)))
  | .ni => x.q.started.filterMap (fun o => o.op.issuer.map (fun i => (i, startedCause s t o)))
    ++ x.q.ni.filterMap (fun o => o.issuer.map (fun i => (i, unstartedCause s t o)))

/-- The earliest-issued of some items. -/
def earliestItem : List (Issuer × Cause) → Option (Issuer × Cause)
  | [] => none
  | a :: l => match earliestItem l with
    | none => some a
    | some b => if b.1.seq < a.1.seq then some b else some a

/-- The cause of waiting on some items: that of the earliest-issued (R67 4). -/
def itemsCause (l : List (Issuer × Cause)) : Cause := match earliestItem l with
  | some p => p.2
  | none => .of causeNone

/-- The cause that the head entry of a queue reports (R67 3). -/
def headCause (s : State) (t : Nat) : QUnit → Cause
  | .te => .of (teCause s t)
  | .ve => .of (veCause s t)
  | .sh => match (tileOf s t).q.sh with
    | e :: _ => shqCause s t e.q.val
    | [] => .of causeNone
  | .ni => match (tileOf s t).q.ni with
    | o :: _ => unstartedCause s t o
    | [] => itemsCause (items s t .ni)

/-- The items that a wait instruction of a context awaits (R39, R95, R145). -/
def waitItems (s : State) (t : Nat) (c : CtxId) (w : Wait) : List (Issuer × Cause) :=
  let before (us : List QUnit) (upto : Nat) := us.flatMap (fun u => (items s t u).filter (fun p => decide (p.1.seq < upto)))
  let x := tileOf s t
  match w with
  | .nwait _ _ _ | .epwait _ _ => []
  | .qwait sel q _ => (match sel.toNat with
    | 0 => items s t .te
    | 1 => items s t .ve
    | 2 => items s t .sh
    | 3 => items s t .ni
    | _ => (x.q.sh.filter (fun e => decide (e.q.val = q.toNat))).map (fun e => (e.by_, shqCause s t q.toNat))
      ++ (spGet x.q.shq [] q.toNat).map (fun d => (d.issue.by_, shqCause s t q.toNat)))
  | .fence m upto => before (maskUnits m.toNat) upto
  | .endCtx => allUnits.flatMap (fun u => (items s t u).filter (fun p => decide (p.1.ctx = c)))
  | .flrd e _ upto => before (engineUnits e.toNat) upto
  | .flclr e _ upto => before (engineUnits e.toNat) upto

/-- A wait for a start token ends without a grant: its CCLK are added to TEB_RAMP_WAIT all the same (R119). -/
def endTokWait (s : State) (t : Nat) : State :=
  match (tileOf s t).tokReq with
  | some at_ => updTile (addFld s (tebReg (t / 144) 0x30) 63 0 ((s.vco - at_) / cclk s t)) t (fun x => { x with tokReq := none })
  | none => s

/-- The CCLK of the waits for start tokens that have passed are added to TEB_RAMP_WAIT, as a read of it finds it (R119). -/
def settleRamp (s : State) (d : Nat) : State :=
  forEach ((List.range 144).map (fun i => d * 144 + i)) s (fun s t =>
    match (tileOf s t).tokReq with
    | some at_ =>
      let n := (s.vco - at_) / cclk s t
      if n = 0 then s else updTile (addFld s (tebReg d 0x30) 63 0 n) t (fun x => { x with tokReq := some (at_ + n * cclk s t) })
    | none => s)

/-- The cause of a wait of a context (R67 4): the NI's report for a counter (R144), MODE_EPOCH (R148), or that of the earliest-issued item it
waits on. -/
def waitCause (s : State) (t : Nat) (c : CtxId) (w : Wait) : Cause :=
  match w with
  | .nwait k _ _ => niCause s t k.toNat
  | .epwait _ _ => .of causeEpoch
  | _ => itemsCause (waitItems s t c w)

/-- Charge what has passed and take the cause again that the selected context has now, after a unit's state has changed: its wait's, or that of
the full queue its instruction waits on. -/
def recause (s : State) (t : Nat) : State :=
  let c := selCtx s t
  match c.st, c.wait, (tileOf s t).cause.full with
  | .waiting, some w, _ => setCause s t (waitCause s t (tileOf s t).sel w)
  | .running, _, some u => setCause s t { headCause s t u with full := some u }
  | _, _, _ => s

/-- Select a context (R41): one that is READY runs; a WAITING one goes on waiting, its blocked time under its wait's cause. -/
def selectCtx (s : State) (t : Nat) (c : CtxId) : State :=
  if ((tileOf s t).ctxOf c).st = .ready then selectReady s t c
  else recause (updTile (charge s t) t (fun x => { x with sel := c })) t

/-! ### Issue (R126 to R130) -/

/-- Whether an entry of the VE queue will write a scalar register of a context (R129). -/
def VeEntry.writesX (e : VeEntry) (c : CtxId) (r : BitVec 5) : Bool :=
  decide (e.by_.ctx = c ∧ e.w.d = r) &&
    (match e.op with
     | .red | .redMax | .redMin | .redOr | .redCpsum | .pget => true
     | _ => false)

/-- Whether a scalar register is still to be written by a load that waits for its bank (R129). -/
def loadBusy (x : Tile) (c : CtxId) (r : BitVec 5) : Bool :=
  match x.core with
  | some a => decide (r ≠ 0 ∧ a.store = none ∧ a.by_.ctx = c ∧ a.xd = r)
  | none => false

/-- Whether a scalar register is still to be written by an outstanding instruction (R129). -/
def regBusy (x : Tile) (c : CtxId) (r : BitVec 5) : Bool :=
  decide (r ≠ 0) && x.q.ve.any (fun e => e.writesX c r) || loadBusy x c r

/-- Whether a scalar store waits for its bank: nothing issues until it has its grant (R128). -/
def storeWaits (x : Tile) : Bool :=
  match x.core with
  | some a => a.store.isSome
  | none => false

/-- Whether the core can issue an instruction: the selected context runs, no scalar store waits (R126, R128), and the tile's scope is
not closing (R295). -/
def canIssue (s : State) (t : Nat) : Bool :=
  decide ((selCtx s t).st = .running) && !(storeWaits (tileOf s t)) && scopeOpen s t

/-- What every issue does first. The fetch faults outside the context's 64 KiB or on an uncorrectable word (R44); a word that breaks its
format faults ILLEGAL (R122); an instruction that names a register still to be written waits (R129). -/
def issue (s : State) (t : Nat) (ok : Bool) (regs : List (BitVec 5)) (act : Issuer → State → State) : State :=
  let x := tileOf s t
  let c := x.ctxOf x.sel
  if canIssue s t then
    if c.pc < 0 ∨ 8192 ≤ c.pc then faultCtx s t x.sel 0x01 c.pc
    else
      let f := eccCheck s t none .ist (istoreOff x.sel c.pc.toNat) 8
      if f.2 then faultCtx f.1 t x.sel 0x02 c.pc
      else if ok then
        (if regs.any (regBusy x x.sel) then
          setCause f.1 t (if regs.any (loadBusy x x.sel) then parkedCause s t else .of causeOperand)
        else act ⟨x.sel, c.pc, x.seq⟩ f.1)
      else faultCtx f.1 t x.sel 0x10 c.pc
  else s

/-- The instruction completes in the core: its context changes and goes on at an index. -/
def retire (s : State) (t : Nat) (i : Issuer) (target : Int) (f : Ctx → Ctx) : State :=
  updCtx (issueCycle s t) t i.ctx (fun c => { f c with pc := target })

/-- A fault found at issue (R130): no effect, PC is the instruction's index. -/
def issueFault (s : State) (t : Nat) (i : Issuer) (code : Nat) : State := faultCtx s t i.ctx code i.index

/-- The instruction enters a queue (R127). A full queue holds it back, charged to what the head entry reports (R35, R67 3). -/
def enqueue (s : State) (t : Nat) (i : Issuer) (u : QUnit) (len : Nat) (put : Queues → Queues) : State :=
  if 16 ≤ len then setCause s t { headCause s t u with full := some u }
  else updTile (retire s t i (i.index + 1) id) t (fun x => { x with seq := x.seq + 1, q := put x.q })

/-- A wait that is not met: its context becomes WAITING and stays selected (R39). -/
def blockOn (s : State) (t : Nat) (i : Issuer) (w : Wait) : State :=
  updCtx (setCause s t (waitCause s t i.ctx w)) t i.ctx (fun c => { c with st := .waiting, wait := some w })

/-- The registers of the issuing context. -/
def issuerCtx (s : State) (t : Nat) (i : Issuer) : Ctx := (tileOf s t).ctxOf i.ctx

end Sys2Proof.Machine
end

