-- ==== Sys2Proof/Machine/NiCore.lean ====
section
/-!
DEFINITION. NI counters, the triggered-operation table, DGA checks and the collective descriptor (R143, R179 to R190, R235, R236).

What the spec leaves open here: log entry 26.
-/

namespace Sys2Proof.Machine

/-! ### Addresses (R143, R235, R236) -/

/-- Whether two dies belong to one partition. -/
def samePart (s : State) (d d' : Nat) : Bool :=
  match partOfDie s d with
  | some p => partHolds s p d'
  | none => false

/-- Whether `n` bytes from an offset lie in one block of a compute die's die block (Table 9.3). -/
def dieBlockMapped (off n : Nat) : Bool :=
  decide (off + n ≤ 0x100) || decide (0x1000 ≤ off ∧ off + n ≤ 0x1200)
    || decide (0x10000 ≤ off ∧ off + n ≤ 0x20000) || decide (0x20000 ≤ off ∧ off + n ≤ 0x30000)

/-- Whether `n` bytes from an offset lie in one register block of a station die (Table 9.3). -/
def stationRegMapped (off n : Nat) : Bool :=
  decide (off + n ≤ 0x400) || decide (0x1000 ≤ off ∧ off + n ≤ 0x1200)
    || decide (0x10000 ≤ off ∧ off + n ≤ 0x20000) || decide (0x20000 ≤ off ∧ off + n ≤ 0x30000)

/-- Whether `n` bytes from an offset lie in the outlet window of a station die (Table 9.3). -/
def outletMapped (off n : Nat) : Bool := decide (0x40000000 ≤ off ∧ off + n ≤ 0x80000000)

/-- The die a DGA of tile or station space names. -/
def dgaDie (a : Nat) : Nat := a / 2 ^ 31 % 64
/-- The tile index field of a DGA. -/
def dgaIndex (a : Nat) : Nat := a / 2 ^ 23 % 256

/-- Whether a DGA of `n` bytes is mapped: its space assigned, the bits its space marks 0 zero, its offset mapped (Tables 9.2, 9.3). -/
def dgaMapped (a n : Nat) : Bool :=
  let sp := a / 2 ^ 52
  if sp = 0 then
    decide (a / 2 ^ 37 % 2 ^ 15 = 0 ∧ dgaDie a < 40) &&
      (if dgaIndex a = 255 then dieBlockMapped (a % 2 ^ 23) n
       else decide (dgaIndex a < 144) && (regionOf (a % 2 ^ 23) n).isSome)
  else if sp = 1 then
    decide (a / 2 ^ 37 % 2 ^ 15 = 0 ∧ 40 ≤ dgaDie a ∧ dgaDie a < 48)
      && (stationRegMapped (a % 2 ^ 31) n || outletMapped (a % 2 ^ 31) n)
  else decide (sp = 2) || decide (8 ≤ sp ∧ sp < 16)

/-- Whether a tile may use a DGA: mapped; in tile space on a good tile or die block of its own partition; in host memory through a port
bound to its partition (R143). -/
def dgaAllowed (s : State) (t a n : Nat) : Bool :=
  let sp := a / 2 ^ 52
  dgaMapped a n &&
    (if sp = 0 then samePart s (t / 144) (dgaDie a) && (decide (dgaIndex a = 255) || goodTile s (dgaTile a))
     else if 8 ≤ sp then (boundPorts s (partNum s t)).contains (sp - 8) && (partOfDie s (t / 144)).isSome
     else true)

/-- The NI_DGA check (R143): bits [63:56] zero, the DGA allowed, and tile space where a remote counter is named. -/
def dgaFault (s : State) (t : Nat) (a : Word) (n : Nat) (rcEn : Bool) : Bool :=
  decide (2 ^ 56 ≤ a.toNat) || !(dgaAllowed s t a.toNat n) || (rcEn && decide (a.toNat / 2 ^ 52 ≠ 0))

/-- The longest network transfer (R143). -/
def maxLen : Nat := 6291456

/-- The NI_LEN check (R143). -/
def lenFault (loc n : Nat) : Bool := decide (n = 0 ∨ maxLen < n ∨ 0x600000 < loc + n)

/-! ### The checks of a collective (R190) -/

/-- Whether the partition of a tile holds the rectangle of a group: both its corner dies, for a partition is a rectangle of dies. -/
def groupInPart (s : State) (t : Nat) (g : Word) : Bool :=
  decide (bits g 13 7 < 96 ∧ bits g 25 20 < 60)
    && samePart s (t / 144) (bits g 19 14 / 12 * 8 + bits g 6 0 / 12)
    && samePart s (t / 144) (bits g 25 20 / 12 * 8 + bits g 13 7 / 12)

/-- The checks of NCOLL that raise NI_DGA (R190). -/
def collDgaBad (s : State) (t : Nat) (c : CollDesc) : Bool :=
  let g := c.group
  let ms := members s g
  let sp := c.root / 2 ^ 52
  let isRoot := decide (sp = 0 ∧ dgaTile c.root = t ∧ dgaIndex c.root < 144)
  !c.opOk || decide (c.plane = 3) || (c.reduce && decide (6 ≤ c.rtype ∨ 9 ≤ c.segu ∨ c.standing = true))
    || (!c.reduce && decide (c.rtype ≠ 0 ∨ c.segu ≠ 0))
    || decide (bits g 13 7 < bits g 6 0 ∨ bits g 25 20 < bits g 19 14) || ms.isEmpty || !(groupInPart s t g)
    || !(dgaAllowed s t c.root 1)
    || (if c.reduce then decide (1 < sp) else decide (sp ≠ 0))
    || decide (sp = 0 ∧ 144 ≤ dgaIndex c.root)
    || !(ms.contains t || isRoot)

/-- The checks of NCOLL that raise NI_LEN (R190). -/
def collLenBad (s : State) (t : Nat) (c : CollDesc) : Bool :=
  let ms := members s c.group
  let isRoot := decide (c.root / 2 ^ 52 = 0 ∧ dgaTile c.root = t)
  decide (c.len = 0 ∨ maxLen < c.len ∨ c.len % c.elem ≠ 0 ∨ c.root % 64 ≠ 0)
    || decide (c.loc % 64 ≠ 0 ∨ 0x600000 < c.loc + c.len)
    || (isRoot && decide (0x600000 < c.root % 2 ^ 23 + (if c.reduce then c.accLen else c.len)))
    || (isRoot && !c.reduce && decide (c.gmap % 8 ≠ 0 ∨ 0x600000 < c.gmap + (ms.length + 63) / 64 * 8))

/-! ### The triggered-operation table (Table 7.2) -/

/-- Key of word `w` of trigger entry `e`. -/
def trigReg (t e w : Nat) : Nat := tileReg t (0x2000 + 32 * e + 8 * w)

/-- Whether an entry is armed. -/
def armed (s : State) (t e : Nat) : Bool := bit (rd s (trigReg t e 0)) 43

/-- Set or clear ARMED. -/
def setArmed (s : State) (t e : Nat) (on : Bool) : State := setFld s (trigReg t e 0) 43 43 (b2n on)

/-- The armed entries of a tile in ascending index. The register file lists every word that is not at its reset value, and ARMED is 0
at reset, so every armed entry is listed. -/
def armedEntries (s : State) (t : Nat) : List Nat :=
  (s.regs.filterMap (fun p =>
    if trigReg t 0 0 ≤ p.1 ∧ p.1 < trigReg t 256 0 ∧ (p.1 - trigReg t 0 0) % 32 = 0 ∧ bit p.2 43 = true
    then some ((p.1 - trigReg t 0 0) / 32) else none))

/-- The kind of an entry's OP. -/
def kindOfOp (op : Nat) : NiKind :=
  match op with
  | 0 => .put
  | 1 => .get
  | 2 => .send
  | 3 => .cntInc
  | 4 => .coll
  | _ => .localInc

/-- The operation of an entry, with the operands it holds now; a COLL reads its descriptor (R183, R188). -/
def entryOp (s : State) (t e : Nat) : NiOp :=
  let w0 := rd s (trigReg t e 0)
  let w1 := rd s (trigReg t e 1)
  let w2 := rd s (trigReg t e 2)
  let w3 := rd s (trigReg t e 3)
  let k := kindOfOp (bits w0 47 44)
  let loc := bits w2 22 0
  let cw (i : Nat) : Word := if k = .coll then BitVec.ofNat 64 (leNat (tileBytes s t none (loc + 8 * i) 8)) else 0
  { origin := .entry (BitVec.ofNat 8 e), kind := k, dga := BitVec.ofNat 64 (bits w1 55 0), loc := loc
    len := if k = .send then 8 else bits w2 45 23, value := w3
    lc := BitVec.ofNat 6 (bits w0 55 50), lcEn := bit w0 56, rc := BitVec.ofNat 6 (bits w0 62 57), rcEn := bit w0 63
    plane := BitVec.ofNat 2 (bits w0 49 48), c0 := cw 0, c1 := cw 1, c2 := cw 2, c3 := cw 3 }

/-- The arming checks of an entry (R184). -/
def armOk (s : State) (t e : Nat) : Bool :=
  let w0 := rd s (trigReg t e 0)
  let w1 := rd s (trigReg t e 1)
  let w2 := rd s (trigReg t e 2)
  let w3 := rd s (trigReg t e 3)
  let op := bits w0 47 44
  let rcEn := bit w0 63
  let loc := bits w2 22 0
  let len := bits w2 45 23
  let span := if op ≤ 1 then (if len = 0 ∨ maxLen < len then 1 else len) else if op = 2 then 8 else 1
  decide (op ≤ 5 ∧ bits w0 49 48 ≠ 3)
    && (if op ≤ 3 then !(dgaFault s t w1 span rcEn) else decide (w1 = 0))
    && (if op ≤ 1 then !(lenFault loc len) else true)
    && (if op = 4 then decide (loc % 64 = 0 ∧ loc + 64 ≤ 0x600000) else true)
    && (if op = 5 then decide (bits w3 15 6 = 0 ∧ bits w3 63 32 = 0) else decide (op = 2 ∨ w3 = 0))
    && (if op = 3 then rcEn else if op = 4 ∨ op = 5 then !rcEn else true)
    && (if op = 2 then decide (w1.toNat % 8 = 0) else true)
    && (if op = 1 then !(keepBlocks s t loc len) else true)

/-- Record the first failure of a triggered operation (Table 7.8 NI_TFAIL). -/
def recordTfail (s : State) (t e nakr : Nat) : State :=
  let k := tileReg t 0x1210
  if fld s k 63 63 = 0 then wr (noteEvent s k (2 ^ 63)) k (BitVec.ofNat 64 (e % 256 + nakr % 8 * 256 + 2 ^ 63)) else s

/-- A triggered operation fails (R187): NI_TFAIL, and the report TRIG_FAIL, on which the signal box aborts the step. -/
def failTriggered (s : State) (t e nakr : Nat) : State := tileReport (recordTfail s t e nakr) t .trigFail e

/-! ### Counters (R179, R180, R185) -/

/-- The trigger entry of a fired operation. -/
def NiOp.entry? (o : NiOp) : Option Nat :=
  match o.origin with
  | .entry e => some e.toNat
  | .instr _ => none

/-- The increments of a fired LOCAL_INC, which completes as it fires: the counter of VALUE, and its LC (R181, Table 7.2). -/
def localIncs (o : NiOp) : List (Nat × Nat) :=
  (bits o.value 5 0, bits o.value 31 16) :: (if o.lcEn then [(o.lc.toNat, 1)] else [])

/-- Test one armed entry (R185): when its counter holds at least THRESH, room is free and no earlier firing of it waits, it consumes,
disarms unless REARM, and enters the fire queue; a LOCAL_INC completes instead, its increments added to a list. A collective whose descriptor
cannot be read fails (R53, R187). -/
def testEntry (t : Nat) (a : State × List (Nat × Nat)) (e : Nat) : State × List (Nat × Nat) :=
  let s := a.1
  let w0 := rd s (trigReg t e 0)
  let k := bits w0 5 0
  let th := bits w0 39 8
  let q := (tileOf s t).q.fire
  if scopeOpen s t = true ∧ th ≤ cntOf s t k ∧ q.length < 32 ∧ q.all (fun o => decide (o.entry? ≠ some e)) = true then
    let s1 := if bit w0 40 then setFld s (cntReg t k) 31 0 (cntOf s t k - th) else s
    let op := entryOp s1 t e
    let s2 := if bit w0 41 then s1 else setArmed s1 t e false
    if op.kind = .localInc then (s2, a.2 ++ localIncs op)
    else
      let c := if op.kind = .coll then eccCheck s2 t none .scr op.loc 64 else (s2, false)
      if c.2 then (failTriggered c.1 t e 0, a.2)
      else (updTile c.1 t (fun x => { x with q := { x.q with fire := x.q.fire ++ [op] } }), a.2)
  else a

/-- Test every armed entry in ascending index, each on the values left by those before it (R180 4, R185); the increments of the LOCAL_INCs that
fire fall in the CCLK after. -/
def testEntries (s : State) (t : Nat) : State × List (Nat × Nat) := (armedEntries s t).foldl (testEntry t) (s, [])

/-- Add the increments of one CCLK, modulo 2^32 (R179, R180 3). -/
def addIncs (s : State) (t : Nat) (incs : List (Nat × Nat)) : State := forEach incs s (fun s i => addFld s (cntReg t i.1) 31 0 i.2)

/-- The CCLK that increments set off: all increments of one are added, then the armed entries are tested, as long as LOCAL_INCs fire. The last
increments are added without a test, which only a chain of rearming entries reaches. -/
def settleIncs (t : Nat) : Nat → State → List (Nat × Nat) → State
  | 0, s, incs => addIncs s t incs
  | fuel + 1, s, incs =>
    let r := testEntries (addIncs s t incs) t
    if r.2.isEmpty then r.1 else settleIncs t fuel r.1 r.2

/-- Test the armed entries of a tile, after an entry or the room for firing has changed (R184, R185). -/
def settle (s : State) (t : Nat) : State := settleIncs t 257 s []

/-- Increment a counter, modulo 2^32, then test the armed entries (R179, R180). -/
def cntInc (s : State) (t k n : Nat) : State := settleIncs t 257 (wakeT1 s t) [(k, n)]

/-- Replace a counter's value, then test the armed entries (R180). -/
def cntWrite (s : State) (t k v : Nat) : State := settle (setFld s (cntReg t k) 31 0 v) t

/-- NTRIG: disarm an entry and remove its operation from the fire queue (R184); another one may fire into the room (R185). -/
def disarm (s : State) (t e : Nat) : State :=
  settle (updTile (setArmed s t e false) t (fun x =>
    { x with q := { x.q with fire := x.q.fire.filter (fun o => decide (o.entry? ≠ some e)) } })) t

/-- Arm the INIT_ARM entries at the start of an invocation; one that fails the checks is recorded (R179, R184). One whose counter already holds
its THRESH fires (R185). -/
def initArm (s : State) (t : Nat) : State :=
  let es := s.regs.filterMap (fun p =>
    if trigReg t 0 0 ≤ p.1 ∧ p.1 < trigReg t 256 0 ∧ (p.1 - trigReg t 0 0) % 32 = 0 ∧ bit p.2 42 = true
    then some ((p.1 - trigReg t 0 0) / 32) else none)
  let s0 := forEach (armedEntries s t) s (fun s e => setArmed s t e false)
  settle (forEach es s0 (fun s e => if armOk s t e then setArmed s t e true else recordTfail s t e 0)) t

/-- The LC increment at the completion of an operation (R181). -/
def incLc (s : State) (t : Nat) (o : NiOp) : State := if o.lcEn then cntInc s t o.lc.toNat 1 else s

/-! ### A network operation that fails (R143, R187) -/

/-- The execution fault of an issued operation: NI_REMOTE in its context, whose later NI entries are discarded (R130, R143); of a fired one,
R187. -/
def failNiOp (s : State) (t : Nat) (o : NiOp) (nakr : Nat) : State :=
  match o.origin with
  | .entry e => failTriggered s t e.toNat nakr
  | .instr i =>
    let s1 := updTile s t (fun x => { x with q := { x.q with
      ni := x.q.ni.filter (fun p => match p.issuer with
        | some j => decide (j.ctx ≠ i.ctx)
        | none => true) } })
    faultCtx s1 t i.ctx 0x1B i.index

end Sys2Proof.Machine
end

