-- ==== Sys2Proof/Machine/RegEffects.lean ====
section
/-!
DEFINITION. Writing a register with everything its write does (R12, R15, R342 and the rules of each register).

What the spec leaves open here: log entries 68 and 81.
-/

namespace Sys2Proof.Machine

/-! ### Gears (R268) -/

/-- The gear a cluster should run at: the slowest of the governor's gear, GEAR_MAX, HOST_GEAR and the thermal gear (R268). -/
def wantedGear (s : State) (d c : Nat) : Nat :=
  let x := dieOf s d
  max (max (spGet x.govGear 0 c) (fld s (powerReg d 0) 22 20)) (max (fld s (powerReg d 0x18) 2 0) (min 4 x.thermGear))

/-- The gear a cluster runs at. -/
def gearOf (s : State) (d c : Nat) : Nat := fld s (clPwr d c) 2 0

/-- Switch the divider of a cluster: the time so far is charged at the old one. -/
def switchGear (s : State) (d c g : Nat) : State :=
  setFld (forEach (List.range 9) s (fun s k => charge s (d * 144 + clusterTile c k))) (clPwr d c) 2 0 g

/-- Change the clusters of a die to slower gears at once; a faster gear waits for its margin (R268, GEAR_RAISE_SWITCH). -/
def slowGears (s : State) (d : Nat) : State :=
  if d < 40 then forEach (List.range 16) s (fun s c => if gearOf s d c < wantedGear s d c then switchGear s d c (wantedGear s d c) else s)
  else s

/-! ### Registers reached at more than one address -/

/-- The key that holds a register's one copy: a cluster register's is reached through every tile of the cluster (R72), a module register's
through every port (R260), and the module power and Reedline registers' on S0 also through their mirror on S4 (R287, R310). -/
def canonKey (key : Nat) : Nat :=
  let sp := key / 2 ^ 52
  if sp = 0 then
    let off := key % 2 ^ 23
    if key / 2 ^ 23 % 256 < 144 ∧ 0x7F8000 ≤ off then clusterReg (keyDie key) (clusterOf (key / 2 ^ 23 % 256)) (off - 0x7F8000) else key
  else if sp = 1 then
    let off := key % 2 ^ 31
    if keyDie key = 44 ∧ ((0x20800 ≤ off ∧ off < 0x21000) ∨ (0x1F100 ≤ off ∧ off < 0x1F300)) then stationAddr 0 off else key
  else if sp = 3 then
    let off := key % 2 ^ 32
    if 0x10000 ≤ off ∧ off < 0x10200 then moduleReg (off - 0x10000) else key
  else key

/-! ### KEEP ranges (R55) -/

/-- Whether an enabled KEEP word lies inside the scratchpad with a legal size. -/
def keepLegal (w : Word) : Bool :=
  !(bit w 40) || decide (1 ≤ bits w 34 24 ∧ bits w 34 24 ≤ 1536 ∧ keepEnd w ≤ 0x600000)

/-- Whether two KEEP words are enabled and overlap. -/
def keepClash (v w : Word) : Bool :=
  bit v 40 && bit w 40 && decide (keepBase v < keepEnd w ∧ keepBase w < keepEnd v)

/-- A write of TILE_KEEPn (R55): where the values written would break a condition, BASE, SIZE, EN, WR and MODE keep their old values as one
group and the write is counted; TORN and INVALID clear where 1 is written. -/
def writeKeep (s : State) (t n : Nat) (v : Word) : State :=
  let key := keepReg t n
  let old := rd s key
  let new := writeFields key false (roseNow s key) (keyFields key) old v
  let others := (List.range 4).filter (fun m => decide (m ≠ n))
  if keepLegal new && others.all (fun m => !(keepClash new (rd s (keepReg t m)))) then wr s key new
  else
    let flags := new &&& (0x180000000000 : Word)
    addFld (wr s key ((old &&& ~~~(0x180000000000 : Word)) ||| flags)) (healthReg (t / 144) 0x48) 63 32 1

/-! ### Stall counters, streams, triggers -/

/-- STALL_CTL.SNAP: copy the 16 counters (R69). -/
def snapStalls (s : State) (t : Nat) : State :=
  forEach (List.range 16) (charge s t) (fun s i => wr s (tileReg t (0x380 + 8 * i)) (rd s (stallCnt t i)))

/-- STALL_CTL.CLR: clear the 16 counters. A CCLK in progress that an issue has already counted is counted after the clear (R69). -/
def clearStalls (s : State) (t : Nat) : State :=
  let s1 := forEach (List.range 16) (charge s t) (fun s i => wr s (stallCnt t i) 0)
  if (tileOf s t).running = true ∧ s.vco < (tileOf s t).stallAt then addStall s1 t causeNone 1 (cclk s t) else s1

/-- A write of STALL_CTL: SNAP and CLR act, FREEZE is stored; the time so far is charged under the old FREEZE. -/
def writeStallCtl (s : State) (t : Nat) (v : Word) : State :=
  let s1 := if bit v 0 then snapStalls s t else charge s t
  let s2 := if bit v 1 then clearStalls s1 t else s1
  storeReg s2 (tileReg t 0x200) v

/-- A write of a trigger entry's word: discarded and counted while the entry is armed (R183). -/
def writeTrigger (s : State) (t e w : Nat) (v : Word) : State :=
  if armed s t e then addFld s (tileReg t 0x1218) 31 0 1 else storeReg s (trigReg t e w) v

/-- A write of TILE_EVENT. A bit that an event of the same UCLK cycle keeps at 1 counts as a change and is forwarded (R13, Table 2.6). -/
def writeEvents (s : State) (t : Nat) (v : Word) : State :=
  let k := tileReg t 8
  let kept := rd s k &&& v &&& roseNow s k &&& rd s (tileReg t 0x10)
  let s1 := storeReg s k v
  if bits kept 9 0 = 0 then s1 else forwardEvent s1 t

/-- A write of a tile register. -/
def writeTileReg (s : State) (t off : Nat) (v : Word) : State :=
  if off = 8 then writeEvents s t v
  else if off = 0x200 then writeStallCtl s t v
  else if 0x80 ≤ off ∧ off < 0xA0 ∧ off % 8 = 0 then writeKeep s t ((off - 0x80) / 8) v
  else if off = 0x840 then loadStreams (storeReg s (tileReg t off) v) t
  else if 0x1000 ≤ off ∧ off < 0x1200 ∧ off % 8 = 0 then cntWrite s t ((off - 0x1000) / 8) (bits v 31 0)
  else if 0x2000 ≤ off ∧ off < 0x4000 ∧ off % 8 = 0 then writeTrigger s t ((off - 0x2000) / 32) (off % 32 / 8) v
  else storeReg s (tileReg t off) v

/-! ### Registers of one owner -/

/-- Whether only the administration port may write a register: MPWR_CAP (R276), MERE_RESLIM (R280), the Reedline registers (R326). -/
def adminOnly (key : Nat) : Bool :=
  decide (key = s0Power 0x808 ∨ key = s0Power 0x840) || decide (s0Health 0xF200 ≤ key ∧ key < s0Health 0xF300)

/-- A write of RL_KEYi: the word is held, and RL_KEY3 installs the key (R326): KEY_SET, RL_CMDCTR 0, the reply cache empty. The key that was set at
the start of the UCLK cycle is noted (R327). -/
def writeKey (s : State) (i : Nat) (v : Word) : State :=
  let s1 := updM s (fun m => { m with reedline := { m.reedline with stage := spSet m.reedline.stage 0 i v } })
  if i = 3 then
    let key := (List.range 4).flatMap (fun j => leBytes 8 (spGet s1.m.reedline.stage 0 j).toNat)
    let old := if bit (rd s1 (s0Health 0xF208)) 3 then some ⟨s1.m.reedline.key, rd s1 (s0Health 0xF258), s1.m.reedline.cache⟩ else none
    let s2 := { wr (setBit s1 (s0Health 0xF208) 3) (s0Health 0xF258) 0 with tick := { s1.ticks with oldKey := s1.ticks.oldKey.or old } }
    updM s2 (fun m => { m with reedline := { m.reedline with key := key, cache := none } })
  else s1

/-- Restart the selection of the Reedline mode from NODE_ID (R319): CSMA/CD for 255, a follower for 1 to 254, and for 0 a candidate that
listens for 20 ms plus a draw of µs. -/
def restartSelection (s : State) (draw : Nat) : State :=
  let id := fld s (s0Health 0xF200) 7 0
  let s1 := setFld s (s0Health 0xF208) 1 0 (if id = 255 then 0 else if id = 0 then 3 else 1)
  updM s1 (fun m => { m with reedline := { m.reedline with
    listenEnd := s.now + 20000000 + draw * 1000, lastBeacon := s.now, fallback := false } })

/-- A free value, and the state in which the next one differs. -/
def takeFree (s : State) : State × Word := ({ s with fresh := s.fresh + 1 }, Config.freeWord s.fresh)

/-- Write a register: what its fields take under R342 and what the write does beside. `admin` tells whether the administration port
writes. -/
def writeReg (s : State) (admin : Bool) (key0 : Nat) (v : Word) : State :=
  let key := canonKey key0
  let sp := key / 2 ^ 52
  if adminOnly key && !admin then s
  else if sp = 0 ∧ key / 2 ^ 23 % 256 < 144 ∧ key % 2 ^ 23 < 0x7F8000 then
    writeTileReg (wakeT1 s (dgaTile key)) (dgaTile key) (key % 2 ^ 23 - 0x7F0000) v
  else if s0Health 0xF210 ≤ key ∧ key < s0Health 0xF230 then writeKey s ((key - s0Health 0xF210) / 8) v
  else if key = s0Health 0xF200 then
    let f := takeFree (storeReg s key v)
    restartSelection f.1 (f.2.toNat % 5001)
  else if sp ≤ 1 ∧ key = powerReg (keyDie key) 0x18 then slowGears (storeReg s key v) (keyDie key)
  else storeReg s key v

/-- Read a register through its one copy, clearing its RC fields (R14). -/
def readRegAt (s : State) (key : Nat) : State × Word :=
  let k := canonKey key
  let isTile := decide (key / 2 ^ 52 = 0 ∧ key / 2 ^ 23 % 256 < 144 ∧ key % 2 ^ 23 < 0x7F8000)
  let isRamp := decide (key / 2 ^ 31 < 40 ∧ key = tebReg (key / 2 ^ 31) 0x30)
  let s0 := if isTile then wakeT1 s (dgaTile key) else if isRamp then settleRamp s (key / 2 ^ 31) else s
  if k = key then readReg s0 key else ((readReg s0 k).1, regView s0 key)

end Sys2Proof.Machine
end

