-- ==== Sys2Proof/Machine/Alerts.lean ====
section
/-!
DEFINITION. What the engine tells and keeps: the defect map, journal and ledger records, Reedline messages and alarms
(R223, R254, R290, R316, R323, R324, R326).

What the spec leaves open here: log entries 14 and 90.
-/

namespace Sys2Proof.Machine

/-! ### The defect map (R254, R290) -/

/-- A bit map of 5,760 tiles as 720 bytes. -/
def tileMap (good : Nat → Bool) : List Byte :=
  (List.range 720).map (fun b => BitVec.ofNat 8 (bitsOf ((List.range 8).map (fun i => good (8 * b + i)))))

/-- The canonical defect map with every tile of some dies set to 0. -/
def defectMap (s : State) (without : List Nat) : List Byte :=
  tileMap (fun t => goodTile s t && !(without.contains (t / 144)))

/-- Its SHA-256. -/
def mapHash (s : State) (without : List Nat) : List Byte := sha256 (defectMap s without)

/-- The fenced dies as a mask. -/
def fencedMask (s : State) : Nat := bitsOf ((List.range 48).map (fun d => s.m.fencedDies.contains d))

/-- The dies of a mask. -/
def maskDies (m : Nat) : List Nat := (List.range 48).filter (fun d => m.testBit d)

/-! ### The journal (Table 8.8) -/

/-- A journal record with its CRC. -/
def journalRec (type part step : Nat) (w1 w2 : Nat) : JournalRec :=
  let a := type + part * 16 + step % 2 ^ 32 * 2 ^ 32
  let c := crc32 (leBytes 8 a ++ leBytes 8 w1 ++ leBytes 8 w2 ++ leBytes 4 0)
  ⟨BitVec.ofNat 64 a, BitVec.ofNat 64 w1, BitVec.ofNat 64 w2, BitVec.ofNat 64 (c.toNat * 2 ^ 32)⟩

/-- The first of the extents that the engine keeps for itself (Table 8.1). -/
def physLimit : Nat := 196608 - 1024

/-- A page enters the write buffer of a station die, where it does not stand in it yet (R213, R223). -/
def bufPage (s : State) (n : Nat) (part : Option PartId) (kind : WriteKind) (phys page : Nat) : State :=
  if (stationOf s n).wbuf.any (fun b => decide (b.phys = phys ∧ b.page = page)) then s
  else updStation s n (fun x => { x with wbuf := x.wbuf ++ [⟨part, kind, phys, page, s.now⟩] })

/-- Pages of an extent enter the write buffer, and the parity page of each of their rows (R205). -/
def bufPages (s : State) (n : Nat) (part : Option PartId) (kind : WriteKind) (phys : Nat) (pages : List Nat) : State :=
  forEach pages s (fun s g => bufPage (bufPage s n part kind phys g) n part kind phys (3840 + g / 15))

/-- A station die journals a record (R223): it is durable in the write buffer, in the journal's page of 512 records. -/
def journal (s : State) (n : Nat) (r : JournalRec) : State :=
  let at_ := (stationOf s n).journal.length / 512 % 3840
  bufPages (updStation s n (fun x => { x with journal := x.journal ++ [r] })) n (some (Fin.ofNat 8 (bits r.w0 6 4))) .journal physLimit [at_]

/-- Whether a record's CRC is right (Table 8.8). -/
def JournalRec.sound (r : JournalRec) : Bool :=
  decide (bits r.w3 63 32 = (crc32 (leBytes 8 r.w0.toNat ++ leBytes 8 r.w1.toNat ++ leBytes 8 r.w2.toNat ++ leBytes 4 (bits r.w3 31 0))).toNat)

/-- The journal as a replay reads it: up to the first record with a failing CRC (R224). -/
def soundJournal (x : Station) : List JournalRec := x.journal.takeWhile JournalRec.sound

/-- The code of a class in records and entries (Tables 8.8, 9.15). -/
def ExtClass.code : ExtClass → Nat
  | .d => 0
  | .w => 1
  | .s => 2
  | .r => 3
  | .g => 4
  | .k => 5

/-- The class of a code. -/
def ExtClass.ofCode (n : Nat) : Option ExtClass := [ExtClass.d, .w, .s, .r, .g, .k][n]?

/-! ### The life ledger (Table 12.6) -/

/-- The home station die of a die's ledger (R316). -/
def homeOf (d : Nat) : Nat := if 40 ≤ d then d - 40 else if d / 8 ≤ 2 then d % 8 / 2 else 4 + d % 8 / 2

/-- The records that an extent holds: each page of 256 records is written twice, so 1,920 of its 3,840 pages (log 14). -/
def ledgerRoom : Nat := 1920 * 256

/-- The records of a die's ledger. -/
def ledgerOf (s : State) (d : Nat) : List LedgerRec := (stationOf s (homeOf d)).ledger.filter (fun r => decide (r.die.val = d))

/-- The CRC over the first 60 bytes of a record. -/
def LedgerRec.crc (ws : List Word) : Nat := (crc32 ((ws.take 7).flatMap (fun w => leBytes 8 w.toNat) ++ leBytes 4 (bits (ws.getD 7 0) 31 0))).toNat

/-- Whether a record's CRC is right (Table 12.6). -/
def LedgerRec.sound (r : LedgerRec) : Bool := decide (bits (r.words.getD 7 0) 63 32 = LedgerRec.crc r.words)

/-- The number of a record. -/
def LedgerRec.number (r : LedgerRec) : Nat := bits (r.words.getD 1 0) 31 0

/-- Append a record to a die's ledger: words 2 to 6 as given. A die's records are numbered from 0 (log 14). The page and its copy on another channel
enter the write buffer. -/
def appendRecord (s : State) (d type : Nat) (ws : List Nat) : State :=
  let n := match (ledgerOf s d).getLast? with
    | some r => r.number + 1
    | none => 0
  let w := (([type + d * 16 + s.now % 2 ^ 48 * 2 ^ 16, n % 2 ^ 32] ++ ws ++ [0, 0, 0, 0, 0]).take 7).map (BitVec.ofNat 64)
  let words := w ++ [BitVec.ofNat 64 (LedgerRec.crc w * 2 ^ 32)]
  let at_ := (stationOf s (homeOf d)).ledger.length / 256 % 1920
  bufPages (updStation s (homeOf d) (fun x => { x with ledger := x.ledger ++ [⟨Fin.ofNat 48 d, words⟩] })) (homeOf d) none .journal
    (physLimit + 1) [2 * at_, 2 * at_ + 1]

/-- Minutes a die has been powered. -/
def poweredMinutes (s : State) (l : Life) : Nat :=
  (l.powered + (match l.onAt with | some a => s.now - a | none => 0)) / 60000000000

/-- Link CRC errors of a die: its four HB_LINK sums. -/
def linkCrc (s : State) (d : Nat) : Nat := ([0, 1, 2, 3].map (fun e => fld s (healthReg d (0x50 + 8 * e)) 23 0)).foldl (fun a b => a + b) 0

/-- Spare lanes in use on a die's links. -/
def linkSpares (s : State) (d : Nat) : Nat := ([0, 1, 2, 3].map (fun e => fld s (healthReg d (0x50 + 8 * e)) 55 48)).foldl (fun a b => a + b) 0

/-- The words 2 to 6 of an HOURLY, SHUTDOWN or SUMMARY record. -/
def lifeWords (s : State) (d : Nat) : List Nat :=
  let l := (dieOf s d).life
  let cycles := l.cycles + (if l.tLow + 40 < l.tHigh then 1 else 0)
  [poweredMinutes s l % 2 ^ 32 + cycles % 2 ^ 16 * 2 ^ 32 + l.tHigh % 256 * 2 ^ 48 + max l.peak l.tHigh % 256 * 2 ^ 56,
   l.dayMin + l.margin * 2 ^ 16 + (l.ue + fld s (healthReg d 0x40) 63 48) % 2 ^ 32 * 2 ^ 32,
   l.ce + fld s (healthReg d 0x40) 47 0,
   (l.crc + linkCrc s d) % 2 ^ 32 + linkSpares s d % 256 * 2 ^ 32
     + (s.m.fencedTiles.filter (fun t => decide (t / 144 = d))).length % 256 * 2 ^ 40 + l.faults % 256 * 2 ^ 48,
   if 40 ≤ d then (rd s (psbReg (d - 40) 8)).toNat else 0]

/-- Write a ledger record of a die. Where it fills the extent, a SUMMARY record with every total goes into a new one and the old one is freed (R316). -/
def ledger (s : State) (d type : Nat) (ws : List Nat) : State :=
  let s1 := appendRecord s d type ws
  if (ledgerOf s1 d).length < ledgerRoom then s1
  else
    let s2 := appendRecord s1 d 3 (lifeWords s1 d)
    let last := (ledgerOf s2 d).getLast?
    updStation s2 (homeOf d) (fun x => { x with ledger := x.ledger.filter (fun r => decide (r.die.val ≠ d ∨ some r = last)) })

/-- Write the periodic record of a die and begin a new period. A SHUTDOWN record stands for a HOURLY record due at the same instant (R316). -/
def ledgerPeriod (s : State) (d type : Nat) : State :=
  let s1 := ledger s d type (lifeWords s d)
  let x := dieOf s1 d
  let l := x.life
  setDie s1 d { x with life := { l with
    cycles := l.cycles + (if l.tLow + 40 < l.tHigh then 1 else 0)
    peak := max l.peak l.tHigh
    tLow := 255
    tHigh := 0
    hourAt := if type = 2 then max l.hourAt ((s1.now / 3600000000000 + 1) * 3600000000000) else l.hourAt } }

/-! ### Reedline messages (R323, R326) -/

/-- The tag of a message: the first 16 bytes of HMAC-SHA-256 over the module ID and the message. -/
def tagOf (s : State) (msg : List Byte) : List Byte := (hmac256 s.m.reedline.key (s.m.fuses.moduleId ++ msg)).take 16

/-- Whether a key is set. -/
def keySet (s : State) : Bool := bit (rd s (s0Health 0xF208)) 3

/-- A message of the module: header, body, and a tag once a key is set. -/
def message (s : State) (type : Nat) (again : Bool) (status ctr : Nat) (body : List Byte) : List Byte :=
  let auth := keySet s
  let len := 16 + body.length + (if auth then 16 else 0)
  let m := [1, BitVec.ofNat 8 type] ++ leBytes 2 len ++ [BitVec.ofNat 8 (b2n auth + 2 * b2n again), BitVec.ofNat 8 status, 0, 0] ++ leBytes 8 ctr ++ body
  if auth then m ++ tagOf s m else m

/-- Put a message on the segment. -/
def reedSend (s : State) (m : List Byte) : State := updM s (fun x => { x with reedline := { x.reedline with sent := x.reedline.sent ++ [m] } })

/-- The message of an alarm. -/
def alarmMessage (s : State) (a : Alarm) (again : Bool) : List Byte :=
  message s 0x10 again 0 a.ctr.toNat
    (leBytes 8 (a.code.toNat + (match a.part with | some p => p.val * 2 ^ 16 + 2 ^ 19 | none => 0) + a.detail.toNat * 2 ^ 32) ++ leBytes 8 a.sentAt)

/-- Send an alarm (R324); one equal to an alarm of the last second is counted as suppressed. -/
def alarm (s : State) (code : Nat) (part : Option Nat) (detail : Nat) : State :=
  let k := s0Health 0xF250
  let det := BitVec.ofNat 32 detail
  let same := s.m.reedline.alarms.any (fun a => decide (a.code = BitVec.ofNat 16 code ∧ a.detail = det ∧ s.now < a.sentAt + 1000000000))
  if same then addFld s k 63 32 1
  else
    let s1 := addFld s k 31 0 1
    let a : Alarm := ⟨BitVec.ofNat 32 (fld s1 k 31 0), BitVec.ofNat 16 code, part.map (Fin.ofNat 8), det, s.now, 1, decide (code = 0x12)⟩
    reedSend (updM s1 (fun x => { x with reedline := { x.reedline with alarms := x.reedline.alarms ++ [a] } })) (alarmMessage s1 a false)

/-! ### Completions (R242) -/

/-- Complete a command: the entry waits in the port to be written. -/
def complete (s : State) (c : HostCmd) (status detail : Nat) (result : Nat) : State :=
  updPort s c.port.val (fun x => { x with
    done := x.done ++ [⟨c.q, BitVec.ofNat 16 (bits c.w0 31 16), BitVec.ofNat 8 status, BitVec.ofNat 8 detail, BitVec.ofNat 64 result⟩] })

/-! ### Sideband outputs (Table 13.7) -/

/-- WAKEn# is asserted: the port is in D3hot with PME enabled and holds an event. -/
def wakeAsserted (s : State) (n : Nat) : Bool := (portOf s n).d3 && (portOf s n).pmeEn && !((portOf s n).events.isEmpty)

/-- MOD_ALERT# is asserted: it stands while any of its conditions does (R335). -/
def alertAsserted (s : State) : Bool :=
  let i := rd s (s0Power 0x800)
  !(bit i 40) || !(bit i 41) || bit (rd s (s0Power 0x808)) 48 || bit (rd s (s0Power 0x818)) 12 || bit (rd s (s0Power 0x818)) 13
    || s.dies.any (fun d => decide (d.2.thermGear ≠ 0)) || s.m.power.alertCoolant || bit (rd s modStatus) 1

end Sys2Proof.Machine
end

