-- ==== Sys2Proof/Machine/Net.lean ====
section
/-!
DEFINITION. The bulk network as its senders see it: route tables, the die-level path, the choice of plane, the header of a packet and its
injection (R152 to R163, R178, R235, R236, R250).

What the spec leaves open here: log entries 7, 10, 11, 18, 27 and 58.
-/

namespace Sys2Proof.Machine

/-! ### Route tables (R159, R160, R178) -/

/-- Key of word `w` of a route table. -/
def routeKey (d g : Nat) (pl : Plane) (w : Nat) : Nat := ncbReg d (0x100 + 0x80 * g + 0x40 * planeNum pl + 8 * w)

/-- The entry of a die for a destination. On a station die its own entry is LOCAL and those of other station dies are NOROUTE (R159). -/
def routeEntry (s : State) (g : Nat) (pl : Plane) (d dst : Nat) : Nat :=
  if 40 ≤ d ∧ 40 ≤ dst then (if d = dst then 0 else 7)
  else bits (rd s (routeKey d g pl (dst / 8))) (8 * (dst % 8) + 7) (8 * (dst % 8))

/-- EXIT of an entry: 0 LOCAL, 1 north, 2 east, 3 south, 4 west, 7 NOROUTE (Table 6.3). -/
def exitOf (e : Nat) : Nat := e % 8

/-- The die entered by leaving a die through an exit: the neighbour, or the station die that an outer edge faces; from a station die the
western or eastern compute die that SIDE names (R18, R19, R159). -/
def exitDie (d ex side : Nat) : Option Nat :=
  if 40 ≤ d then
    (if d < 44 then (if ex = 3 then some (2 * (d - 40) + side) else none)
     else if ex = 1 then some (32 + 2 * (d - 44) + side) else none)
  else match ex with
    | 1 => some (if 8 ≤ d then d - 8 else 40 + d / 2)
    | 2 => if d % 8 < 7 then some (d + 1) else none
    | 3 => some (if d < 32 then d + 8 else 44 + d % 8 / 2)
    | 4 => if 0 < d % 8 then some (d - 1) else none
    | _ => none

/-- The die-level path: each step's die, exit and next die. It stops at the destination, at an entry that names no exit, and at a station
die, which no packet transits. -/
def walk (s : State) (g : Nat) (pl : Plane) (dst : Nat) : Nat → Nat → List (Nat × Nat × Nat)
  | 0, _ => []
  | fuel + 1, cur =>
    if cur = dst then []
    else
      let e := routeEntry s g pl cur dst
      match exitDie cur (exitOf e) (e / 8 % 2) with
      | none => []
      | some n => (cur, exitOf e, n) :: (if 40 ≤ n then [] else walk s g pl dst fuel n)

/-- Whether a crossing is usable on a plane: NCB_XING of its compute die (R165). -/
def crossingUsable (s : State) (pl : Plane) (step : Nat × Nat × Nat) : Bool :=
  let d := step.1
  let edge := if d < 40 then step.2.1 - 1 else (step.2.1 + 1) % 4
  bit (rd s (ncbReg (if d < 40 then d else step.2.2) 0x10)) (2 * edge + planeNum pl)

/-- The current generation of a die's tables (R160). -/
def genOf (s : State) (d : Nat) : Nat := b2n (dieOf s d).genCur

/-- The module's current generation: that of the signal box's die. -/
def boxGen (s : State) : Nat := genOf s (boxDie s)

/-- Whether a die may send to a destination on a plane: the plane is enabled, the entry is not NOROUTE, and no crossing of the path is unusable
(R162, R165). -/
def planeOk (s : State) (d dst : Nat) (pl : Plane) : Bool :=
  bit (rd s (ncbReg d 0)) (planeNum pl) && decide (exitOf (routeEntry s (genOf s d) pl d dst) ≠ 7)
    && (walk s (genOf s d) pl dst 47 d).all (crossingUsable s pl)

/-- The other plane. -/
def otherPlane : Plane → Plane
  | .up => .down
  | .down => .up

/-- The plane that a sender uses when it wants one (R162); `none` where neither has a route. -/
def planeFor (s : State) (d dst : Nat) (want : Plane) : Option Plane :=
  if planeOk s d dst want then some want
  else if planeOk s d dst (otherPlane want) then some (otherPlane want)
  else none

/-- The plane of a PLANE field: explicit, or the source hash (R162). -/
def planeWanted (field srcTile dstTile addr : Nat) : Plane :=
  if field = 1 then .up else if field = 2 then .down
  else if (srcTile.testBit 0 != dstTile.testBit 0) != (addr.testBit 11 != addr.testBit 12) then .down else .up

/-! ### Headers (Table 6.1, R154, R236) -/

/-- DST_DIE and DST_TILE of an address: on a station die the unit, 0 control, 1 outlet, 2 host port, 3 Peat. -/
def dstOf (a : Nat) : Nat × Nat :=
  let sp := a / 2 ^ 52 % 16
  if sp = 0 then (dgaDie a, dgaIndex a)
  else if sp = 1 then (dgaDie a, if 0x40000000 ≤ a % 2 ^ 31 then 1 else 0)
  else if sp = 2 then (40 + a / 2 ^ 26 % 8, 3)
  else (40 + sp % 8, 2)

/-- The channel of a request (R154). -/
def channelFor (dstDie : Nat) : BitVec 2 := if 40 ≤ dstDie then 3 else 0

/-- PL64, TAILB and INLEN of `n` bytes: inline up to 32 bytes, which R152 allows (log 10). -/
def payloadSizes (n : Nat) : Nat × Nat × Nat := if n ≤ 32 then (0, 0, n) else ((n + 63) / 64, n % 64, 0)

/-- A request from a source to an address. The plane is filled in at injection. -/
def request (srcDie srcTile part type addr tag : Nat) (data : List Byte) : Packet :=
  let dst := dstOf addr
  let z := payloadSizes data.length
  { ch := channelFor dst.1, type := BitVec.ofNat 4 type, plane := .up, tgen := false
    dstDie := BitVec.ofNat 6 dst.1, dstTile := BitVec.ofNat 8 dst.2
    srcDie := BitVec.ofNat 6 srcDie, srcTile := BitVec.ofNat 8 srcTile
    pl64 := BitVec.ofNat 6 z.1, tailb := BitVec.ofNat 6 z.2.1, inlen := BitVec.ofNat 6 z.2.2
    part := BitVec.ofNat 3 part, poison := false, nakr := 0, addr := BitVec.ofNat 56 addr, rcnt := 0, rcEn := false
    tag := BitVec.ofNat 16 tag, xdata := 0, injTime := 0, hops := 0, group := 0, seg := 0, data := data }

/-- A response to a packet: on DATA to its source, with its TAG and address, on the plane that it arrived on (R153, R162). -/
def response (p : Packet) (type nakr : Nat) (data : List Byte) : Packet :=
  let z := payloadSizes data.length
  { ch := 1, type := BitVec.ofNat 4 type, plane := p.plane, tgen := false
    dstDie := p.srcDie, dstTile := p.srcTile, srcDie := p.dstDie, srcTile := p.dstTile
    pl64 := BitVec.ofNat 6 z.1, tailb := BitVec.ofNat 6 z.2.1, inlen := BitVec.ofNat 6 z.2.2
    part := p.part, poison := false, nakr := BitVec.ofNat 3 nakr, addr := p.addr, rcnt := 0, rcEn := false
    tag := p.tag, xdata := 0, injTime := 0, hops := 0, group := 0, seg := 0, data := data }

/-- The flits of a packet (R152). -/
def packetFlits (p : Packet) : Nat := 1 + (p.pl64.toNat + 1) / 2

/-- The tile a packet is from. -/
def packetSrc (p : Packet) : Nat := p.srcDie.toNat * 144 + p.srcTile.toNat
/-- The tile a packet is for. -/
def packetDst (p : Packet) : Nat := p.dstDie.toNat * 144 + p.dstTile.toNat

/-- Whether a packet is a response. -/
def isResponse (p : Packet) : Bool := decide (2 ≤ p.type.toNat ∧ p.type.toNat ≤ 4)

/-- The reason that poisoned data is refused with: LINK where a link cut the packet, else POISON (Table 6.3, R165). -/
def poisonWhy (p : Packet) : Nat := if p.nakr = 5 then 5 else 2

/-! ### The tile as a target: registers in whole words (R343) -/

/-- Whether a range keeps the register-space rule: an 8-byte boundary and whole words. -/
def wholeWords (off n : Nat) : Bool := decide (off % 8 = 0 ∧ n % 8 = 0 ∧ 0 < n)

/-- Write consecutive register words from an address. -/
def writeRegs (s : State) (admin : Bool) (key : Nat) : List Word → State
  | [] => s
  | w :: ws => writeRegs (writeReg s admin key w) admin (key + 8) ws

/-- Read consecutive register words from an address. -/
def readRegs (s : State) (key : Nat) : Nat → State × List Byte
  | 0 => (s, [])
  | n + 1 =>
    let r := readRegAt s key
    let rest := readRegs r.1 (key + 8) n
    (rest.1, leBytes 8 r.2.toNat ++ rest.2)

end Sys2Proof.Machine
end

