-- ==== Sys2Proof/Machine/Arbiter.lean ====
section
/-!
DEFINITION. The weighted deficit round robin of the resources that partitions share in time (R248, R249).

What the spec leaves open here: log entry 100.
-/

namespace Sys2Proof.Machine

/-- The time over which minimum shares and weights are counted, and the longest turn, in ns (R249). -/
def drrRound : Nat := 2000000
/-- The longest turn. -/
def drrTurn : Nat := 250000

/-- The admission number of a partition. -/
def admission (s : State) (p : PartId) : Nat := fld s (partReg p.val 0) 63 32

/-- Insert a partition by its admission number. -/
def byAdmission (s : State) (p : PartId) : List PartId → List PartId
  | [] => [p]
  | q :: qs => if admission s p < admission s q then p :: q :: qs else q :: byAdmission s p qs

/-- Partitions in admission order, each once. -/
def inOrder (s : State) (ps : List PartId) : List PartId := ps.eraseDups.foldl (fun l p => byAdmission s p l) []

/-- A partition's minimum of the Peat's channel time per round: none where it is withdrawn (R252). -/
def peatLeast (s : State) (p : PartId) : Nat :=
  if (fld s (partReg p.val 0x10) 7 3).testBit 2 then 0 else fld s (partReg p.val 8) 7 0 * drrRound / 100

/-- A partition's quantum: its minimum share of a round, and its weight's part of what the minimums of the partitions with work leave (R249). -/
def quantum (s : State) (least : PartId → Nat) (work : List PartId) (p : PartId) : Nat :=
  let weight (q : PartId) : Nat := fld s (partReg q.val 0) 29 22
  let all := (work.map weight).foldl (fun a b => a + b) 0
  least p + (if all = 0 then 0 else (drrRound - (work.map least).foldl (fun a b => a + b) 0) * weight p / all)

/-- The next partition after one in a rotation. -/
def nextAfter (s : State) (last : Option PartId) (ps : List PartId) : Option PartId :=
  match last with
  | none => ps.head?
  | some q => (ps.find? (fun p => decide (admission s q < admission s p))).or ps.head?

/-- The arbiter with the turn that stands now among the partitions with work: the one under way while its partition has work, deficit and time
left, else the next partition's, whose deficit grows by its quantum. A partition with neither weight nor minimum has a turn only where no
other has work. -/
def Drr.now (s : State) (least : PartId → Nat) (work : List PartId) (d : Drr) : Drr :=
  let ps := inOrder s work
  let goesOn := match d.turn with
    | some q => ps.contains q && decide (0 < spGet d.deficit 0 q.val ∧ d.used < drrTurn)
    | none => false
  if goesOn then d
  else
    let due := ps.filter (fun p => decide (0 < quantum s least ps p))
    match nextAfter s d.turn (if due.isEmpty then ps else due) with
    | none => d
    | some p => ⟨some p, 0, spSet d.deficit 0 p.val (spGet d.deficit 0 p.val + quantum s least ps p)⟩

/-- The arbiter after the partition whose turn it is has used some ns of the resource. -/
def Drr.spend (d : Drr) (ns : Nat) : Drr :=
  match d.turn with
  | some p => { d with used := d.used + ns, deficit := spSet d.deficit 0 p.val (spGet d.deficit 0 p.val - ns) }
  | none => d

/-- The arbiters of a station die. -/
def drrOf (s : State) (n k : Nat) : Drr := spGet (stationOf s n).arbs Drr.reset k

/-- Replace an arbiter of a station die. -/
def setDrr (s : State) (n k : Nat) (d : Drr) : State := updStation s n (fun x => { x with arbs := spSet x.arbs Drr.reset k d })

/-! ### The ejection of a station die's routers (R248) -/

/-- The ns in which a packet's flits leave a router (R248): flits cross at 1.4 GHz. -/
def ejectNs (p : Packet) : Nat := ceilDiv (packetFlits p * 5) 7

end Sys2Proof.Machine
end

