-- ==== Sys2Proof/Machine/Inject.lean ====
section
/-!
DEFINITION. The way of a packet through the routers (R158), the sidings that its flits take (R155 to R157), its injection at its source (R160,
R162, R186, R196, R250) and its end.

The flits behind a head flit that has won its output follow it as far as credits last; a packet that arrives leaves every siding it holds.

What the spec leaves open here: log entries 7, 10, 11, 18, 27, 28, 30, 38, 58 and 108.
-/

namespace Sys2Proof.Machine

/-! ### Packets and their way -/

/-- Whether a packet is one of those that a way carries: the packet of one of its destinations, whatever HOPS has reached. -/
def Worm.carries (w : Worm) (p : Packet) : Bool :=
  decide ({ w.p with hops := p.hops, dstDie := p.dstDie, dstTile := p.dstTile } = p) && w.dests.contains (p.dstDie, p.dstTile)

/-- The way of a packet in flight. -/
def wormOf (s : State) (p : Packet) : Option Worm := s.m.worms.find? (fun w => w.carries p)

/-- The way of a number. -/
def wormById (s : State) (id : Nat) : Option Worm := s.m.worms.find? (fun w => decide (w.id = id))

/-- Replace a way. -/
def setWorm (s : State) (w : Worm) : State :=
  updM s (fun m => { m with worms := m.worms.map (fun v => if v.id = w.id then w else v) })

/-- Whether two packets share all that orders them: source, destination, channel, plane and TGEN (R163). -/
def sameStream (p q : Packet) : Bool :=
  decide (p.srcDie = q.srcDie ∧ p.srcTile = q.srcTile ∧ p.dstDie = q.dstDie ∧ p.dstTile = q.dstTile ∧ p.ch = q.ch ∧ p.plane = q.plane ∧ p.tgen = q.tgen)

/-- Whether a packet in flight cannot arrive yet: it has not begun to enter the network, or an earlier one of its stream is still on its way
(R163). -/
def early (s : State) (p : Packet) : Bool :=
  match wormOf s p with
  | none => false
  | some w => decide (w.inj = 0) || s.m.worms.any (fun v => sameStream v.p w.p && decide (0 < v.inj ∧ v.inj < w.inj))

/-- The router that the head of a way has reached. -/
def Worm.head (w : Worm) : Option Nat := w.hops.getLast?.map (fun h => h.port / 64)

/-! ### Dimension order (R158) -/

/-- The source column: SRC_TILE mod 12; for a die block's packet the column of the router that injects it, or of the router itself where the
packet is not in flight. -/
def srcCol (s : State) (p : Packet) (t : Nat) : Nat :=
  if p.srcTile.toNat = 255 then (match wormOf s p with
    | some w => w.start % 12
    | none => t % 12)
  else p.srcTile.toNat % 12

/-- The destination column, or the source column where the destination has none. -/
def dstCol (s : State) (p : Packet) (t : Nat) : Nat :=
  if 40 ≤ p.dstDie.toNat ∨ p.dstTile.toNat = 255 then srcCol s p t else p.dstTile.toNat % 12

/-- One move inside a die toward a target tile, X first, and `last` at the target. -/
def toward (t tx ty : Nat) (last : Dir) : Dir :=
  if t % 12 < tx then .east
  else if tx < t % 12 then .west
  else if t % 144 / 12 < ty then .south
  else if ty < t % 144 / 12 then .north
  else last

/-- The output port of a router for a packet; `none` where the table names no exit. -/
def outDir (s : State) (p : Packet) (t : Nat) : Option Dir :=
  let d := t / 144
  if p.dstDie.toNat = d then
    (if p.dstTile.toNat = 255 then some .local else some (toward t (p.dstTile.toNat % 12) (p.dstTile.toNat / 12) .local))
  else match exitOf (routeEntry s (b2n p.tgen) p.plane d p.dstDie.toNat) with
    | 1 => some (toward t (if d < 8 then srcCol s p t else dstCol s p t) 0 .north)
    | 2 => some (toward t 11 (t % 144 / 12) .east)
    | 3 => some (toward t (if 32 ≤ d then srcCol s p t else dstCol s p t) 11 .south)
    | 4 => some (toward t 0 (t % 144 / 12) .west)
    | _ => none

/-- The router at which a packet enters the mesh: its source tile's, the one a station die injects it at, and for a die block's response the one
that delivered the request (R158), which is known while the packet is in flight. -/
def entryRouter (s : State) (p : Packet) : Option Nat :=
  let d := p.srcDie.toNat
  if d < 40 then
    (if p.srcTile.toNat < 144 then some (packetSrc p) else (wormOf s p).map (fun w => w.start))
  else
    let e := routeEntry s (b2n p.tgen) p.plane d p.dstDie.toNat
    match exitDie d (exitOf e) (e / 8 % 2) with
    | some n => some (n * 144 + (if d < 44 then 0 else 132) + dstCol s p 0)
    | none => none

/-- The routers of a packet's way from a router on, that router included. -/
def pathFrom (s : State) (p : Packet) : Nat → Nat → List Nat
  | 0, _ => []
  | fuel + 1, t =>
    t :: (match outDir s p t with
      | none => []
      | some dir => match neighbour t dir with
        | none => []
        | some n => pathFrom s p fuel n)

/-- The routers of a packet's way: at most 154 hops from corner to corner and the detours of 47 die steps. -/
def pathOf (s : State) (p : Packet) : List Nat :=
  match entryRouter s p with
  | some t => pathFrom s p 1200 t
  | none => []

/-- Whether a packet in flight cannot be served yet at a router of its way: it has not begun to enter the network, or an earlier one of its stream
has not passed that router (R163). -/
def earlyAt (s : State) (t : Nat) (p : Packet) : Bool :=
  match wormOf s p with
  | none => false
  | some w => decide (w.inj = 0) || s.m.worms.any (fun v => sameStream v.p w.p && decide (0 < v.inj ∧ v.inj < w.inj)
      && (match v.head with
          | some r => let way := pathOf s v.p; decide (way.idxOf r ≤ way.idxOf t)
          | none => true))

/-- The port at which a packet in flight stands at a router. -/
def portAt (s : State) (t : Nat) (p : Packet) : Option Nat :=
  (wormOf s p).bind (fun w => (w.hops.find? (fun h => decide (h.port / 64 = t))).map (fun h => h.port % 32))

/-! ### Sidings and credits (R155, R156) -/

/-- Replace the sidings of a port. -/
def setSidings (s : State) (k : Nat) (g : Sidings) : State := updM s (fun m => { m with sidings := spSet m.sidings ⟨[], []⟩ k g })

/-- How many sidings of one pool a channel holds, as the upstream router counts them: those with a flit and those whose credit is not back. -/
def Sidings.held (g : Sidings) (ch : BitVec 2) (shared : Bool) : Nat :=
  (g.flits.filter (fun f => decide (f.ch = ch ∧ f.shared = shared))).length + (g.back.filter (fun b => decide (b = (ch, shared)))).length

/-- How many shared sidings all channels hold. -/
def Sidings.pool (g : Sidings) : Nat := (g.flits.filter (fun f => f.shared)).length + (g.back.filter (fun b => b.2)).length

/-- The pool of the siding that the next flit of a channel takes (R155): a reserved one of its channel while one of the 8 is free, else a shared
one of the 96, of which `kept` are kept back, while the channel holds fewer than 96; `none` where there is no credit. -/
def Sidings.credit (g : Sidings) (ch : BitVec 2) (kept : Nat) : Option Bool :=
  if g.held ch false < 8 then some false
  else if g.held ch false + g.held ch true < 96 ∧ g.pool + kept < 96 then some true
  else none

/-- The shared sidings of a port that a packet may not take: a landing record keeps 17 COLL sidings of the tile's local output for the packets
of its broadcast (R192). -/
def keptSidings (s : State) (p : Packet) (k : Nat) : Nat :=
  if k % 32 = 5 ∧ p.ch = 2 ∧ p.type ≠ 0xA then 17 * ((tileOf s (k / 64)).coll.land p.plane).length else 0

/-- Whether the next flit of a packet has a siding at a port. -/
def mayTake (s : State) (p : Packet) (k : Nat) : Bool := ((sidingsAt s k).credit p.ch (keptSidings s p k)).isSome

/-- A flit of a packet takes a siding of a port. -/
def putFlit (s : State) (w : Worm) (k : Nat) : State :=
  let g := sidingsAt s k
  match g.credit w.p.ch (keptSidings s w.p k) with
  | some sh => setSidings s k { g with flits := g.flits ++ [⟨w.p.ch, sh, w.id⟩] }
  | none => s

/-- The oldest flit of a channel leaves its siding, where it is one of a packet's; its credit is on its way back. -/
def Sidings.leave (g : Sidings) (ch : BitVec 2) (id : Nat) : Option Sidings :=
  match g.flits.find? (fun f => decide (f.ch = ch)) with
  | some f => if f.worm = id then some ⟨g.flits.erase f, g.back ++ [(ch, f.shared)]⟩ else none
  | none => none

/-- Key of RTx_FLITS of the router of a port. -/
def flitsReg (k : Nat) : Nat := tileReg (k / 64) (0x4040 + 0x100 * (k / 32 % 2))

/-- Whether a flit of a packet can go into a port: it has a siding there, and the link does not retrain. -/
def mayEnter (s : State) (p : Packet) (k : Nat) : Bool := mayTake s p k && !(retraining s k)

/-- A flit has crossed the links into some ports without an error: the replays in a row are over (R165). -/
def crossed (s : State) (ports : List Nat) : State :=
  updM s (fun m => { m with replays := ports.foldl (fun r k => spDel r k) m.replays })

/-- A flit goes on from a port to every port that the packet goes on to there, where each has a siding for it (R156, R193). -/
def moveOn (s : State) (w : Worm) (h : Hop) : Option State :=
  if h.outs.isEmpty || !(h.outs.all (mayEnter s w.p)) then none
  else match (sidingsAt s h.port).leave w.p.ch w.id with
    | none => none
    | some g =>
      let s1 := forEach h.outs (crossed (setSidings s h.port g) h.outs) (fun s o => putFlit s w o)
      let h' := { h with passed := h.passed + 1 }
      let hops := if h'.passed = packetFlits w.p then w.hops.erase h else w.hops.map (fun x => if x = h then h' else x)
      some (addFld (setWorm s1 { w with hops := hops }) (flitsReg h.port) 63 0 1)

/-- A flit goes from the source into the first router. -/
def moveIn (s : State) (w : Worm) : Option State :=
  if 0 < w.left ∧ 0 < w.inj ∧ mayTake s w.p w.entry = true then some (setWorm (putFlit s w w.entry) { w with left := w.left - 1 }) else none

/-- The flits of a packet follow its head as far as credits last. -/
def pump : Nat → State → Nat → State
  | 0, s, _ => s
  | fuel + 1, s, id =>
    match wormById s id with
    | none => s
    | some w => match (w.hops.findSome? (moveOn s w)).or (moveIn s w) with
      | some s' => pump fuel s' id
      | none => s

/-- The fuel that moving every flit of a packet once over every port takes. -/
def pumpFuel (w : Worm) : Nat := (packetFlits w.p + 1) * (w.hops.length + 2)

/-! ### Injection (R186, R196) -/

/-- Whether a packet may begin to enter: a member opens at most 4 of its own segments per plane (R196). -/
def mayBegin (s : State) (w : Worm) : Bool :=
  if w.p.type = 8 ∧ w.p.srcDie.toNat < 40 ∧ w.p.srcTile.toNat < 144 then decide ((openSegs s (packetSrc w.p) w.p.plane).length < 4) else true

/-- The first waiting packet of each TAG. -/
def firstOfTags : List Worm → List (BitVec 16) → List Worm
  | [], _ => []
  | w :: ws, seen => if seen.contains w.p.tag then firstOfTags ws seen else w :: firstOfTags ws (w.p.tag :: seen)

/-- The packet whose TAG comes next after one in rising order, wrapping. -/
def nextTag (last : Nat) : List Worm → Option Worm
  | [] => none
  | w :: ws => match nextTag last ws with
    | none => some w
    | some v => if (v.p.tag.toNat + 0xFFFF - last) % 0x10000 < (w.p.tag.toNat + 0xFFFF - last) % 0x10000 then some v else some w

/-- Key of the round robin among the operations that inject at a port on a channel. -/
def turnKey (k : Nat) (ch : BitVec 2) : Nat := k * 64 + ch.toNat

/-- The next packet enters at a port: on a channel one packet at a time, the operations in round robin by packet (R186). -/
def inject (s : State) (k : Nat) (ch : BitVec 2) : Nat → State
  | 0 => s
  | fuel + 1 =>
    let here := s.m.worms.filter (fun w => decide (w.entry = k ∧ w.p.ch = ch ∧ 0 < w.left))
    if here.any (fun w => decide (0 < w.inj)) then s
    else match nextTag (spGet s.m.turns 0 (turnKey k ch)) ((firstOfTags here []).filter (mayBegin s)) with
      | none => s
      | some w =>
        if mayTake s w.p k then
          let w' := { w with inj := s.m.wormSeq, hops := [⟨k, [], 0⟩] }
          let s1 := updM (setWorm s w') (fun m => { m with
            wormSeq := m.wormSeq + 1, turns := spSet m.turns 0 (turnKey k ch) w.p.tag.toNat })
          inject (pump (pumpFuel w') s1 w.id) k ch fuel
        else s

/-- Flits follow at every packet that one of some ports holds up, and packets that wait to enter there. -/
def kick (s : State) (ports : List Nat) (ch : BitVec 2) : State :=
  let ws := s.m.worms.filter (fun w => decide (w.p.ch = ch)
    && (ports.contains w.entry || w.hops.any (fun h => h.outs.any (fun o => ports.contains o))))
  let s1 := forEach ws s (fun s w => pump (pumpFuel w) s w.id)
  forEach ((ws.map (fun w => w.entry)).eraseDups) s1 (fun s k => inject s k ch s.m.worms.length)

/-- A packet, or the copies of a multicast, is offered to the network at a router's port. -/
def offer (s : State) (p : Packet) (dests : List (BitVec 6 × BitVec 8)) (start entry : Nat) : State :=
  let w : Worm := ⟨s.m.wormSeq, p, dests, start, entry, packetFlits p, 0, []⟩
  inject (updM s (fun m => { m with wormSeq := m.wormSeq + 1, worms := m.worms ++ [w] })) entry p.ch (s.m.worms.length + 1)

/-- The port at which a packet enters its first router: the local port, or the port of a link of the station die that injects it (R158). -/
def entryPort (p : Packet) (t : Nat) : Nat :=
  portKey t p.plane (if p.srcDie.toNat < 40 then 4 else if p.srcDie.toNat < 44 then 0 else 2)

/-- Put copies of a packet into the network on a plane: generation and injection time are stamped (R160, Table 6.1). They enter at a router
that is given, or at their source's. -/
def launch (s : State) (at_ : Option Nat) (ps : List Packet) (pl : Plane) : State :=
  let stamp (p : Packet) : Packet :=
    { p with plane := pl, tgen := (dieOf s p.srcDie.toNat).genCur, injTime := BitVec.ofNat 48 (gtimeOf s p.srcDie.toNat) }
  let qs := ps.map stamp
  let s1 := updM s (fun m => { m with net := m.net ++ qs })
  match qs with
  | [] => s
  | q :: _ => match at_.or (entryRouter s q) with
    | some t => offer s1 q (qs.map (fun r => (r.dstDie, r.dstTile))) t (entryPort q t)
    | none => s1

/-- Send a packet on the plane it names, or on the other one where that has no route, which NCB_REDIRECT counts (R162). A request that has no
route on either plane is answered NOROUTE at once (Table 6.3, log 11); such a response is lost. -/
def sendFrom (s : State) (at_ : Option Nat) (p : Packet) : State :=
  let d := p.srcDie.toNat
  match planeFor s d p.dstDie.toNat p.plane with
  | some pl => launch (if pl = p.plane then s else addFld s (ncbReg d 0x18) 31 0 1) at_ [p] pl
  | none => if isResponse p || decide (p.ch = 2) then s
    else updM s (fun m => { m with net := m.net ++ [response p 4 6 []] })

/-- Send a packet from its source. -/
def sendPacket (s : State) (p : Packet) : State := sendFrom s none p

/-- Whether the route of a packet leaves its tile's partition, on the plane that it takes (R250). -/
def leavesPart (s : State) (t : Nat) (p : Packet) : Bool :=
  let d := t / 144
  let own (e : Nat) : Bool := match partOfDie s d with
    | some q => partHolds s q e
    | none => false
  decide (40 ≤ p.dstDie.toNat) || !((walk s (genOf s d) ((planeFor s d p.dstDie.toNat p.plane).getD p.plane) p.dstDie.toNat 47 d).all (fun k => own k.2.2))

/-- A tile's injection: a packet whose route leaves the partition waits while the tile's allowance does not last (R250). -/
def tileSend (s : State) (t : Nat) (p : Packet) : State :=
  let x := tileOf s t
  match x.allow with
  | none => sendPacket s p
  | some n =>
    if !(leavesPart s t p) then sendPacket s p
    else if !x.heldOut.isEmpty || decide (n < packetFlits p) then updTile s t (fun x => { x with heldOut := x.heldOut ++ [p] })
    else sendPacket (updTile s t (fun x => { x with allow := some (n - packetFlits p) })) p

/-- Send packets in order. -/
def tileSendAll (s : State) (t : Nat) (ps : List Packet) : State := forEach ps s (fun s p => tileSend s t p)

/-- Send the copies of a multicast packet: those on one plane travel as one packet until their routes part (R193). Copies of one
partition's tiles whose routes leave it are paced one by one. -/
def castAll (s : State) (t : Nat) (ps : List Packet) : State :=
  if (tileOf s t).allow.isSome && ps.any (leavesPart s t) then tileSendAll s t ps
  else
    let on (pl : Plane) := ps.filter (fun p => decide (planeFor s (t / 144) p.dstDie.toNat p.plane = some pl))
    let turned := (ps.filter (fun p => decide (planeFor s (t / 144) p.dstDie.toNat p.plane = some (otherPlane p.plane)))).length
    let s1 := if turned = 0 then s else addFld s (ncbReg (t / 144) 0x18) 31 0 1
    launch (launch s1 none (on .up) .up) none (on .down) .down

/-! ### The end of a packet -/

/-- The port behind the local output at which a packet leaves the network. -/
def exitPort (p : Packet) : Nat := portKey (if p.dstDie.toNat < 40 then packetDst p else 5760 + 2 * (p.dstDie.toNat - 40)) p.plane 5

/-- Flits of a packet leave the sidings of some ports, their credits with them. -/
def clearFlits (s : State) (id : Nat) (ports : List Nat) : State :=
  forEach ports s (fun s k => setSidings s k { sidingsAt s k with flits := (sidingsAt s k).flits.filter (fun f => decide (f.worm ≠ id)) })

/-- The way of a packet ends: every siding it holds is free, and those it held up go on. -/
def endWay (s : State) (w : Worm) : State :=
  let ports := w.hops.map (fun h => h.port)
  let s1 := updM (clearFlits s w.id ports) (fun m => { m with worms := m.worms.filter (fun v => decide (v.id ≠ w.id)) })
  kick s1 (w.entry :: ports) w.p.ch

/-- The way of one copy ends; that of a multicast's last copy ends the whole way. -/
def dropCopy (s : State) (p : Packet) : State :=
  match wormOf s p with
  | none => s
  | some w =>
    let left := w.dests.erase (p.dstDie, p.dstTile)
    if left.isEmpty then endWay s w
    else
      let k := exitPort p
      let w' := { w with
        dests := left
        hops := (w.hops.filter (fun h => decide (h.port ≠ k))).map (fun h => { h with outs := h.outs.erase k }) }
      kick (setWorm (clearFlits s w.id [k]) w') [k] w.p.ch

/-- An arriving packet leaves the network. -/
def absorb (s : State) (p : Packet) : State := updM (dropCopy s p) (fun m => { m with net := m.net.erase p })

/-- A packet waits where it is, at the head of its siding, its flits with it (R198, R201). -/
def park (s : State) (p : Packet) : State := updM s (fun m => { m with net := m.net.erase p })

/-- A packet that must wait where it is stays in the network. -/
def stay (s : State) (p : Packet) : State := if s.m.net.contains p then s else updM s (fun m => { m with net := m.net ++ [p] })

/-- Drop all packets of a kind, with their flits. -/
def dropPackets (s : State) (f : Packet → Bool) : State :=
  let gone := s.m.worms.filter (fun w => f w.p)
  let s1 := forEach gone s (fun s w => clearFlits s w.id (w.hops.map (fun h => h.port)))
  updM s1 (fun m => { m with net := m.net.filter (fun p => !(f p)), worms := m.worms.filter (fun w => !(f w.p)) })

/-- A router is reset: the packets with flits in it are lost. -/
def resetRouter (s : State) (r : Nat) : State :=
  let gone := s.m.worms.filter (fun w => w.hops.any (fun h => decide (h.port / 64 = r)))
  let s1 := forEach gone s (fun s w => clearFlits s w.id (w.hops.map (fun h => h.port)))
  updM s1 (fun m => { m with
    net := m.net.filter (fun p => !(gone.any (fun w => w.carries p)))
    worms := m.worms.filter (fun w => !(gone.contains w))
    sidings := spMap (fun k g => if k / 64 = r then none else some g) m.sidings })

end Sys2Proof.Machine
end

