-- ==== Sys2Proof/Machine/Path.lean ====
section
/-!
DEFINITION. The way of a packet through the routers (R158), closed scopes and what absorbs a packet bound for one (R167).

What the spec leaves open here: log entries 18, 25, 27, 88 and 100.
-/

namespace Sys2Proof.Machine

/-! ### Closed scopes (R167) -/

/-- Key of DIE_STATE (Table 11.9). -/
def dieStateReg (d : Nat) : Nat := healthReg d 0xF000

/-- Whether a die is in D3 or fenced. -/
def dieClosed (s : State) (d : Nat) : Bool := decide (fld s (dieStateReg d) 1 0 ≠ 0) || bit (rd s (dieStateReg d)) 2

/-- Whether a tile's router is in a die or cluster that takes no packet. -/
def routerClosed (s : State) (t : Nat) : Bool := dieClosed s (t / 144) || decide (2 ≤ clusterState s (t / 144) (clusterOf (t % 144)))

/-- Whether a packet's destination takes no packet. -/
def targetClosed (s : State) (p : Packet) : Bool :=
  if p.dstDie.toNat < 40 ∧ p.dstTile.toNat < 144 then routerClosed s (packetDst p) else dieClosed s p.dstDie.toNat

/-- The last open router before the first closed one. -/
def lastOpen (closed : Nat → Bool) : Option Nat → List Nat → Option Nat
  | last, [] => last
  | last, t :: ts => if closed t then last else lastOpen closed (some t) ts

/-- Key of RTx_NAK of a plane. -/
def rtReg (t : Nat) (pl : Plane) (off : Nat) : Nat := tileReg t (0x4000 + 0x100 * planeNum pl + off)

/-- A packet is absorbed by a router, or by a station die that could not inject it: RTx_NAK counts it, and a request is answered with a NAK
(R167). A response or a collective packet is not. -/
def absorbAt (s : State) (p : Packet) (at_ : Option Nat) (nakr : Nat) : State :=
  let s1 := match at_ with
    | some t => addFld (absorb s p) (rtReg t p.plane 0x48) 31 0 1
    | none => absorb s p
  if isResponse p || decide (p.ch = 2) then s1
  else
    let r := response p 4 nakr []
    sendPacket s1 (match at_ with
      | some t => { r with srcDie := BitVec.ofNat 6 (t / 144), srcTile := BitVec.ofNat 8 (t % 144) }
      | none => { r with srcDie := p.srcDie, srcTile := p.srcTile })

/-- The channels on which a type may travel (Table 6.2). -/
def channelOk (p : Packet) : Bool :=
  match p.type.toNat with
  | 0 | 1 | 5 => decide (p.ch = 0 ∨ p.ch = 3)
  | 2 | 3 | 4 => decide (p.ch = 1)
  | 8 | 9 | 0xA | 0xB => decide (p.ch = 2)
  | _ => false

/-- Answer a packet from where it arrived. A die block's answer enters at the router that delivered the request (R158). -/
def respond (s : State) (p r : Packet) : State :=
  sendFrom s (if p.dstDie.toNat < 40 ∧ p.dstTile.toNat = 255 then (pathOf s p).getLast? else none) r

/-- The arbiter of a station die's ejection of a plane (R248). -/
def ejectArb (pl : Plane) : Nat := 16 + planeNum pl

/-- The partitions whose packets stand at the local output of a station die's routers with another one. -/
def ejectWork (s : State) (p : Packet) : List PartId :=
  Fin.ofNat 8 p.part.toNat :: (s.m.worms.filter (fun w => w.hops.any (fun h => decide (h.port = exitPort p)))).map (fun w => Fin.ofNat 8 w.p.part.toNat)

/-- The partitions take turns at a station die's ejection (R248, R249): the state in which a packet leaves, with its flits counted; `none` while it
is another partition's turn. -/
def ejected (s : State) (p : Packet) : Option State :=
  let n := p.dstDie.toNat - 40
  if p.dstDie.toNat < 40 then some s
  else
    let d := (drrOf s n (ejectArb p.plane)).now s (fun _ => 0) (ejectWork s p)
    if d.turn = some (Fin.ofNat 8 p.part.toNat) then some (setDrr s n (ejectArb p.plane) (d.spend (ejectNs p))) else none

/-- A packet reaches its destination: it does its work there, unless an earlier one of its stream is still on its way (R163),
the scope is closed (R167), what it needs there is taken, another partition has its turn at a station die (R249), or its type may not travel on its channel (R153). Collective packets are never
answered with a NAK (R191). -/
def meet (s : State) (p : Packet) (taken : Bool) (act : State → State) : State :=
  if early s p then stay s p
  else if targetClosed s p then absorbAt s p (lastOpen (routerClosed s) none (pathOf s p)) 1
  else if channelOk p then (if taken then stay s p else match ejected s p with
    | some s1 => act s1
    | none => stay s p)
  else if 8 ≤ p.type.toNat ∧ p.type.toNat ≤ 0xB then absorb s p
  else respond (absorb s p) p (response p 4 4 [])

/-- A packet reaches its destination and leaves the network there. -/
def arriveWhen (s : State) (p : Packet) (taken : Bool) (act : State → State) : State := meet s p taken (fun s => act (absorb s p))

/-- A packet reaches a destination that can always take it. -/
def arrive (s : State) (p : Packet) (act : State → State) : State := arriveWhen s p false act

end Sys2Proof.Machine
end

