-- ==== Sys2Proof/Machine/Memory.lean ====
section
/-!
DEFINITION. Scalar loads and stores, and the issue of LD.V and ST.V (R134, R135, Table 5.6).

What the spec leaves open here: log entry 21.
-/

namespace Sys2Proof.Machine

/-- The bytes of a width. -/
def MemWidth.bytes : MemWidth → Nat
  | .b => 1
  | .h => 2
  | .w => 4
  | .d => 8
  | .v => 256

/-- The widths that a region accepts (Table 5.6). -/
def Region.accepts (r : Region) (m : MemWidth) : Bool :=
  match r, m with
  | .scr, _ => true
  | .acc, .w => true
  | .acc, .d => true
  | .acc, .v => true
  | .ist, .d => true
  | .reg, .d => true
  | _, _ => false

/-- The region of an access, or the fault it raises (R134): ADDR beyond tile space, on an unmapped byte or for a width the region does not
accept; MISALIGN. -/
def accessCheck (a : Nat) (m : MemWidth) : Region ⊕ Nat :=
  let n := m.bytes
  if 0x800000 ≤ a then .inr 0x03
  else match regionOf a 1, regionOf (a + n - 1) 1 with
    | some r, some _ => if !(r.accepts m) then .inr 0x03 else if a % n ≠ 0 then .inr 0x11 else .inl r
    | _, _ => .inr 0x03

/-- A loaded value extended to 64 bits (R134). -/
def extendLoad (m : MemWidth) (signed : Bool) (v : Nat) : Word :=
  if signed then BitVec.ofInt 64 (sext (8 * m.bytes) v) else BitVec.ofNat 64 v

/-- The fault of an uncorrectable read (R44, R53, R61). -/
def ueFault (r : Region) : Nat :=
  match r with
  | .scr => 0x04
  | .acc => 0x08
  | _ => 0x02

/-- The data of a load, or the fault of an uncorrectable read. -/
def loadData (s : State) (t : Nat) (c : CtxId) (r : Region) (a : Nat) (m : MemWidth) (signed : Bool) : State × (Word ⊕ Nat) :=
  match r with
  | .reg =>
    let x := readRegAt s (tileAddr t a)
    (x.1, .inl x.2)
  | _ =>
    let x := tileRead s t (some c) r a m.bytes
    (x.1, if x.2.2 then .inr (ueFault r) else .inl (extendLoad m signed (leNat x.2.1)))

/-- Store into tile space from the core: `none` where KEEP_WRITE refuses it (R57). -/
def storeData (s : State) (t : Nat) (c : CtxId) (r : Region) (a : Nat) (bs : List Byte) : Option State :=
  match r with
  | .reg => some (writeReg s false (tileAddr t a) (BitVec.ofNat 64 (leNat bs)))
  | .ist => some (istoreWrite s t a bs)
  | _ => if keepBlocks s t a bs.length then none else some (tileWrite s t (some c) r a bs)

/-- Whether a scalar access waits: for an accumulator bank that the TE holds (R61), or at a bank with waiting requests (R49). -/
def accessWaits (s : State) (t : Nat) (c : CtxId) (r : Region) (a : Nat) : Bool :=
  match r with
  | .scr => bankBusy s t (some c) a
  | .acc => accHeld s t a
  | _ => false

/-- A scalar access leaves the core to wait for its bank (R128, R129). -/
def parkAccess (s : State) (t : Nat) (acc : CoreAccess) : State :=
  let s1 := updTile (retire s t acc.by_ (acc.by_.index + 1) id) t (fun x => { x with core := some acc })
  if acc.store.isSome then setCause s1 t (coreCause s1 t acc.by_.ctx acc.addr) else s1

/-- A scalar load (R134): checked at issue; the data is written when the bank grants it, at once where nothing waits. -/
def loadOp (t : TileId) (w : IWord) (m : MemWidth) (signed : Bool) (s : State) : State :=
  issue s t (Form.ld.ok w) [w.d, w.a] (fun i s =>
    let a := (xGet (issuerCtx s t i) w.a + w.imm).toNat
    match accessCheck a m with
    | .inr code => issueFault s t i code
    | .inl r =>
      if (tileOf s t).core.isSome then setCause s t (parkedCause s t)
      else if accessWaits s t i.ctx r a then parkAccess s t ⟨i, a, m, signed, w.d, none⟩
      else
        let x := loadData s t i.ctx r a m signed
        match x.2 with
        | .inl v => retire x.1 t i (i.index + 1) (fun y => xSet y w.d v)
        | .inr code => issueFault x.1 t i code)

/-- A scalar store of the low bytes of the data register (R134). -/
def storeOp (t : TileId) (w : IWord) (m : MemWidth) (s : State) : State :=
  issue s t (Form.st.ok w) [w.a, w.b] (fun i s =>
    let c := issuerCtx s t i
    let a := (xGet c w.a + w.imm).toNat
    match accessCheck a m with
    | .inr code => issueFault s t i code
    | .inl r =>
      if (tileOf s t).core.isSome then setCause s t (parkedCause s t)
      else if accessWaits s t i.ctx r a then parkAccess s t ⟨i, a, m, false, 0, some (xGet c w.b)⟩
      else match storeData s t i.ctx r a (leBytes m.bytes (xGet c w.b).toNat) with
        | none => issueFault s t i 0x05
        | some s' => retire s' t i (i.index + 1) id)

/-- The waiting scalar access has its bank: a load writes its register, a store its bytes; issue goes on (R128, R129). -/
def grantAccess (t : TileId) (s : State) : State :=
  match (tileOf s t).core with
  | none => s
  | some acc =>
    match accessCheck acc.addr acc.width with
    | .inr _ => s
    | .inl r =>
      if r = .acc && accHeld s t acc.addr then s
      else
        let s0 := updTile s t (fun x => { x with core := none })
        match acc.store with
        | none =>
          let x := loadData s0 t acc.by_.ctx r acc.addr acc.width acc.signed
          (match x.2 with
           | .inl v => updCtx x.1 t acc.by_.ctx (fun y => xSet y acc.xd v)
           | .inr code => faultCtx x.1 t acc.by_.ctx code acc.by_.index)
        | some v =>
          match storeData s0 t acc.by_.ctx r acc.addr (leBytes acc.width.bytes v.toNat) with
          | none => faultCtx s0 t acc.by_.ctx 0x05 acc.by_.index
          | some s' => setCause s' t (.of causeNone)

/-- LD.V and ST.V: ADDR and MISALIGN at issue, then the VE queue (R135). -/
def vectorAccess (t : TileId) (w : IWord) (f : Form) (op : VeOp) (s : State) : State :=
  issue s t (f.ok w) [w.a] (fun i s =>
    let a := (xGet (issuerCtx s t i) w.a + w.imm).toNat
    match accessCheck a .v with
    | .inr code => issueFault s t i code
    | .inl _ => enqueue s t i .ve (tileOf s t).q.ve.length (fun q => { q with ve := q.ve ++ [⟨i, op, w, 0, 0, a⟩] }))


/-- LD.B: a sign-extended byte (R134). -/
def execLdB (t : TileId) (w : IWord) (s : State) : Host.Outcome State Fault Refusal := .next (loadOp t w .b true s)

/-- LD.BU: a zero-extended byte (R134). -/
def execLdBu (t : TileId) (w : IWord) (s : State) : Host.Outcome State Fault Refusal := .next (loadOp t w .b false s)

/-- LD.H: a sign-extended halfword (R134). -/
def execLdH (t : TileId) (w : IWord) (s : State) : Host.Outcome State Fault Refusal := .next (loadOp t w .h true s)

/-- LD.HU: a zero-extended halfword (R134). -/
def execLdHu (t : TileId) (w : IWord) (s : State) : Host.Outcome State Fault Refusal := .next (loadOp t w .h false s)

/-- LD.W: a sign-extended word (R134). -/
def execLdW (t : TileId) (w : IWord) (s : State) : Host.Outcome State Fault Refusal := .next (loadOp t w .w true s)

/-- LD.WU: a zero-extended word (R134). -/
def execLdWu (t : TileId) (w : IWord) (s : State) : Host.Outcome State Fault Refusal := .next (loadOp t w .w false s)

/-- LD.D: a doubleword (R134). -/
def execLdD (t : TileId) (w : IWord) (s : State) : Host.Outcome State Fault Refusal := .next (loadOp t w .d false s)

/-- LD.V: all 64 lanes of vd, through the VE queue (R135). -/
def execLdV (t : TileId) (w : IWord) (s : State) : Host.Outcome State Fault Refusal := .next (vectorAccess t w .ld .ldv s)

/-- ST: a byte (R134). -/
def execStB (t : TileId) (w : IWord) (s : State) : Host.Outcome State Fault Refusal := .next (storeOp t w .b s)

/-- ST: a halfword (R134). -/
def execStH (t : TileId) (w : IWord) (s : State) : Host.Outcome State Fault Refusal := .next (storeOp t w .h s)

/-- ST: a word (R134). -/
def execStW (t : TileId) (w : IWord) (s : State) : Host.Outcome State Fault Refusal := .next (storeOp t w .w s)

/-- ST: a doubleword (R134). -/
def execStD (t : TileId) (w : IWord) (s : State) : Host.Outcome State Fault Refusal := .next (storeOp t w .d s)

/-- ST.V: all 64 lanes of the register in field B, through the VE queue (R135). -/
def execStV (t : TileId) (w : IWord) (s : State) : Host.Outcome State Fault Refusal := .next (vectorAccess t w .st .stv s)

/-- SCALAR_LD_BANK_GRANT: the waiting scalar access has its bank (R129). -/
def execScalarLdBankGrant (t : TileId) (s : State) : Host.Outcome State Fault Refusal := .next (grantAccess t s)

end Sys2Proof.Machine
end

