-- ==== Sys2Proof/Machine/Shunter.lean ====
section
/-!
DEFINITION. The shunter: descriptors, the checks of R64, the chunks of R65 with their conversions, merging (R66), and the answers to its
packets (R62 to R66, R82, R86, R142).

What the spec leaves open here: log entries 21, 24, 87 and 94.
-/

namespace Sys2Proof.Machine

/-! ### Checks (R64) -/

/-- The checks when a descriptor starts: the FREASON of the first that fails. DESIGN CHOICE (log 94): R64 gives its cases no order where several
hold, and names no case for a descriptor that is aligned and does not lie in the scratchpad; the model tries them as listed here and takes 2. -/
def shCheck (s : State) (t : Nat) (e : ShIssue) : Option Nat :=
  let a := shSfmt e
  let b := shDfmt e
  let n := shLen e
  if e.offset % 32 ≠ 0 ∨ 0x600000 < e.offset + 32 then some 2
  else if 2 < shOp e ∨ shRnd e = 3 ∨ shPlane e = 3 ∨ shOp e ≠ e.op.toNat then some 0
  else if shRows e = 0 then some 1
  else if shOp e ≠ 0 ∧ shIdx e % 4 ≠ 0 then some 2
  else if shOp e ≠ 0 ∧ 0x600000 < shIdx e + 4 * shRows e then some 3
  else if shOp e ≠ 0 ∧ (eccCheck s t (some e.by_.ctx) .scr (shIdx e) (4 * shRows e)).2 = true then some 6
  else if 0xA < a ∨ 0xA < b ∨ shPairOk a b = false then some 7
  else if n = 0 ∨ n % (shUnit e).1 ≠ 0 then some 8
  else none

/-- The reason that a range of a row fails: its address, the register-space rule, or the port. -/
def shRangeBad (s : State) (t a n : Nat) : Option Nat :=
  let sp := a / 2 ^ 52
  if 8 ≤ sp ∧ sp < 16 ∧ dgaAllowed s t a n = false then some 4
  else if dgaAllowed s t a n = false then some 3
  else
    let isReg := decide (sp = 0 ∧ (dgaIndex a = 255 ∨ 0x7F0000 ≤ a % 2 ^ 23)) || decide (sp = 1 ∧ a % 2 ^ 31 < 0x40000000)
    if isReg && !(wholeWords (a % 2 ^ 23) n) then some 3 else none

/-- The smaller of two reasons. -/
def minReason : Option Nat → Option Nat → Option Nat
  | some a, some b => some (min a b)
  | some a, none => some a
  | none, r => r

/-- The checks of a row before it moves. -/
def shRowCheck (s : State) (t : Nat) (e : ShIssue) (a b : Nat) : Option Nat :=
  let m := shOut e (shLen e)
  let keep := match ownOffset t b with
    | some off => if keepBlocks s t off m then some 3 else none
    | none => none
  let loc := if (ownOffset t a).isNone && (ownOffset t b).isNone then some 5 else none
  minReason (minReason (shRangeBad s t a (shLen e)) (shRangeBad s t b m)) (minReason keep loc)

/-! ### Queues -/

/-- The descriptors of a shunter queue. -/
def shqOf (s : State) (t q : Nat) : List ShDesc := spGet (tileOf s t).q.shq [] q

/-- Replace a shunter queue. -/
def setShq (s : State) (t q : Nat) (l : List ShDesc) : State :=
  updTile s t (fun x => { x with q := { x.q with shq := spSet x.q.shq [] q l } })

/-- A descriptor that has entered its queue. -/
def ShDesc.new (e : ShIssue) : ShDesc := ⟨e, false, 0, 0, false, [], [], 0, [], none⟩

/-- A context's later entries leave the shunter issue queue with its fault (R130). -/
def dropShIssue (s : State) (t : Nat) (c : CtxId) : State :=
  updTile s t (fun x => { x with q := { x.q with sh := x.q.sh.filter (fun e => decide (e.by_.ctx ≠ c)) } })

/-- The issue queue passes entries on in order: into the named queue while it holds fewer than 8 descriptors (R65, R142); an entry for a
halted queue is not started and its context takes SHNT_DESC (R64). -/
def passOn (t : Nat) : Nat → State → State
  | 0, s => s
  | fuel + 1, s =>
    match (tileOf s t).q.sh with
    | [] => s
    | e :: rest =>
      let s1 := updTile s t (fun x => { x with q := { x.q with sh := rest } })
      if (tileOf s t).q.halted.getLsbD e.q.val then
        passOn t fuel (faultCtx (dropShIssue s1 t e.by_.ctx) t e.by_.ctx 0x07 e.by_.index)
      else if (shqOf s t e.q.val).length < 8 then
        passOn t fuel (setShq s1 t e.q.val (shqOf s1 t e.q.val ++ [ShDesc.new e]))
      else s

/-- Pass on all that can go. -/
def passAll (s : State) (t : Nat) : State := recause (passOn t ((tileOf s t).q.sh.length) s) t

/-- A rejected or failed descriptor (R64): the queue halts, the descriptor and those after it are discarded without their counters, the
first halt is recorded, and the issuer takes SHNT_DESC. `i` is its place in the queue. -/
def shHalt (s : State) (t q i reason nakr : Nat) : State :=
  match (shqOf s t q)[i]? with
  | none => s
  | some d =>
    let s1 := updTile (setShq s t q ((shqOf s t q).take i)) t (fun x =>
      { x with q := { x.q with
          halted := x.q.halted ||| BitVec.ofNat 16 (2 ^ q)
          merge := if d.merged then x.q.merge.filter (fun m => decide (m.q.val ≠ q)) else x.q.merge } })
    let k := tileReg t 0x408
    let s2 := if fld s1 k 31 16 = 0 then setFld (setFld (setFld s1 k 35 32 q) k 39 36 reason) k 42 40 nakr else s1
    let s3 := tileEvent (setBit s2 k (16 + q)) t 0x80
    let e := d.issue
    passAll (faultCtx (dropShIssue s3 t e.by_.ctx) t e.by_.ctx 0x07 e.by_.index) t

/-! ### Conversion (R82 to R88) -/

/-- The elements of `n` bytes each. -/
def elemsOf (n : Nat) : Nat → List Byte → List Nat
  | 0, _ => []
  | k + 1, bs => leNat (bs.take n) :: elemsOf n k (bs.drop n)

/-- Convert whole units of source bytes: the destination bytes, the flags, and how many draws were taken. -/
def convertBytes (e : ShIssue) (bs : List Byte) (draws : List Nat) : List Byte × Nat :=
  let mode := Rnd.ofCode (shRnd e)
  match Plain.ofCode (shSfmt e), Plain.ofCode (shDfmt e) with
  | some p, some q =>
    let es := elemsOf (p.width / 8) (bs.length / (p.width / 8)) bs
    let rs := (List.zip (List.range es.length) es).map (fun v => convPlain q mode (shSat e) (draws.getD v.1 0) (p.decode v.2))
    (rs.flatMap (fun r => leBytes (q.width / 8) r.1), rs.foldl (fun fl r => fl ||| r.2) 0)
  | some p, none =>
    let es := elemsOf 4 (bs.length / 4) bs
    let blocks := (List.range (es.length / 32)).map (fun b =>
      g8Block mode (draws.drop (32 * b)) (((es.drop (32 * b)).take 32).map p.decode))
    (blocks.flatMap (fun b => b.1.map (BitVec.ofNat 8)), blocks.foldl (fun fl b => fl ||| b.2) 0)
  | none, some q =>
    let rs := (List.range (bs.length / 33)).flatMap (fun b =>
      let blk := (bs.drop (33 * b)).take 33
      let sc := (blk.getD 32 0).toNat
      (List.range 32).map (fun i =>
        convPlain q mode (shSat e) (draws.getD (32 * b + i) 0) (g8Decode sc (blk.getD i 0).toNat)))
    (rs.flatMap (fun r => leBytes (q.width / 8) r.1), rs.foldl (fun fl r => fl ||| r.2) 0)
  | none, none => (bs, 0)

/-- The stochastic draws that converting `n` source bytes takes: one for each element (R86). -/
def shDraws (e : ShIssue) (n : Nat) : Nat :=
  if shRnd e = 2 ∧ shConverts e = true then
    (if shSfmt e = 9 then n / 33 * 32 else n / (match Plain.ofCode (shSfmt e) with
      | some p => p.width / 8
      | none => 1))
  else 0

/-- Pass bytes through the convert path where the formats differ: flags of the shunter and draws of stream 1 (R86, R94). -/
def shConvert (s : State) (t : Nat) (e : ShIssue) (bs : List Byte) : State × List Byte :=
  if shConverts e then
    let d := takeDraws s t true (shDraws e bs.length)
    let r := convertBytes e bs d.2
    (raiseFlags d.1 t .shunter r.2, r.1)
  else (s, bs)

/-! ### Memory of the issuing tile -/

/-- Read tile space for the shunter: the bytes, and whether a word was uncorrectable. -/
def shRead (s : State) (t : Nat) (c : CtxId) (off n : Nat) : State × List Byte × Bool :=
  match regionOf off n with
  | some .reg =>
    let r := readRegs s (tileAddr t off) (n / 8)
    (r.1, r.2, false)
  | some r => tileRead s t (some c) r off n
  | none => (s, [], false)

/-- Write tile space for the shunter; `none` where a KEEP range refuses it (R57). -/
def shWrite (s : State) (t : Nat) (c : CtxId) (off : Nat) (bs : List Byte) : Option State :=
  match regionOf off bs.length with
  | some .reg => some (writeRegs s false (tileAddr t off) (leWords (bs.length / 8) bs))
  | some .ist => some (istoreWrite s t off bs)
  | some r => if keepBlocks s t off bs.length then none else some (tileWrite s t (some c) r off bs)
  | none => some s

/-! ### Packets -/

/-- The next tag of the shunter; its tags have bit 15 set. -/
def shTag (s : State) (t : Nat) : State × Nat :=
  let n := (tileOf s t).q.tag
  (updTile s t (fun x => { x with q := { x.q with tag := n + 1 } }), 0x8000 + n.toNat % 0x8000)

/-- A request of the shunter to an address, with the plane the descriptor wants. -/
def shRequest (s : State) (t : Nat) (plane type addr tag : Nat) (data : List Byte) : Packet :=
  let p := request (t / 144) (t % 144) (partNum s t) type addr tag data
  { p with plane := planeWanted plane (t % 144) p.dstTile.toNat addr }

/-- Send the open merge packet of a queue (R66): its descriptors now await its answer. -/
def sendMerge (s : State) (t q : Nat) : State :=
  match (tileOf s t).q.merge.find? (fun m => decide (m.q.val = q)) with
  | none => s
  | some m =>
    let g := shTag s t
    let p := { shRequest g.1 t 0 0 m.dst g.2 m.data with plane := m.plane }
    let s1 := updTile g.1 t (fun x => { x with q := { x.q with
      merge := x.q.merge.filter (fun n => decide (n.q.val ≠ q)) } })
    let s2 := setShq s1 t q ((shqOf s1 t q).map (fun d => if d.merged then { d with merged := false, await := [⟨p, 0, 0⟩], since := some s.now } else d))
    tileSend s2 t p

/-- Whether a descriptor may merge at all: a MOVE of one row without NOMERGE from the own tile to a remote one, that fits a packet and a
turn (R66). -/
def canMerge (s : State) (t : Nat) (e : ShIssue) : Bool :=
  decide (fld s (tileReg t 0x400) 0 0 = 1) && decide (shOp e = 0 ∧ shRows e = 1) && !(shNoMerge e)
    && (ownOffset t (shSrc e)).isSome && (ownOffset t (shDst e)).isNone && decide (shDst e / 2 ^ 52 = 0)
    && decide (shLen e ≤ 2048 ∧ shOut e (shLen e) ≤ 2048)

/-! ### Turns (R65) -/

/-- Change the descriptor at a place of a queue. -/
def updDesc (s : State) (t q i : Nat) (f : ShDesc → ShDesc) : State := setShq s t q ((shqOf s t q).modify i f)

/-- A descriptor awaits the answer to a packet of the chunk that moves now; the first one starts its wait (Table 8.5). -/
def awaits (s : State) (d : ShDesc) (p : Packet) : List ShPacket × Option Nat := (d.await ++ [⟨p, d.row, d.byte⟩], d.since.or (some s.now))

/-- A row is over: the next one begins. -/
def advance (d : ShDesc) (n : Nat) (converted : Bool) : ShDesc :=
  if shLen d.issue ≤ d.byte + n then
    { d with row := d.row + 1, byte := 0, conv := if converted then d.row + 1 else d.conv }
  else { d with byte := d.byte + n }

/-- A chunk inside the issuing tile. -/
def chunkLocal (s : State) (t q i : Nat) (d : ShDesc) (src dst n : Nat) : State :=
  let e := d.issue
  let r := shRead s t e.by_.ctx src n
  if r.2.2 then shHalt r.1 t q i 6 0
  else
    let c := shConvert r.1 t e r.2.1
    match shWrite c.1 t e.by_.ctx dst c.2 with
    | none => shHalt c.1 t q i 3 0
    | some s' => updDesc s' t q i (fun d => advance d n true)

/-- A chunk that leaves as one WRITE packet, or enters the open merge packet (R65, R66). -/
def chunkOut (s : State) (t q i : Nat) (d : ShDesc) (src dst n : Nat) : State :=
  let e := d.issue
  let r := shRead s t e.by_.ctx src n
  if r.2.2 then shHalt r.1 t q i 6 0
  else
    let c := shConvert r.1 t e r.2.1
    if canMerge c.1 t e then
      let pl := planeWanted (shPlane e) (t % 144) (dstOf dst).2 dst
      let fits := (tileOf c.1 t).q.merge.find? (fun m => decide (m.q.val = q ∧ m.plane = pl ∧ m.dst / 2 ^ 23 = dst / 2 ^ 23
        ∧ m.dst + m.data.length = dst ∧ m.data.length + c.2.length ≤ 2048))
      let s1 := match fits with
        | some m => updTile c.1 t (fun x => { x with q := { x.q with
            merge := x.q.merge.map (fun k => if k.q = m.q then { k with data := k.data ++ c.2 } else k) } })
        | none => updTile (sendMerge c.1 t q) t (fun x => { x with q := { x.q with
            merge := x.q.merge ++ [⟨d.issue.q, pl, dst, c.2, s.vco⟩] } })
      let s2 := updDesc s1 t q i (fun d => { advance d n true with merged := true })
      let full := (tileOf s2 t).q.merge.any (fun m => decide (m.q.val = q ∧ 2048 ≤ m.data.length))
      if full then sendMerge s2 t q else s2
    else
      let g := shTag (sendMerge c.1 t q) t
      let p := shRequest g.1 t (shPlane e) 0 dst g.2 c.2
      tileSend (updDesc g.1 t q i (fun d => { advance d n true with await := (awaits s d p).1, since := (awaits s d p).2 })) t p

/-- A chunk that is requested with one READ_REQ; XDATA carries its length (Table 6.1). -/
def chunkIn (s : State) (t q i : Nat) (d : ShDesc) (src n : Nat) : State :=
  let g := shTag (sendMerge s t q) t
  let p := { shRequest g.1 t (shPlane d.issue) 1 src g.2 [] with xdata := BitVec.ofNat 48 n }
  tileSend (updDesc g.1 t q i (fun d => { advance d n false with await := (awaits s d p).1, since := (awaits s d p).2 })) t p

/-- The descriptor of a queue that moves next: the first that has rows left, where it has started. -/
def currentDesc (l : List ShDesc) : Option (Nat × ShDesc) :=
  match (List.zip (List.range l.length) l).find? (fun d => !(d.2.started && decide (shRows d.2.issue ≤ d.2.row))) with
  | some d => if d.2.started then some d else none
  | none => none

/-- Whether a queue has a chunk ready: no accumulator bank that it meets is held by the TE (R61), no scratchpad bank makes it wait (R49), and a
converting row of the own tile comes after the rows before it (R86). -/
def chunkReady (s : State) (t q : Nat) : Bool :=
  match currentDesc (shqOf s t q) with
  | none => false
  | some (_, d) =>
    !((tileOf s t).q.halted.getLsbD q) && decide (chunkCause s t d = .of 0)
      && (!(shConverts d.issue) || (chunkSpans s t d).1.isNone || decide (d.conv = d.row))

/-- Move one chunk of a queue. -/
def chunkTurn (s : State) (t q : Nat) : State :=
  match currentDesc (shqOf s t q) with
  | none => s
  | some (i, d) =>
    let e := d.issue
    let a := shRowAddr s t e d.row
    match (if d.byte = 0 then shRowCheck s t e a.1 a.2 else none) with
    | some why => shHalt s t q i why 0
    | none =>
      let n := chunkLen e (ownOffset t a.1).isSome (ownOffset t a.2).isSome (shLen e - d.byte)
      match ownOffset t a.1, ownOffset t a.2 with
      | some src, some dst => chunkLocal (sendMerge s t q) t q i d (src + d.byte) (dst + shOut e d.byte) n
      | some src, none => chunkOut s t q i d (src + d.byte) (a.2 + shOut e d.byte) n
      | none, _ => chunkIn s t q i d (a.1 + d.byte) n

/-- SHUNTER_CHUNK_TURN: the next queue in round robin that has a chunk ready moves it (R65). -/
def shTurn (t : TileId) (s : State) : State :=
  let last := (tileOf s t).q.shTurn.val
  match ((List.range 16).map (fun k => (last + 1 + k) % 16)).find? (chunkReady s t) with
  | none => s
  | some q => recause (chunkTurn (updTile s t (fun x => { x with q := { x.q with shTurn := Fin.ofNat 16 q } })) t q) t

/-- The read of the index array that the checks from reason 6 on come after: errors are corrected and counted (R53, R63). -/
def shReadIndex (s : State) (t : Nat) (e : ShIssue) : State :=
  if shOp e = 0 then s else (eccCheck s t (some e.by_.ctx) .scr (shIdx e) (4 * shRows e)).1

/-- SHUNTER_DESCRIPTOR_START: the first descriptor of a queue that has not started, behind only started ones, starts and is checked (R63,
R64). -/
def shStart (t : TileId) (q : Fin 16) (s : State) : State :=
  let l := shqOf s t q
  let i := (l.takeWhile (fun d => d.started)).length
  match l[i]? with
  | none => s
  | some d =>
    if (tileOf s t).q.halted.getLsbD q.val || !(scopeOpen s t) then s
    else
      let s1 := updDesc s t q i (fun d => { d with started := true })
      match shCheck s1 t d.issue with
      | some why => shHalt (if 6 ≤ why then shReadIndex s1 t d.issue else s1) t q i why 0
      | none => recause (shReadIndex s1 t d.issue) t

/-- Whether a descriptor's last byte is written and acknowledged (R63). -/
def ShDesc.finished (d : ShDesc) : Bool :=
  d.started && decide (shRows d.issue ≤ d.row) && !d.merged && d.await.isEmpty && d.retry.isEmpty && d.buf.isEmpty

/-- SHUNTER_DESCRIPTOR_COMPLETE: the head descriptor completes and increments its counter (R63). -/
def shComplete (t : TileId) (q : Fin 16) (s : State) : State :=
  match shqOf s t q with
  | [] => s
  | d :: rest =>
    if d.finished then
      let s1 := setShq s t q rest
      let s2 := if bit d.issue.w3 54 then cntInc s1 t (bits d.issue.w3 53 48) 1 else s1
      passAll s2 t
    else s

/-- MERGE_WINDOW_EXPIRY: every open merge packet whose window has passed is sent (R66). -/
def mergeExpiry (t : TileId) (s0 : State) : State :=
  let w := fld s0 (tileReg t 0x400) 6 1 * cclk s0 t
  let s := match earliest ((tileOf s0 t).q.merge.map (fun m => m.opened + w)) with
    | some v => waitVco s0 v
    | none => s0
  let due := (tileOf s t).q.merge.filter (fun m => decide (m.opened + w ≤ s.vco))
  recause (forEach due s (fun s m => sendMerge s t m.q.val)) t

/-! ### Answers to the shunter's packets -/

/-- Whether a packet answers a request: the same TAG and address. -/
def answers (p r : Packet) : Bool := decide (p.tag = r.tag ∧ p.addr = r.addr)

/-- The queue and place of the first descriptor that awaits a packet's answer. -/
def shAwaiting (s : State) (t : Nat) (p : Packet) : Option (Nat × Nat × ShDesc × ShPacket) :=
  ((tileOf s t).q.shq.flatMap (fun k => (List.zip (List.range k.2.length) k.2).filterMap (fun d =>
    (d.2.await.find? (fun r => answers p r.p)).map (fun r => (k.1, d.1, d.2, r))))).head?

/-- Take an answered packet off every descriptor that awaits it. -/
def shAnswered (s : State) (t q : Nat) (p : Packet) : State :=
  setShq s t q ((shqOf s t q).map (fun d => { d with await := d.await.filter (fun r => !(answers p r.p)) }))

/-- An ACK for the shunter. -/
def shAck (s : State) (t : Nat) (p : Packet) : State :=
  match shAwaiting s t p with
  | none => s
  | some (q, _, _, _) => shAnswered s t q p

/-- A NAK for the shunter (R64): RETRY sends the packet again 2 µs later; any other reason fails the descriptor. -/
def shNak (s : State) (t : Nat) (p : Packet) : State :=
  match shAwaiting s t p with
  | none => s
  | some (q, i, _, r) =>
    if p.nakr.toNat = 7 then
      updDesc (shAnswered s t q p) t q i (fun d => { d with retry := d.retry ++ [(s.now + 2000, r)] })
    else shHalt s t q i 9 p.nakr.toNat

/-- The source bytes of a row that have arrived, in order; `none` while some are missing. -/
def rowBytes (len : Nat) (r : Nat) (buf : List (Nat × Nat × List Byte)) : Nat → Nat → Option (List Byte)
  | 0, pos => if pos = len then some [] else none
  | fuel + 1, pos =>
    if pos = len then some []
    else match buf.find? (fun b => decide (b.1 = r ∧ b.2.1 = pos)) with
      | none => none
      | some b => if b.2.2 = [] then none else (rowBytes len r buf fuel (pos + b.2.2.length)).map (fun l => b.2.2 ++ l)

/-- Convert and write, in row order, the rows whose bytes have all arrived (R86). -/
def convertRows (t q i : Nat) : Nat → State → State
  | 0, s => s
  | fuel + 1, s =>
    match (shqOf s t q)[i]? with
    | none => s
    | some d =>
      let e := d.issue
      match rowBytes (shLen e) d.conv d.buf (shLen e) 0 with
      | none => s
      | some bs =>
        let c := shConvert s t e bs
        let off := (shRowAddr s t e d.conv).2 % 2 ^ 23
        match shWrite c.1 t e.by_.ctx off c.2 with
        | none => shHalt c.1 t q i 3 0
        | some s' =>
          convertRows t q i fuel (updDesc s' t q i (fun d =>
            { d with conv := d.conv + 1, buf := d.buf.filter (fun b => decide (b.1 ≠ d.conv)) }))

/-- Whether data for a row of a descriptor cannot land yet: its row, or one that it would let convert, ends in an accumulator bank that the TE
holds (R61). -/
def landsHeld (s : State) (t : Nat) (d : ShDesc) (row : Nat) : Bool :=
  (row :: d.buf.map (fun b => b.1)).any (fun r => match ownOffset t (shRowAddr s t d.issue r).2 with
    | some off => accHeldIn s t off (shOut d.issue (shLen d.issue))
    | none => false)

/-- Whether read data for the shunter waits: for an accumulator bank that the TE holds (R61). -/
def shHeld (s : State) (t : Nat) (p : Packet) : Bool := match shAwaiting s t p with
  | some (_, _, d, r) => !p.poison && landsHeld s t d r.row
  | none => false

/-- Read data for the shunter: written at its row, or held until the row can be converted whole. Poisoned data is an uncorrectable read (R64). -/
def shReadResp (s : State) (t : Nat) (p : Packet) : State :=
  match shAwaiting s t p with
  | none => s
  | some (q, i, d, r) =>
    if p.poison then shHalt s t q i 6 0
    else
      let s1 := shAnswered s t q p
      if shConverts d.issue then
        convertRows t q i (shRows d.issue) (updDesc s1 t q i (fun d => { d with buf := d.buf ++ [(r.row, r.byte, p.data)] }))
      else
        let off := (shRowAddr s1 t d.issue r.row).2 % 2 ^ 23 + r.byte
        match shWrite s1 t d.issue.by_.ctx off p.data with
        | none => shHalt s1 t q i 3 0
        | some s' => s'

/-- The packets of a descriptor whose RETRY wait is over, with this TAG, are sent again (R215). -/
def shResend (s0 : State) (t : Nat) (tag : BitVec 16) : State :=
  let s := waitEarliest s0 ((shDescs (tileOf s0 t)).flatMap (fun d => (d.retry.filter (fun r => decide (r.2.p.tag = tag))).map (fun r => r.1)))
  forEach (List.range 16) s (fun s q =>
    forEach (List.range (shqOf s t q).length) s (fun s i =>
      match (shqOf s t q)[i]? with
      | none => s
      | some d =>
        let due := d.retry.filter (fun r => decide (r.2.p.tag = tag ∧ r.1 ≤ s.now))
        if due.isEmpty then s
        else tileSendAll (updDesc s t q i (fun d => { d with
            retry := d.retry.filter (fun r => !(decide (r.2.p.tag = tag ∧ r.1 ≤ s.now)))
            await := d.await ++ due.map (fun r => r.2) })) t (due.map (fun r => r.2.p))))

/-! ### Issue (R142) -/

/-- Issue a shunter instruction: the descriptor's 32 bytes are read now (R127). -/
def shIssue (t : TileId) (w : IWord) (op : Nat) (s : State) : State :=
  issue s t (Form.sh.ok w) [w.a] (fun i s =>
    let off := (xGet (issuerCtx s t i) w.a).toNat
    let q : Fin 16 := Fin.ofNat 16 (w.extBits 3 0)
    let inside := decide (off % 32 = 0 ∧ off + 32 ≤ 0x600000)
    let r := if inside then tileRead s t (some i.ctx) .scr off 32 else (s, [], false)
    if r.2.2 then issueFault r.1 t i 0x04
    else
      let wd (k : Nat) : Word := BitVec.ofNat 64 (leNat ((r.2.1.drop (8 * k)).take 8))
      passAll (enqueue r.1 t i .sh (tileOf s t).q.sh.length (fun x =>
        { x with sh := x.sh ++ [⟨i, BitVec.ofNat 4 op, q, off, wd 0, wd 1, wd 2, wd 3⟩] })) t)

/-! ### Meanings -/

/-- SHMV (R142). -/
def execShmv (t : TileId) (w : IWord) (s : State) : Host.Outcome State Fault Refusal := .next (shIssue t w 0 s)

/-- SHGATHER (R142). -/
def execShgather (t : TileId) (w : IWord) (s : State) : Host.Outcome State Fault Refusal := .next (shIssue t w 1 s)

/-- SHSCATTER (R142). -/
def execShscatter (t : TileId) (w : IWord) (s : State) : Host.Outcome State Fault Refusal := .next (shIssue t w 2 s)

/-- SHUNTER_DESCRIPTOR_START (R64). -/
def execShunterDescriptorStart (t : TileId) (q : Fin 16) (s : State) : Host.Outcome State Fault Refusal := .next (shStart t q s)

/-- SHUNTER_CHUNK_TURN (R65). -/
def execShunterChunkTurn (t : TileId) (s : State) : Host.Outcome State Fault Refusal :=
  .next (if clockOn s t.val then shTurn t s else s)

/-- MERGE_WINDOW_EXPIRY (R66). -/
def execMergeWindowExpiry (t : TileId) (s : State) : Host.Outcome State Fault Refusal := .next (mergeExpiry t s)

/-- SHUNTER_DESCRIPTOR_COMPLETE (R63). -/
def execShunterDescriptorComplete (t : TileId) (q : Fin 16) (s : State) : Host.Outcome State Fault Refusal := .next (shComplete t q s)

end Sys2Proof.Machine
end

