-- ==== Sys2Proof/Machine/NiOps.lean ====
section
/-!
DEFINITION. Started network operations: their packets (R181), and what the answers to them do (R143, R181, R187, R215).

What the spec leaves open here: log entry 95.
-/

namespace Sys2Proof.Machine

/-! ### Tags and packets -/

/-- The next tag of the NI; its tags have bit 15 clear. -/
def niTag (s : State) (t : Nat) : State × BitVec 16 :=
  let n := (tileOf s t).q.tag
  (updTile s t (fun x => { x with q := { x.q with tag := n + 1 } }), BitVec.ofNat 16 (n.toNat % 0x8000))

/-- The pieces of a transfer: place and length of each, at most 2 KiB, ascending (R181). -/
def pieces (n : Nat) : List (Nat × Nat) :=
  (List.range (ceilDiv n 2048)).map (fun k => (2048 * k, min 2048 (n - 2048 * k)))

/-- The context whose bank mode an operation's local side uses: none for a fired entry (R48). -/
def NiOp.who (o : NiOp) : Option CtxId := o.issuer.map (fun i => i.ctx)

/-- A request of an operation, on the plane it wants. -/
def opRequest (s : State) (t : Nat) (o : NiOp) (type addr : Nat) (tag : BitVec 16) (data : List Byte) : Packet :=
  let p := request (t / 144) (t % 144) (partNum s t) type addr tag.toNat data
  { p with plane := planeWanted o.plane.toNat (t % 144) p.dstTile.toNat addr }

/-- RC_EN goes on the last packet only (R181). -/
def markLast (o : NiOp) : List Packet → List Packet
  | [] => []
  | [p] => [{ p with rcnt := o.rc, rcEn := o.rcEn }]
  | p :: q :: r => p :: markLast o (q :: r)

/-- The packets of an operation; `data` are the local bytes of a PUT. -/
def opPackets (s : State) (t : Nat) (o : NiOp) (tag : BitVec 16) (data : List Byte) : List Packet :=
  markLast o (match o.kind with
    | .send => [opRequest s t o 0 o.dga.toNat tag (leBytes 8 o.value.toNat)]
    | .put => (pieces o.len).map (fun k => opRequest s t o 0 (o.dga.toNat + k.1) tag ((data.drop k.1).take k.2))
    | .get => (pieces o.len).map (fun k =>
        { opRequest s t o 1 (o.dga.toNat + k.1) tag [] with xdata := BitVec.ofNat 48 k.2 })
    | .cntInc => [opRequest s t o 5 o.dga.toNat tag []]
    | .coll | .localInc => [])

/-- Whether PLANE 0 has placed packets on both planes (R181). -/
def bothPlanes (o : NiOp) (ps : List Packet) : Bool :=
  decide (o.plane = 0) && ps.any (fun p => decide (p.plane = .up)) && ps.any (fun p => decide (p.plane = .down))

/-- Start an operation's packets: all are injected, but for the last one where they travel on both planes, which waits for the answers to the
others (R181). -/
def sendOp (s : State) (t : Nat) (o : NiOp) (data : List Byte) : State :=
  let g := niTag s t
  let ps := opPackets g.1 t o g.2 data
  let split := bothPlanes o ps
  let now := if split then ps.dropLast else ps
  let st : NiStarted := ⟨o, g.2, now, if split then ps.getLast? else none, [], s.now, 0⟩
  tileSendAll (updTile g.1 t (fun x => { x with q := { x.q with started := x.q.started ++ [st] } })) t now

/-! ### Started operations -/

/-- Change the started operation of a tag. -/
def updStarted (s : State) (t : Nat) (tag : BitVec 16) (f : NiStarted → NiStarted) : State :=
  updTile s t (fun x => { x with q := { x.q with started := x.q.started.map (fun o => if o.tag = tag then f o else o) } })

/-- Remove a started operation. -/
def dropStarted (s : State) (t : Nat) (tag : BitVec 16) : State :=
  updTile s t (fun x => { x with q := { x.q with started := x.q.started.filter (fun o => decide (o.tag ≠ tag)) } })

/-- The started operation that awaits the answer that a packet is. -/
def awaiting (s : State) (t : Nat) (p : Packet) : Option NiStarted :=
  (tileOf s t).q.started.find? (fun o => decide (o.tag = p.tag) && o.await.any (answers p))

/-- A started operation fails (R143, R187). -/
def failStarted (s : State) (t : Nat) (o : NiStarted) (nakr : Nat) : State := failNiOp (dropStarted s t o.tag) t o.op nakr

/-- An answer has come: the packet is awaited no longer, and the last packet follows once the others are all answered (R181). -/
def answered (s : State) (t : Nat) (o : NiStarted) (p : Packet) : State :=
  let rest := o.await.filter (fun r => !(answers p r))
  match o.held with
  | some h =>
    if rest.isEmpty && o.retry.isEmpty then
      tileSend (updStarted s t o.tag (fun x => { x with await := [h], held := none })) t h
    else updStarted s t o.tag (fun x => { x with await := rest })
  | none => updStarted s t o.tag (fun x => { x with await := rest })

/-- An ACK for the NI. -/
def niAck (s : State) (t : Nat) (p : Packet) : State :=
  match awaiting s t p with
  | some o => answered s t o p
  | none => s

/-- A NAK for the NI: RETRY sends the packet again 2 µs later with the same TAG (R215), any other reason fails the operation. -/
def niNak (s : State) (t : Nat) (p : Packet) : State :=
  match awaiting s t p with
  | none => s
  | some o =>
    if p.nakr.toNat = 7 then
      updStarted s t o.tag (fun x => { x with
        await := x.await.filter (fun r => !(answers p r))
        retry := x.retry ++ (x.await.filter (answers p)).map (fun r => (s.now + 2000, r)) })
    else failStarted s t o p.nakr.toNat

/-- Read data for the NI lands at LOCAL; on a KEEP range with WR = 0 it is dropped whole and the operation fails (R143, R187); poisoned data
fails it as well. DESIGN CHOICE (log 95): the data lands under SCR_MODE.EXT, as what arrives from the network does (R48). -/
def niReadResp (s : State) (t : Nat) (p : Packet) : State :=
  match awaiting s t p with
  | none => s
  | some o =>
    let off := o.op.loc + (p.addr.toNat - o.op.dga.toNat)
    if p.poison then failStarted s t o (poisonWhy p)
    else if keepBlocks s t off p.data.length then failStarted (tileEvent s t 0x20) t o 3
    else answered (tileWrite s t none .scr off p.data) t o p

/-- The packets of the NI whose RETRY wait is over, with this TAG, are sent again (R215). -/
def niResend (s0 : State) (t : Nat) (tag : BitVec 16) : State :=
  match (tileOf s0 t).q.started.find? (fun o => decide (o.tag = tag)) with
  | none => s0
  | some o =>
    let s := waitEarliest s0 (o.retry.map (fun r => r.1))
    let due := (o.retry.filter (fun r => decide (r.1 ≤ s.now))).map (fun r => r.2)
    tileSendAll (updStarted s t tag (fun x => { x with
      retry := x.retry.filter (fun r => !(decide (r.1 ≤ s.now)))
      await := x.await ++ due })) t due

/-- Whether a tag is the shunter's. -/
def isShTag (tag : BitVec 16) : Bool := decide (0x8000 ≤ tag.toNat)

/-- Whether read data waits before it lands (R61). -/
def respHeld (s : State) (p : Packet) : Bool :=
  decide (p.dstDie.toNat < 40 ∧ p.dstTile.toNat < 144) && isShTag p.tag && shHeld s (packetDst p) p

/-- An answer goes to the unit whose TAG it carries; an answer for a station die or a die block is awaited by nothing that the model holds. -/
def toSource (s : State) (p : Packet) (ni sh : State → Nat → Packet → State) : State :=
  if p.dstDie.toNat < 40 ∧ p.dstTile.toNat < 144 then
    recause ((if isShTag p.tag then sh else ni) s (packetDst p) p) (packetDst p)
  else s

end Sys2Proof.Machine
end

