-- ==== Sys2Proof/Machine/Collectives.lean ====
section
/-!
DEFINITION. Broadcast and reduce-to-one: landing records, root records, the points reducers (R188 to R203).

What the spec leaves open here: log entries 7, 12, 28, 95, 109 and 110.
-/

namespace Sys2Proof.Machine

/-! ### Collective packets (R191, Table 7.4) -/

/-- COLL_ID. -/
def pColl (p : Packet) : Nat := p.xdata.toNat % 2 ^ 12
/-- COUNT: contributions, or the member index of a grant. -/
def pCount (p : Packet) : Nat := p.xdata.toNat / 2 ^ 21 % 2 ^ 13
/-- RTYPE of the payload. -/
def pRtype (p : Packet) : Nat := p.xdata.toNat / 2 ^ 34 % 8
/-- FLAG. -/
def pFlag (p : Packet) : Bool := p.xdata.getLsbD 37
/-- UNIT. -/
def pUnit (p : Packet) : Nat := p.xdata.toNat / 2 ^ 38 % 2 ^ 8

/-- XDATA of a collective packet. -/
def collXdata (coll count rtype : Nat) (flag : Bool) (unit : Nat) : BitVec 48 :=
  BitVec.ofNat 48 (coll % 2 ^ 12 + count % 2 ^ 13 * 2 ^ 21 + rtype % 8 * 2 ^ 34 + b2n flag * 2 ^ 37 + unit % 2 ^ 8 * 2 ^ 38)

/-- A collective packet of an operation of a tile; COLL packets hold no inline bytes. `dst` is the target tile of a broadcast packet. -/
def collPacket (s : State) (t : Nat) (c : CollDesc) (tag : BitVec 16) (type : Nat) (addr : Nat) (dst : Option Nat) (seg : Nat) (x : BitVec 48)
    (data : List Byte) : Packet :=
  let p := request (t / 144) (t % 144) (partNum s t) type addr tag.toNat []
  { p with
    ch := 2, plane := c.line
    dstDie := match dst with
      | some d => BitVec.ofNat 6 (d / 144)
      | none => p.dstDie
    dstTile := match dst with
      | some d => BitVec.ofNat 8 (d % 144)
      | none => p.dstTile
    pl64 := BitVec.ofNat 6 (ceilDiv data.length 64), tailb := BitVec.ofNat 6 (data.length % 64)
    xdata := x, group := c.group, seg := BitVec.ofNat 64 seg, data := data }

/-- A member's index (R189). -/
def memberIndex (ms : List Nat) (t : Nat) : Nat := (ms.takeWhile (fun m => decide (m ≠ t))).length

/-- A write of the NI for a collective; a KEEP range with WR = 0 discards it whole (R57). -/
def niWrite (s : State) (t off : Nat) (bs : List Byte) : State :=
  if keepBlocks s t off bs.length then tileEvent s t 0x20 else tileWrite s t none .scr off bs

/-! ### Records -/

/-- Change a tile's collective records. -/
def updColl (s : State) (t : Nat) (f : Coll → Coll) : State := updTile s t (fun x => { x with coll := f x.coll })

/-- Replace a plane's landing records. -/
def Coll.setLand (c : Coll) (pl : Plane) (l : List Landing) : Coll :=
  match pl with
  | .up => { c with landUp := l }
  | .down => { c with landDn := l }

/-- Replace a plane's landing wait list. -/
def Coll.setLwait (c : Coll) (pl : Plane) (l : List Landing) : Coll :=
  match pl with
  | .up => { c with lwaitUp := l }
  | .down => { c with lwaitDn := l }

/-- Replace a plane's reducer slots. -/
def Coll.setSlots (c : Coll) (pl : Plane) (l : Sparse PrSlot) : Coll :=
  match pl with
  | .up => { c with slotsUp := l }
  | .down => { c with slotsDn := l }

/-- Replace a plane's waiting RD_OPENs. -/
def Coll.setWaits (c : Coll) (pl : Plane) (l : List Waiter) : Coll :=
  match pl with
  | .up => { c with waitUp := l }
  | .down => { c with waitDn := l }

/-- One role of a started collective is over (R181). -/
def roleDone (s : State) (t : Nat) (tag : BitVec 16) : State := updStarted s t tag (fun o => { o with roles := o.roles - 1 })

/-- The started operation of a tag. -/
def startedOf (s : State) (t : Nat) (tag : BitVec 16) : Option NiStarted :=
  (tileOf s t).q.started.find? (fun o => decide (o.tag = tag))

/-- The record of the same collective. -/
def sameColl (part coll root : Nat) (p : PartId) (c r : Nat) : Bool := decide (p.val = part ∧ c = coll ∧ r = root)

/-- A collective is open from its first NCOLL on: the reducers learn the length of its last segment (log 12). -/
def openColl (s : State) (t : Nat) (o : NiOp) : State :=
  let c := o.desc
  let rest := s.m.colls.filter (fun x => !(sameColl (partNum s t) c.collId c.root x.part x.collId x.root))
  updM s (fun m => { m with colls := rest ++ [⟨Fin.ofNat 8 (partNum s t), c.collId, c.root, o.c0⟩] })

/-! ### Broadcast: the target (R192, R194) -/

/-- A target's BC_GRANT, or its request to send again. -/
def grantPacket (s : State) (t : Nat) (l : Landing) (again : Bool) : Packet :=
  let c := l.op.desc
  collPacket s t c l.tag 0xB c.root none 0 (collXdata c.collId (memberIndex (members s c.group) t) 0 again 0) []

/-- Take a landing record and send BC_GRANT. -/
def takeLanding (s : State) (t : Nat) (l : Landing) : State :=
  let pl := l.op.desc.line
  tileSend (updColl s t (fun k => k.setLand pl (k.land pl ++ [l]))) t (grantPacket s t l false)

/-- Whether two landings are of one collective. -/
def Landing.same (l : Landing) (part : Nat) (c : CollDesc) : Bool := sameColl part c.collId c.root l.part l.collId l.root

/-- A target's posting: one on a standing collective whose landing it has posted before takes no record (R194), and has completed already where
a landing has ended since its issue; another takes a free record, after those that wait, or enters the wait list (R192). -/
def startTarget (s : State) (t : Nat) (o : NiOp) (tag : BitVec 16) : State :=
  let c := o.desc
  let pl := c.line
  let k := (tileOf s t).coll
  let l : Landing := ⟨Fin.ofNat 8 (partNum s t), c.collId, c.root, o, tag, [], []⟩
  let own (l : Landing) : Bool := c.standing && l.same (partNum s t) c
  let join (ls : List Landing) : List Landing := ls.map (fun l => if own l then { l with later := l.later ++ [tag] } else l)
  if (k.land pl ++ k.lwait pl).any own then
    (if o.ended then roleDone s t tag else updColl s t (fun k => (k.setLand pl (join (k.land pl))).setLwait pl (join (k.lwait pl))))
  else if (k.land pl).length < 4 ∧ (k.lwait pl).isEmpty then takeLanding s t l
  else updColl s t (fun k => k.setLwait pl (k.lwait pl ++ [l]))

/-- The waiting posting that goes first: ascending root tile, then COLL_ID (R192). -/
def firstPosting : List Landing → Option Landing
  | [] => none
  | l :: ls => match firstPosting ls with
    | none => some l
    | some m =>
      if dgaTile m.root < dgaTile l.root ∨ (dgaTile m.root = dgaTile l.root ∧ m.collId < l.collId) then some m else some l

/-- LANDING_RECORD_GRANT: a waiting posting takes a freed record (R192). -/
def grantLanding (s : State) (t : Nat) (pl : Plane) : State :=
  let k := (tileOf s t).coll
  match firstPosting (k.lwait pl) with
  | none => s
  | some l =>
    if (k.land pl).length < 4 then
      takeLanding (updColl s t (fun k => k.setLwait pl ((k.lwait pl).filter (fun m => decide (m.tag ≠ l.tag))))) t l
    else s

/-- Whether ranges cover all bytes below a length. -/
def covers (len : Nat) (l : List (Nat × Nat)) : Nat → Nat → Bool
  | 0, pos => decide (len ≤ pos)
  | fuel + 1, pos =>
    if len ≤ pos then true
    else match l.find? (fun r => decide (r.1 ≤ pos ∧ pos < r.1 + r.2)) with
      | none => false
      | some r => covers len l fuel (r.1 + r.2)

/-- Whether an operation posts the landing of a standing collective that another posting holds. -/
def NiOp.posts (o : NiOp) (part : Nat) (l : Landing) : Bool :=
  decide (o.kind = .coll) && !o.desc.reduce && o.desc.standing && l.same part o.desc

/-- A landing is complete: the posting that waits for it ends, or, of a standing one, the LC of the first posting is incremented; so do its later
postings, those that have issued and not started too (R194). -/
def landed (s : State) (t : Nat) (l : Landing) : State :=
  let pl := l.op.desc.line
  let first := match startedOf s t l.tag with
    | some o => if 0 < o.roles then roleDone s t l.tag else incLc s t l.op
    | none => incLc s t l.op
  let mark (ops : List NiOp) : List NiOp := ops.map (fun o => if o.posts (partNum s t) l then { o with ended := true } else o)
  let s1 := updTile (forEach l.later first (fun s g => roleDone s t g)) t (fun x =>
    { x with q := { x.q with ni := mark x.q.ni, fire := mark x.q.fire } })
  if l.op.desc.standing then
    updColl s1 t (fun k => k.setLand pl ((k.land pl).map (fun m => if m.tag = l.tag then { m with landed := [], later := [] } else m)))
  else updColl s1 t (fun k => k.setLand pl ((k.land pl).filter (fun m => decide (m.tag ≠ l.tag))))

/-- The landing that a BC_DATA packet belongs to, whichever plane the packet has come on (R162). -/
def landingOf (k : Coll) (p : Packet) : Option Landing :=
  (k.landUp ++ k.landDn).find? (fun l =>
    decide (l.part.val = p.part.toNat ∧ l.collId = pColl p ∧ l.root ≤ p.addr.toNat ∧ p.addr.toNat < l.root + l.op.desc.len))

/-- The bytes of a broadcast where its source has been written since they were read: each one old or new, which R195 leaves open. -/
def mixBytes (n a : Nat) : List Byte → List Byte → List Byte
  | x :: xs, y :: ys => (if Config.newByte n a then y else x) :: mixBytes n (a + 1) xs ys
  | _, _ => []

/-- The root record of a broadcast whose NCOLL has not completed, for a packet of it. -/
def openBcast (s : State) (p : Packet) : Option RootRec :=
  let x := tileOf s (packetSrc p)
  if p.type = 0xA then x.coll.roots.find? (fun r => decide (r.part.val = p.part.toNat ∧ r.collId = pColl p ∧ r.root ≤ p.addr.toNat
    ∧ p.addr.toNat < r.root + r.op.desc.len) && !r.op.desc.reduce && x.q.started.any (fun o => decide (o.tag = p.tag))) else none

/-- A packet of a broadcast as it is now: where the root has not completed and its source has changed, an open mixture (R195). -/
def mixed (s : State) (p : Packet) : Packet :=
  match openBcast s p with
  | none => p
  | some r =>
    let now := tileBytes s (packetSrc p) r.op.who (p.addr.toNat % 2 ^ 23) p.data.length
    if now = p.data then p else { p with data := mixBytes s.fresh p.addr.toNat p.data now }

/-- Every broadcast packet on its way from a tile takes the bytes it has from now on. -/
def mixAll (s : State) (t : Nat) : State :=
  let f (p : Packet) : Packet := if packetSrc p = t ∧ p.srcDie.toNat < 40 then mixed s p else p
  let m : Module := { s.m with net := s.m.net.map f, worms := s.m.worms.map (fun w => { w with p := f w.p }) }
  if m = s.m then s else { updM s (fun _ => m) with fresh := s.fresh + 1 }

/-- BC_DATA at a target (R193, R194): written at LOCAL + (ADDR − ROOT); without a landing discarded and counted; poisoned, discarded and asked
for again. -/
def landData (s : State) (t : Nat) (p : Packet) : State :=
  match landingOf (tileOf s t).coll p with
  | none => addFld s (tileReg t 0x1218) 63 32 1
  | some l =>
    if p.poison then tileSend s t (grantPacket s t l true)
    else
      let at_ := p.addr.toNat - l.root
      let off := l.op.desc.loc + at_
      let pl := l.op.desc.line
      if keepBlocks s t off p.data.length then tileEvent s t 0x20
      else
        let m := { l with landed := l.landed ++ [(at_, p.data.length)] }
        let s1 := updColl (tileWrite s t none .scr off p.data) t (fun k =>
          k.setLand pl ((k.land pl).map (fun x => if x.tag = l.tag then m else x)))
        if covers l.op.desc.len m.landed (m.landed.length) 0 then landed s1 t m else s1

/-! ### Broadcast: the root (R193 to R195) -/

/-- Remove a root record. -/
def dropRoot (s : State) (t : Nat) (tag : BitVec 16) : State :=
  updColl s t (fun k => { k with roots := k.roots.filter (fun r => decide (r.tag ≠ tag)) })

/-- Replace a root record. -/
def setRoot (s : State) (t : Nat) (r : RootRec) : State :=
  updColl s t (fun k => { k with roots := k.roots.map (fun q => if q.tag = r.tag then r else q) })

/-- A data packet of a broadcast for a target: a piece with its bytes as they stand at ROOT (R195). -/
def bcPacket (s : State) (t : Nat) (o : NiOp) (tag : BitVec 16) (flag : Bool) (k : Nat × Nat) (target : Nat) : Packet :=
  let c := o.desc
  collPacket s t c tag 0xA (c.root + k.1) (some target) 0 (collXdata c.collId 0 0 flag 0)
    (tileBytes s t o.who (c.root % 2 ^ 23 + k.1) k.2)

/-- The targets of a broadcast: the members other than the root (R192). -/
def bcTargets (s : State) (c : CollDesc) : List Nat := (members s c.group).filter (fun m => decide (m ≠ c.rootTile))

/-- The root reads its source: corrected errors are counted, an uncorrectable one fails the operation (R53). -/
def bcSource (s : State) (t : Nat) (o : NiOp) : State × Bool :=
  eccCheck s t o.who .scr (o.desc.root % 2 ^ 23) o.desc.len

/-- The multicast: each packet travels on to every target, and the root's own copy when it is a member (R192, R193). -/
def multicast (s : State) (t : Nat) (o : NiOp) (tag : BitVec 16) : State :=
  let c := o.desc
  let s1 := if (members s c.group).contains t
    then forEach (pieces c.len) s (fun s k => niWrite s t (c.loc + k.1) (tileBytes s t o.who (c.root % 2 ^ 23 + k.1) k.2))
    else s
  forEach (pieces c.len) s1 (fun s1 k => castAll s1 t ((bcTargets s c).map (bcPacket s t o tag true k)))

/-- A root whose source or destination cannot be read fails (R53). -/
def failRoot (s : State) (t : Nat) (r : RootRec) : State :=
  let s1 := dropRoot s t r.tag
  match startedOf s1 t r.tag with
  | some o => failStarted s1 t o 0
  | none => s1

/-- Send the whole broadcast to one target, counted in NI_RESEND: the source is read again (R194, R195). -/
def resendTo (s : State) (t : Nat) (r : RootRec) (target : Nat) : State :=
  let f := bcSource s t r.op
  if f.2 then failRoot f.1 t r
  else tileSendAll (addFld f.1 (tileReg t 0x1228) 31 0 1) t ((pieces r.op.desc.len).map (fun k => bcPacket f.1 t r.op r.tag false k target))

/-- Admission (R193): the multicast, and the end of the root's role when no target is missing. The record stays until the NCOLL completes
(R194). -/
def admitRoot (s : State) (t : Nat) (r : RootRec) : State :=
  let f := bcSource s t r.op
  if f.2 then failRoot f.1 t r
  else
    let s1 := setRoot (multicast f.1 t r.op r.tag) t { r with admitted := true }
    if r.awaited ≤ r.granted.length then roleDone s1 t r.tag else s1

/-- Set the bitmap bit of a member (R193). -/
def setGrant (s : State) (t : Nat) (r : RootRec) (i : Nat) : State :=
  let off := r.op.desc.gmap + i / 8
  let b := (tileBytes s t none off 1).headD 0
  niWrite s t off [b ||| BitVec.ofNat 8 (2 ^ (i % 8))]

/-- A grant or a request to send again reaches a root that holds the record (R193, R194). -/
def takeGrant (s : State) (t : Nat) (r : RootRec) (p : Packet) : State :=
  let i := pCount p
  match (members s r.op.desc.group)[i]? with
  | none => s
  | some m =>
    if pFlag p then (if r.admitted then resendTo s t r m else s)
    else
      let seen := r.granted.contains i
      let r1 := { r with granted := if seen then r.granted else r.granted ++ [i] }
      let s1 := setRoot (setGrant s t r i) t r1
      if r.admitted then
        (if seen then s1
         else
          let s2 := resendTo s1 t r1 m
          if r1.awaited ≤ r1.granted.length then roleDone s2 t r1.tag else s2)
      else if r1.awaited ≤ r1.granted.length then admitRoot s1 t r1
      else s1

/-! ### Reduce-to-one: combining (R199, R200, R202) -/

/-- 32-bit words of bytes. -/
def lanesOf : Nat → List Byte → List Lane
  | 0, _ => []
  | n + 1, bs => BitVec.ofNat 32 (leNat (bs.take 4)) :: lanesOf n (bs.drop 4)

/-- The accumulation words of a payload: BF16 is widened exactly to FP32 (R199). -/
def accLanes (rtype : Nat) (bs : List Byte) : List Lane :=
  if rtype = 1 then (elemsOf 2 (bs.length / 2) bs).map (fun e => BitVec.ofNat 32 (e * 2 ^ 16)) else lanesOf (bs.length / 4) bs

/-- The units of a packet: accumulation words by unit number from the packet's first unit. -/
def unitsOf : Nat → Nat → List Lane → List (Nat × List Lane)
  | 0, _, _ => []
  | fuel + 1, u, ls => if ls.isEmpty then [] else (u, ls.take 16) :: unitsOf fuel (u + 1) (ls.drop 16)

/-- Combine two lists of words by one lane operation, collecting flags. -/
def combineLanes (f : Nat → Nat → Nat × Nat) (a b : List Lane) : List Lane × Nat :=
  let rs := (List.zip a b).map (fun p => f p.1.toNat p.2.toNat)
  (rs.map (fun r => BitVec.ofNat 32 r.1), rs.foldl (fun fl r => fl ||| r.2) 0)

/-- Combine CP32 pairs, hi first (R91, R93). -/
def combinePairs : List Lane → List Lane → List Lane × Nat
  | xh :: xl :: xs, yh :: yl :: ys =>
    let r := cpadd32 xh.toNat xl.toNat yh.toNat yl.toNat
    let rest := combinePairs xs ys
    (BitVec.ofNat 32 r.hi :: BitVec.ofNat 32 r.lo :: rest.1, r.fl ||| rest.2)
  | _, _ => ([], 0)

/-- The combining operation of an RTYPE (R200). -/
def combine (rtype : Nat) (a b : List Lane) : List Lane × Nat :=
  match rtype with
  | 2 => combinePairs a b
  | 3 => combineLanes (maxmin32 true) a b
  | 4 => combineLanes (maxmin32 false) a b
  | 5 => combineLanes (fun x y => (x ||| y, 0)) a b
  | _ => combineLanes (add32 .rne) a b

/-- A unit of canonical NaN (R202); a CP32 pair is (NaN, +0). -/
def nanUnit (rtype n : Nat) : List Lane :=
  (List.range n).map (fun i => if rtype = 2 ∧ i % 2 = 1 then (0 : Lane) else BitVec.ofNat 32 nan32)

/-- The flag engine of a plane's points reducer (R94). -/
def prEngine : Plane → FlagEngine
  | .up => .pru
  | .down => .prd

/-- Key of a register of a plane's points reducer (Table 7.7). -/
def prReg (t : Nat) (pl : Plane) (off : Nat) : Nat := tileReg t (0x1300 + 0x40 * planeNum pl + off)

/-! ### The reducers on the way (R197 to R199) -/

/-- The port through which a member's contributions enter a router, on the plane and generation of a packet; `none` when its route misses
the router. -/
def enters (s : State) (p : Packet) (t m : Nat) : Option Dir :=
  if m = t then some .local
  else
    let path := pathOf s { p with srcDie := BitVec.ofNat 6 (m / 144), srcTile := BitVec.ofNat 8 (m % 144) }
    match path.idxOf? t with
    | none => none
    | some i => match path[i - 1]? with
      | none => none
      | some u => allDirs.find? (fun d => decide (neighbour t d = some u))

/-- The input ports through which members' routes reach a router: its fan-in is their number, its subtree total the number of members
(R197). -/
def inputs (s : State) (p : Packet) (t : Nat) : List Dir := (members s p.group).filterMap (enters s p t)

/-- Fan-in (R197). -/
def fanIn (s : State) (p : Packet) (t : Nat) : Nat := (allDirs.filter (fun d => (inputs s p t).contains d)).length

/-- Whether a router combines the packets of a collective: fan-in 2 or more, and not a fused tile's (R197). -/
def combines (s : State) (p : Packet) (t : Nat) : Bool := !(s.m.fuses.fused.contains t) && decide (2 ≤ fanIn s p t)

/-- The first byte of a packet's segment. -/
def segBase (p : Packet) : Nat := p.addr.toNat - 64 * pUnit p

/-- The slot of a packet's segment. -/
def slotOf (s : State) (t : Nat) (p : Packet) : Option (Nat × PrSlot) :=
  ((tileOf s t).coll.slots p.plane).find? (fun k => sameColl p.part.toNat (pColl p) (segBase p) k.2.part k.2.collId k.2.base)

/-- The units of a segment, where the collective is known: its accumulation bytes, the last segment shorter (R196, log 12). -/
def segUnits (s : State) (p : Packet) : Option Nat :=
  let k := bits p.seg 12 0
  match s.m.colls.find? (fun x => decide (x.part.val = p.part.toNat ∧ x.collId = pColl p)
      && (let c := collDesc x.w0 0 0 0; decide (x.root + k * c.segBytes = segBase p))) with
  | none => none
  | some x =>
    let c := collDesc x.w0 0 0 0
    some (ceilDiv (min c.segBytes (c.accLen - k * c.segBytes)) 64)

/-- Replace or free a slot. -/
def putSlot (s : State) (t : Nat) (pl : Plane) (i : Nat) (v : Option PrSlot) : State :=
  updColl s t (fun k => k.setSlots pl (match v with
    | some x => spPut (k.slots pl) i x
    | none => spDel (k.slots pl) i))

/-- The lowest free slot of the four. -/
def freeSlot (s : State) (t : Nat) (pl : Plane) : Option Nat :=
  (List.range 4).find? (fun i => ((tileOf s t).coll.slots pl).all (fun k => decide (k.1 ≠ i)))

/-- A segment takes a slot, and the reducer forwards one RD_OPEN (R198 2). -/
def takeSlot (s : State) (t : Nat) (p : Packet) (i : Nat) : State :=
  let r := pRtype p
  let x : PrSlot := ⟨Fin.ofNat 8 p.part.toNat, pColl p, segBase p, p.seg, if r = 1 then 0 else r, p.group, p.tgen, (inputs s p t).length,
    segUnits s p, [], [], [], s.now⟩
  stay (putSlot s t p.plane i (some x)) p

/-- A run of consecutive units with equal counts and equal poison, at most 32, from the front of a list. -/
def takeRun (slot : PrSlot) (u count n : Nat) (poison : Bool) : List (Nat × Nat × List Lane) → Nat
  | [] => 0
  | (v, c, _) :: rest =>
    if n = 32 then 0
    else if v = u ∧ c = count ∧ slot.poison.contains v = poison then 1 + takeRun slot (u + 1) count (n + 1) poison rest else 0

/-- The RD_DATA packets that carry units of a slot on (R199): up to 32 consecutive units of equal counts each. -/
def slotPackets (s : State) (t : Nat) (pl : Plane) (x : PrSlot) : Nat → List (Nat × Nat × List Lane) → List Packet
  | 0, _ => []
  | _ + 1, [] => []
  | fuel + 1, (u, c, ls) :: rest =>
    let poison := x.poison.contains u
    let n := takeRun x (u + 1) c 1 poison rest
    let data := (ls ++ (rest.take n).flatMap (fun k => k.2.2)).flatMap (fun l => leBytes 4 l.toNat)
    let q := request (t / 144) (t % 144) x.part.val 9 (x.base + 64 * u) 0x8000 []
    { q with
      ch := 2, plane := pl, tgen := x.tgen, poison := poison
      pl64 := BitVec.ofNat 6 (ceilDiv data.length 64), tailb := BitVec.ofNat 6 (data.length % 64)
      xdata := collXdata x.collId c x.rtype false u, group := x.group, seg := x.seg, data := data }
      :: slotPackets s t pl x fuel (rest.drop n)

/-- Forward units of a slot: the packets go on in the plane and generation of the segment, and enter their router at the reducer's port. -/
def forwardUnits (s : State) (t : Nat) (pl : Plane) (x : PrSlot) (us : List (Nat × Nat × List Lane)) : State :=
  forEach (slotPackets s t pl x us.length us) s (fun s q =>
    offer (updM s (fun m => { m with net := m.net ++ [q] })) q [(q.dstDie, q.dstTile)] t (portKey t pl 6))

/-- Put one contribution to a unit into a slot: stored first, combined later (R199, R200); a poisoned one makes it NaN (R202). -/
def slotUnit (pl : Plane) (t : Nat) (count : Nat) (poison : Bool) (a : State × PrSlot) (u : Nat × List Lane) : State × PrSlot :=
  let x := a.2
  match spGet (x.units.map (fun k => (k.1, some k.2))) none u.1 with
  | none =>
    let v := if poison then nanUnit x.rtype u.2.length else u.2
    (if poison then raiseFlags a.1 t (prEngine pl) fNF else a.1,
     { x with units := spPut x.units u.1 (count, v), poison := if poison then u.1 :: x.poison else x.poison })
  | some (c, old) =>
    let bad := poison || x.poison.contains u.1
    let r := if bad then (nanUnit x.rtype old.length, fNF) else combine x.rtype old u.2
    (addFld (raiseFlags a.1 t (prEngine pl) r.2) (prReg t pl 0x20) 63 0 1,
     { x with units := spPut x.units u.1 (c + count, r.1), poison := if poison && !(x.poison.contains u.1) then u.1 :: x.poison else x.poison })

/-- Data enters a slot; complete units are forwarded, and the slot frees when all have been (R199). -/
def slotData (s : State) (t : Nat) (i : Nat) (x : PrSlot) (p : Packet) : State :=
  let us := unitsOf p.data.length (pUnit p) (accLanes (pRtype p) p.data)
  let r := us.foldl (slotUnit p.plane t (pCount p) p.poison) (s, { x with last := s.now })
  let y := r.2
  let done := y.units.filter (fun k => decide (y.total ≤ k.2.1) && !(y.sent.contains k.1))
  let z : PrSlot := { y with sent := y.sent ++ done.map (fun k => k.1) }
  let s1 := forwardUnits r.1 t p.plane y done
  putSlot s1 t p.plane i (if z.size = some z.sent.length then none else some z)

/-- PR_IDLE_FLUSH (R199): an idle slot forwards its partial units and frees. -/
def flushSlot (s0 : State) (t : Nat) (pl : Plane) (i : Nat) : State :=
  match spGet (((tileOf s0 t).coll.slots pl).map (fun k => (k.1, some k.2))) none i with
  | none => s0
  | some x =>
    let s := waitUntil s0 (x.last + fld s0 (prReg t pl 0) 31 16 * 10)
    putSlot (forwardUnits (addFld s (prReg t pl 0x18) 31 0 1) t pl x (x.units.filter (fun k => !(x.sent.contains k.1)))) t pl i none

/-- The order of RD_OPENs that arrived together: local, north, east, south, west (R198). -/
def portRank : Dir → Nat
  | .local => 0
  | .north => 1
  | .east => 2
  | .south => 3
  | .west => 4

/-- The waiter that goes first: the oldest, then port order. -/
def firstWaiter : List Waiter → Option Waiter
  | [] => none
  | w :: ws => match firstWaiter ws with
    | none => some w
    | some v => if v.since < w.since ∨ (v.since = w.since ∧ portRank v.port < portRank w.port) then some v else some w

/-- RD_OPEN_SLOT_GRANT (R198): RD_OPENs whose segment holds a slot by now are absorbed; a free slot goes to the oldest one left. -/
def grantSlot (s : State) (t : Nat) (pl : Plane) : State :=
  let ws := (tileOf s t).coll.waits pl
  let left := ws.filter (fun w => (slotOf s t w.packet).isNone)
  let s1 := forEach (ws.filter (fun w => (slotOf s t w.packet).isSome)) (updColl s t (fun k => k.setWaits pl left)) (fun s w => dropCopy s w.packet)
  match firstWaiter left, freeSlot s1 t pl with
  | some w, some i => takeSlot (updColl s1 t (fun k => k.setWaits pl (left.erase w))) t w.packet i
  | _, _ => s1

/-- PR_WAIT_EXPIRY (R198 4): RD_OPENs that have waited PR_WAIT go on without a slot. -/
def passWaiters (s0 : State) (t : Nat) (pl : Plane) : State :=
  let ends (w : Waiter) : Nat := w.since + fld s0 (prReg t pl 0) 15 0 * 10
  let s := waitEarliest s0 (((tileOf s0 t).coll.waits pl).map ends)
  let due := ((tileOf s t).coll.waits pl).filter (fun w => decide (ends w ≤ s.now))
  forEach due s (fun s w => stay (addFld (updColl s t (fun k => k.setWaits pl ((k.waits pl).erase w))) (prReg t pl 0x10) 31 0 1) w.packet)

/-! ### Reduce-to-one: the root (R201) -/

/-- The root record of a packet's collective at a tile. -/
def rootOf (s : State) (t : Nat) (p : Packet) : Option RootRec :=
  (tileOf s t).coll.roots.find? (fun r => decide (r.part.val = p.part.toNat ∧ r.collId = pColl p)
    && (if r.op.desc.reduce then decide (r.root ≤ p.addr.toNat ∧ p.addr.toNat < r.root + r.op.desc.accLen)
        else decide (r.root = p.addr.toNat)))

/-- Combine one contribution to a unit into the destination; the state, and whether the destination could be read. -/
def rootUnit (t : Nat) (r : RootRec) (pl : Plane) (poison : Bool) (first : Nat) (a : State × Bool) (u : Nat × List Lane) : State × Bool :=
  let g := first + u.1
  let off := r.root % 2 ^ 23 + 64 * g
  let rt := if r.op.desc.rtype = 1 then 0 else r.op.desc.rtype
  let n := 4 * u.2.length
  if spGet r.counts 0 g = 0 then
    let v := if poison then nanUnit rt u.2.length else u.2
    (niWrite (if poison then raiseFlags a.1 t (prEngine pl) fNF else a.1) t off (v.flatMap (fun l => leBytes 4 l.toNat)), a.2)
  else
    let old := tileRead a.1 t none .scr off n
    let v := if poison then (nanUnit rt u.2.length, fNF) else combine rt (lanesOf u.2.length old.2.1) u.2
    if old.2.2 then (old.1, false)
    else
      (niWrite (addFld (raiseFlags old.1 t (prEngine pl) v.2) (prReg t pl 0x20) 63 0 1) t off (v.1.flatMap (fun l => leBytes 4 l.toNat)), a.2)

/-- A contribution reaches the root's record (R201): combined into ROOT; the record is released when every unit is final. A payload that meets a
KEEP range with WR = 0 is discarded whole (R57); its units count. An uncorrectable destination word is not combined and fails the
operation (R53). -/
def rootData (s : State) (t : Nat) (r : RootRec) (p : Packet) : State :=
  let first := (segBase p - r.root) / 64
  let us := unitsOf p.data.length (pUnit p) (accLanes (pRtype p) p.data)
  let off := r.root % 2 ^ 23 + 64 * (first + pUnit p)
  let e := if keepBlocks s t off (4 * (us.map (fun u => u.2.length)).sum) then (tileEvent s t 0x20, true)
    else us.foldl (rootUnit t r p.plane p.poison first) (s, true)
  let counts := us.foldl (fun c u => spSet c 0 (first + u.1) (spGet c 0 (first + u.1) + pCount p)) r.counts
  let s1 := setRoot e.1 t { r with counts := counts }
  if !e.2 then failRoot s1 t r
  else if (List.range (ceilDiv r.op.desc.accLen 64)).all (fun g => decide (r.awaited ≤ spGet counts 0 g)) then
    dropRoot (roleDone s1 t r.tag) t r.tag
  else s1

/-- A packet is served by a root record. -/
def useRoot (s : State) (t : Nat) (r : RootRec) (p : Packet) : State :=
  if p.type = 0xB then takeGrant s t r p
  else if p.type = 9 then rootData s t r p
  else s

/-- Whether a collective packet that waits at the head of a siding holds up those behind it on its port (R193, R198, R201). -/
def portHeld (s : State) (t : Nat) (pl : Plane) (port : Dir) : Bool :=
  let k := (tileOf s t).coll
  (k.waits pl ++ k.rootW.filter (fun w => decide (w.packet.plane = pl) && (decide (w.packet.type ≠ 0xB) || (wormOf s w.packet).isSome))).any
    (fun w => decide (w.port = port))

/-- A packet for a root: served by its record, or waiting at the head of its siding until one is taken (R193, R201). -/
def atRoot (s : State) (t : Nat) (port : Dir) (p : Packet) : State :=
  match rootOf s t p with
  | none => updColl (park s p) t (fun k => { k with rootW := k.rootW ++ [⟨port, p, s.now⟩] })
  | some r => useRoot (absorb s p) t r p

/-- Packets that waited for a record are served in order. -/
def serveRootW (s : State) (t : Nat) : State :=
  let ws := (tileOf s t).coll.rootW
  forEach ws (updColl s t (fun k => { k with rootW := [] })) (fun s w =>
    match rootOf s t w.packet with
    | none => updColl s t (fun k => { k with rootW := k.rootW ++ [w] })
    | some r => useRoot (dropCopy s w.packet) t r w.packet)

/-- An NCOLL takes a root record (R193, R201): a broadcast's grant bitmap is cleared, and a broadcast without targets is admitted. -/
def takeRoot (s : State) (t : Nat) (o : NiOp) (tag : BitVec 16) : State :=
  let c := o.desc
  let ms := members s c.group
  let r : RootRec := ⟨Fin.ofNat 8 (partNum s t), c.collId, c.root, o, tag,
    if c.reduce then ms.length else (bcTargets s c).length, s.now, false, [], []⟩
  let s1 := updColl s t (fun k => { k with roots := k.roots ++ [r] })
  let s2 := if c.reduce then s1 else niWrite s1 t c.gmap (List.replicate ((ms.length + 63) / 64 * 8) 0)
  let s3 := if !c.reduce && decide (r.awaited = 0) then admitRoot s2 t r else s2
  serveRootW s3 t

/-- A root's NCOLL: one on a standing record that is admitted sends at once (R194); otherwise it takes one of 8 records, after those that wait, or
waits for one (Table 7.5). -/
def startRoot (s : State) (t : Nat) (o : NiOp) (tag : BitVec 16) : State :=
  let c := o.desc
  let k := (tileOf s t).coll
  if !c.reduce && c.standing && k.roots.any (fun r => sameColl (partNum s t) c.collId c.root r.part r.collId r.root && r.admitted) then
    let f := bcSource s t o
    if f.2 then
      (match startedOf f.1 t tag with
       | some x => failStarted f.1 t x 0
       | none => f.1)
    else roleDone (multicast f.1 t o tag) t tag
  else if k.roots.length < 8 ∧ k.rootQ.isEmpty then takeRoot s t o tag
  else updColl s t (fun k => { k with rootQ := k.rootQ ++ [tag] })

/-- ROOT_RECORD_GRANT: the NCOLL that has waited longest takes a free root record (R201). -/
def grantRoot (s : State) (t : Nat) : State :=
  let k := (tileOf s t).coll
  match k.rootQ with
  | [] => s
  | tag :: rest =>
    if k.roots.length < 8 then
      let s1 := updColl s t (fun k => { k with rootQ := rest })
      match startedOf s1 t tag with
      | some o => takeRoot s1 t o.op tag
      | none => s1
    else s

/-! ### Reduce-to-one: the member (R196) -/

/-- The packets of one segment: RD_OPEN and its RD_DATA, at most 2 KiB of input each. -/
def segPackets (s : State) (t : Nat) (c : CollDesc) (tag : BitVec 16) (data : List Byte) (k : Nat) : List Packet :=
  let widen := if c.rtype = 1 then 2 else 1
  let base := k * c.segBytes
  let len := min c.segBytes (c.accLen - base)
  collPacket s t c tag 8 (c.root + base) none k (collXdata c.collId 0 c.rtype false 0) []
    :: (pieces (len / widen)).map (fun q =>
      collPacket s t c tag 9 (c.root + base + widen * q.1) none k (collXdata c.collId 1 c.rtype false (widen * q.1 / 64))
        ((data.drop (base / widen + q.1)).take q.2))

/-- A member's role in a reduce: its segments are offered to the network in order; the NCOLL completes when their last flit has been injected
(R196). -/
def startMember (s : State) (t : Nat) (o : NiOp) (tag : BitVec 16) : State :=
  let c := o.desc
  let r := tileRead s t o.who .scr c.loc c.len
  if r.2.2 then
    (match startedOf r.1 t tag with
     | some x => failStarted r.1 t x 0
     | none => r.1)
  else
    roleDone (tileSendAll r.1 t ((List.range (ceilDiv c.accLen c.segBytes)).flatMap (segPackets r.1 t c tag r.2.1))) t tag

/-! ### The start of a collective -/

/-- Whether a tile is a member. -/
def isMember (s : State) (t : Nat) (c : CollDesc) : Bool := (members s c.group).contains t

/-- Start a collective: each role of the tile begins (R192, R193, R196, R201). -/
def startColl (s : State) (t : Nat) (o : NiOp) : State :=
  let c := o.desc
  let g := niTag (openColl s t o) t
  let root := c.rootIs t
  let send := if c.reduce then isMember s t c else isMember s t c && !root
  let st : NiStarted := ⟨o, g.2, [], none, [], s.now, b2n root + b2n send⟩
  let s1 := updTile g.1 t (fun x => { x with q := { x.q with started := x.q.started ++ [st] } })
  let s2 := if root then startRoot s1 t o g.2 else s1
  if send then (if c.reduce then startMember s2 t o g.2 else startTarget s2 t o g.2) else s2

/-! ### Arrivals -/

/-- MCAST_WAIT_EXPIRY (R193, R194): a broadcast whose wait has passed since its record was taken is split and admitted. -/
def splitRoot (s : State) (t : Nat) (coll : Nat) : State :=
  match (tileOf s t).coll.roots.find? (fun r => decide (r.collId = coll) && !r.admitted && !r.op.desc.reduce) with
  | none => s
  | some r =>
    admitRoot (addFld (waitUntil s (r.taken + fld s (tileReg t 0x1200) 15 0 * 100)) (tileReg t 0x1220) 31 0 1) t r

/-- Whether a partition's collectives are being discarded: a step abort that is not yet quiet (R296 4). -/
def collDead (s : State) (p : Packet) : Bool := (partOf s p.part.toNat).aborting

/-- RD_OPEN at a router (R198, R201). One behind a packet that waits on its port waits too, and a free slot goes first to those that wait. -/
def openAt (s : State) (t : Nat) (port : Dir) (p : Packet) : State :=
  if collDead s p then absorb s p
  else if earlyAt s t p || portHeld s t p.plane port then stay s p
  else if p.dstDie.toNat < 40 ∧ packetDst p = t then atRoot s t port p
  else if combines s p t then
    (if (slotOf s t p).isSome then absorb s p
     else match (if ((tileOf s t).coll.waits p.plane).isEmpty then freeSlot s t p.plane else none) with
      | some i => takeSlot s t p i
      | none => updColl (park s p) t (fun k => k.setWaits p.plane (k.waits p.plane ++ [⟨port, p, s.now⟩])))
  else stay s p

/-- Whether RD_DATA goes into a slot: its segment holds one, and its first unit has not been forwarded from it (R198, R199). -/
def intoSlot (s : State) (t : Nat) (p : Packet) : Option (Nat × PrSlot) :=
  match slotOf s t p with
  | some k => if k.2.sent.contains (pUnit p) then none else some k
  | none => none

/-! ### Meanings -/

/-- RD_OPEN (R198). -/
def execRdOpen (t : TileId) (inPort : Dir) (p : Packet) (s : State) : Host.Outcome State Fault Refusal :=
  .next (recause (openAt s t inPort p) t)

/-- RD_OPEN_SLOT_GRANT (R198). -/
def execRdOpenSlotGrant (t : TileId) (plane : Plane) (s : State) : Host.Outcome State Fault Refusal := .next (grantSlot s t plane)

/-- PR_WAIT_EXPIRY (R198). -/
def execPrWaitExpiry (t : TileId) (plane : Plane) (s : State) : Host.Outcome State Fault Refusal := .next (passWaiters s t plane)

/-- PR_IDLE_FLUSH (R199). -/
def execPrIdleFlush (t : TileId) (plane : Plane) (slot : Fin 4) (s : State) : Host.Outcome State Fault Refusal :=
  .next (flushSlot s t plane slot.val)

/-- ROOT_RECORD_GRANT (R201). -/
def execRootRecordGrant (t : TileId) (s : State) : Host.Outcome State Fault Refusal := .next (recause (grantRoot s t) t)

/-- BC_GRANT (R193): a grant or a request to send again reaches the root tile. -/
def execBcGrant (p : Packet) (s : State) : Host.Outcome State Fault Refusal :=
  .next (
    let t := packetDst p
    let port := ((portAt s t p).bind (fun i => allDirs[i]?)).getD .local
    meet s p ((portAt s t p).isSome && portHeld s t p.plane port) (fun s =>
      if collDead s p || decide (40 ≤ p.dstDie.toNat ∨ 144 ≤ p.dstTile.toNat) then absorb s p
      else recause (atRoot s t port p) t))

/-- MCAST_WAIT_EXPIRY (R194). -/
def execMcastWaitExpiry (t : TileId) (collId : BitVec 12) (s : State) : Host.Outcome State Fault Refusal :=
  .next (recause (splitRoot s t collId.toNat) t)

/-- BC_DATA (R193): broadcast data lands at a target. A copy that this tile is not the target of is on its way. -/
def execBcData (t : TileId) (p : Packet) (s : State) : Host.Outcome State Fault Refusal :=
  .next (if packetDst p = t.val ∧ p.dstDie.toNat < 40 then
      let q := mixed s p
      arrive s p (fun s => if collDead s p then s else recause (landData (if q = p then s else { s with fresh := s.fresh + 1 }) t q) t)
    else stay s p)

/-- LANDING_RECORD_GRANT (R192). -/
def execLandingRecordGrant (t : TileId) (plane : Plane) (s : State) : Host.Outcome State Fault Refusal :=
  .next (recause (grantLanding s t plane) t)

end Sys2Proof.Machine
end

