-- ==== Sys2Proof/Machine/Aborts.lean ====
section
/-!
DEFINITION. The step abort (R149, R296) and the states of a partition.

What the spec leaves open here: log entries 18, 35, 36 and 37.
-/

namespace Sys2Proof.Machine

/-! ### Partition state (Table 9.12) -/

/-- PARTp_STATE.STATE. -/
def partState (s : State) (p : Nat) : Nat := fld s (partReg p 0x10) 2 0


/-- Whether a partition exists. -/
def partExists (s : State) (p : Nat) : Bool := decide (fld s (partReg p 0) 0 0 = 1)

/-- The partitions that exist. -/
def allParts (s : State) : List Nat := (List.range 8).filter (partExists s)

/-- The compute dies of a partition. -/
def diesOfPart (s : State) (p : Nat) : List Nat := (List.range 40).filter (partHolds s p)

/-- Set PARTp_STATE.STATE; the 10 ms of C2 entry count from the change to IDLE or EMPTY (Table 11.6). -/
def setPartState (s : State) (p v : Nat) : State :=
  forEach (diesOfPart s p) (setFld s (partReg p 0x10) 2 0 v) (fun s d => setDie s d { dieOf s d with idleAt := s.now })

/-- The good tiles of a die, by global ID. -/
def tilesOfDie (s : State) (d : Nat) : List Nat := (goodTiles s d).map (fun i => d * 144 + i)

/-- The good tiles of a partition. -/
def tilesOfPart (s : State) (p : Nat) : List Nat := (diesOfPart s p).flatMap (tilesOfDie s)

/-- Complete a command unless a port reset has discarded it (R233). -/
def finish (s : State) (c : Option HostCmd) (status detail result : Nat) : State :=
  match c with
  | some c => complete s c status detail result
  | none => s

/-- The INVOKE whose completion is still to be written. -/
def Partition.invoker (x : Partition) : Option HostCmd := if x.quiet then none else x.invoke

/-- A command ends with a failure status. Table 9.7 gives RESULT on success only: here it is a free value. -/
def failCmd (s : State) (c : HostCmd) (status detail : Nat) : State :=
  let f := takeFree s
  complete f.1 c status detail f.2.toNat

/-- The same for a command that may have been discarded. -/
def failIf (s : State) (c : Option HostCmd) (status detail : Nat) : State :=
  match c with
  | some c => failCmd s c status detail
  | none => s

/-! ### One tile (R149, R296) -/

/-- A context that can run becomes FAULTED with STEP_ABORT at the instruction it would have issued; the others keep their record. -/
def abortCtx (y : Ctx) : Ctx :=
  if y.st.live then { y with st := .faulted, fcode := 0x1D, wait := none } else y

/-- A started descriptor sends no further row and counts nothing; one that has not started goes. -/
def abortDesc (d : ShDesc) : Option ShDesc :=
  if d.started then
    some { d with row := shRows d.issue, byte := 0, merged := false, buf := [], issue := { d.issue with w3 := putBits d.issue.w3 54 54 0 } }
  else none

/-- The queues after an abort: what has not started is discarded, the shunter queues stand halted, started transfers run to their responses
and open collectives end. -/
def abortQueues (q : Queues) : Queues :=
  { q with
    te := []
    ve := []
    sh := []
    shq := spMap (fun _ ds => let l := ds.filterMap abortDesc; if l.isEmpty then none else some l) q.shq
    halted := 0xFFFF
    merge := []
    ni := []
    fire := []
    started := q.started.filter (fun o => decide (o.op.kind ≠ .coll)) }

/-- A tile with its step aborted. -/
def abortedTile (x : Tile) : Tile :=
  { x with
    ctx := x.ctx.map (fun k => (k.1, abortCtx k.2))
    core := none
    q := abortQueues x.q
    coll := { x.coll with rootQ := [] }
    running := false
    tokReq := none }

/-- The step abort on one tile: what has passed is charged, every entry is disarmed. -/
def abortTile (s : State) (t : Nat) : State :=
  let s1 := updTile (endTokWait (charge s t) t) t abortedTile
  forEach (armedEntries s1 t) s1 (fun s e => setArmed s t e false)

/-- The collective records of one tile without those of a partition (R296 2 to 4). -/
def dropColl (p : Nat) (k : Coll) : Coll :=
  let l (m : List Landing) : List Landing := m.filter (fun x => decide (x.part.val ≠ p))
  let w (m : List Waiter) : List Waiter := m.filter (fun x => decide (x.packet.part.toNat ≠ p))
  let sl (m : Sparse PrSlot) : Sparse PrSlot := m.filter (fun x => decide (x.2.part.val ≠ p))
  { landUp := l k.landUp, landDn := l k.landDn, lwaitUp := l k.lwaitUp, lwaitDn := l k.lwaitDn
    roots := k.roots.filter (fun r => decide (r.part.val ≠ p)), rootQ := k.rootQ
    slotsUp := sl k.slotsUp, slotsDn := sl k.slotsDn, waitUp := w k.waitUp, waitDn := w k.waitDn, rootW := w k.rootW }

/-- Every reducer, root and outlet drops a partition's collectives, and the network its COLL packets (R296). -/
def dropColls (s : State) (p : Nat) : State :=
  let s1 := forEach (s.tiles.map (fun k => k.1)) s (fun s t => updColl s t (dropColl p))
  let s2 := forEach (List.range 8) s1 (fun s n => updStation s n (fun x => { x with
    outlets := x.outlets.filter (fun o => decide (o.part.val ≠ p))
    outletW := x.outletW.filter (fun w => decide (w.packet.part.toNat ≠ p)) }))
  updM (dropPackets s2 (fun k => decide (k.ch = 2 ∧ k.part.toNat = p))) (fun m => { m with
    colls := m.colls.filter (fun k => decide (k.part.val ≠ p)) })

/-! ### The partition -/

/-- Whether an epoch of the partition stands between its COMMIT and its apply time (R300). -/
def commitPending (s : State) (p : Nat) : Bool :=
  s.m.epochs.any (fun e => decide (e.part.val = p ∧ e.kind.toNat % 256 < 6) && e.apply.isSome)

/-- The epochs that a step abort ends before their COMMIT: all of the partition but a lagged GATE_OPEN, which concerns earlier steps. -/
def abortEpochs (s : State) (p : Nat) : State :=
  updM s (fun m => { m with epochs := m.epochs.filter (fun e =>
    !(decide (e.part.val = p ∧ e.kind.toNat % 256 < 6 ∧ e.kind.toNat % 256 ≠ 3))) })

/-- Abort the running step of a partition (R149, R296): its tiles end their work, and the hosts are told. Between a COMMIT and its T the signal
box waits for T (R300). -/
def abortStep (s : State) (p : Nat) : State :=
  if (partOf s p).invoke.isSome ∧ (partOf s p).aborting = false then
    (if commitPending s p then updPart s p (fun x => { x with abortAsked := true })
     else
       let s1 := dropColls (forEach (tilesOfPart s p) (abortEpochs s p) abortTile) p
       let s2 := updPart s1 p (fun x => { x with aborting := true, abortAt := s.now, abortAsked := false, decided := none })
       partEvent s2 p 0x01 (partOf s p).step)
  else s

/-- After an epoch has applied: an abort that waited for it follows (R300). -/
def askedAbort (s : State) (p : Nat) : State := if (partOf s p).abortAsked then abortStep s p else s

/-- Whether a tile holds a started operation (RED_OR bit 1, R296). -/
def tileBusy (x : Tile) : Bool :=
  !(x.q.started.isEmpty) || !(x.q.teExec.isEmpty)
    || x.q.shq.any (fun k => k.2.any (fun d => !(d.await.isEmpty) || !(d.retry.isEmpty)))

/-- Whether some unit holds a flit, packet or started operation of the partition (R296). -/
def partBusy (s : State) (p : Nat) : Bool :=
  s.m.net.any (fun k => decide (k.part.toNat = p))
    || (tilesOfPart s p).any (fun t => tileBusy (tileOf s t) || !((tileOf s t).heldOut.isEmpty))
    || (List.range 8).any (fun n => (stationOf s n).hold.any (fun h => decide (h.1.val = p))
        || (stationOf s n).reads.any (fun r => decide (r.2.part.toNat = p)))

/-- The abort is quiet: INVOKE completes STEP_ABORTED, each ABORT SUCCESS, and the partition is IDLE unless the abort stopped it otherwise. Its
locks are open again, since no END epoch follows. -/
def finishAbort (s : State) (p : Nat) : State :=
  let x := partOf s p
  let s1 := forEach (tilesOfPart s p) s (fun s t => updTile s t (fun y => { y with q := { y.q with shq := [] } }))
  let s2 := updPart s1 p (fun y => { y with aborting := false, invoke := none, abortCmds := [], locked := false })
  let s3 := if partState s2 p = 4 then setPartState s2 p 3 else s2
  let s4 := failIf s3 x.invoker 0x11 0
  forEach x.abortCmds s4 (fun s c => complete s c 0 0 0)

/-- STEP_ABORT (R149). -/
def execStepAbort (part : PartId) (s : State) : Host.Outcome State Fault Refusal := .next (abortStep s part.val)

end Sys2Proof.Machine
end

