-- ==== Sys2Proof/Machine/Banks.lean ====
section
/-!
DEFINITION. The scratchpad banks: one cycle of a bank's arbiter and the scrubber (R49 to R54).

What the spec leaves open here: log entries 19, 22, 33 and 93.
-/

namespace Sys2Proof.Machine

/-- A requester's number, which is also its place in the tie order (R49, Table 2.7). -/
def whoNum : Requester → Nat
  | .te => 0
  | .ve => 1
  | .core => 2
  | .shunter => 3
  | .ni => 4
  | .scrubber => 5

/-- Whether one waiting request goes before another: the longer wait, then the tie order (R49). The scrubber goes last. -/
def goesFirst (a b : Nat × BankReq) : Bool :=
  if b.2.who = .scrubber then true
  else if a.2.who = .scrubber then false
  else decide (b.1 < a.1) || (decide (a.1 = b.1) && decide (whoNum a.2.who ≤ whoNum b.2.who))

/-- The waiting request that goes first. -/
def oldest : List (Nat × BankReq) → Option (Nat × BankReq)
  | [] => none
  | r :: rs => match oldest rs with
    | none => some r
    | some q => if goesFirst r q then some r else some q

/-- A BANK_CONFLICT event (R52): `a` has the bank and `b` enters the conflict queue. -/
def bankConflict (s : State) (t bank : Nat) (a b : BankReq) : State :=
  let k := tileReg t 0x50
  let s1 := tileEvent (addFld s (tileReg t 0x48) 31 0 1) t 2
  if fld s1 k 63 63 = 0 then
    wr (noteEvent s1 k (2 ^ 63)) k (BitVec.ofNat 64 (bank + b.offset.toNat * 2 ^ 5 + whoNum a.who * 2 ^ 28 + whoNum b.who * 2 ^ 31 + b.ctx.val * 2 ^ 34 + 2 ^ 63))
  else s1

/-- STRICT-mode accesses that find the bank taken enter its conflict queue, which holds four (R50, R51). One that finds it full is not taken:
its issuer stalls until an entry frees. Answers the queue and those that stall. -/
def enterConflicts (s : State) (t bank : Nat) (by_ : BankReq) : List BankReq → List BankReq → State × List BankReq × List BankReq
  | q, [] => (s, q, [])
  | q, r :: rs =>
    if q.length < 4 then enterConflicts (bankConflict s t bank by_ r) t bank by_ (q ++ [r]) rs
    else (s, q, r :: rs)

/-- One more CCLK of waiting. -/
def aged (rs : List (Nat × BankReq)) : List (Nat × BankReq) := rs.map (fun r => (r.1 + 1, r.2))

/-- A bank after a CCLK in which a request had it: those that wait have aged, and a narrow write has it for the next CCLK too (R53). -/
def putBank (s : State) (t bank : Nat) (w : List (Nat × BankReq)) (c stalled : List BankReq) (second : Option BankReq) : State :=
  updTile s t (fun x => { x with
    banks := spSet x.banks ⟨[], []⟩ bank ⟨aged w, c⟩
    holds := spSet x.holds ⟨[], none⟩ bank ⟨stalled, second⟩ })

/-- The request that keeps a bank for a second CCLK. -/
def secondOf (g : BankReq) : Option BankReq := if g.narrow then some g else none

/-- One CCLK of a bank's arbiter with the requests that reach it (R49 to R51): the second CCLK of a narrow write first (R53); then a request
that has waited 16 CCLK; then a STRICT-mode access, the stalled ones before the new; then the conflict queue; then the oldest waiting request,
the scrubber only where it is alone. -/
def bankCycle (s : State) (t bank : Nat) (reqs : List BankReq) : State :=
  let b := (tileOf s t).arb bank
  let h := (tileOf s t).hold bank
  let strict := h.stalled ++ reqs.filter (fun r => r.strict)
  let waiting := b.waiting ++ (reqs.filter (fun r => !r.strict)).map (fun r => (0, r))
  let taken (g : BankReq) (w : List (Nat × BankReq)) (others : List BankReq) (second : Option BankReq) : State :=
    let c := enterConflicts s t bank g b.conflict others
    putBank c.1 t bank w c.2.1 c.2.2 second
  match h.second, oldest (waiting.filter overdue), strict with
  | some g, _, _ => taken g waiting strict none
  | none, some w, _ => taken w.2 (waiting.erase w) strict (secondOf w.2)
  | none, none, g :: rest => taken g waiting rest (secondOf g)
  | none, none, [] => match b.conflict with
    | g :: cs => putBank s t bank waiting cs [] (secondOf g)
    | [] => match oldest waiting with
      | some w => putBank s t bank (waiting.erase w) [] [] (secondOf w.2)
      | none => putBank s t bank [] [] [] none

/-- Rows of a scratchpad bank (R46). -/
def bankRows : Nat := 3072

/-- The scrubber reads and corrects a row of one bank: each of the row's words is checked under R53. A bank whose row it corrects it has for
the CCLK of the write back too. -/
def scrubBank (s : State) (t row b : Nat) : State :=
  let s1 := forEach (List.range 8) s (fun s w =>
    let place := row * 2048 + b * 64 + 8 * w
    (eccCheck s t none .scr (scrPlace (modeAt s t none place) place) 8).1)
  if s1.ecc = s.ecc then s1 else updTile s1 t (fun x => { x with scrubEnd := s.vco + cclk s t, scrubBanks := b :: x.scrubBanks })

/-- The scrubber reads and corrects a row of the banks that no write takes (R54). -/
def scrubRow (s : State) (t row : Nat) (busy : List Nat) : State :=
  if s.ecc = [] then s
  else forEach ((List.range 32).filter (fun b => !(busy.contains b))) (updTile s t (fun x => { x with scrubBanks := [] }))
    (fun s b => scrubBank s t row b)

/-- One turn of the scrubber; INTERVAL 0 stops it. After the last row a pass is complete. -/
def scrub (s : State) (t : Nat) (busy : List Nat) : State :=
  let k := tileReg t 0x60
  if fld s k 15 0 = 0 then s
  else
    let row := (tileOf s t).scrubRow
    let s1 := updTile (scrubRow s t row busy) t (fun x => { x with scrubRow := (row + 1) % bankRows })
    if row + 1 = bankRows then addFld s1 k 47 16 1 else s1

/-- SCRATCHPAD_BANK_GRANT (R49 to R52). -/
def execScratchpadBankGrant (t : TileId) (bank : Fin 32) (reqs : List BankReq) (s : State) : Host.Outcome State Fault Refusal :=
  .next (recause (bankCycle s t bank reqs) t)

/-- SCRUB_TICK (R54). -/
def execScrubTick (t : TileId) (busy : List (Fin 32)) (s : State) : Host.Outcome State Fault Refusal :=
  .next (scrub s t (busy.map (fun b => b.val)))

end Sys2Proof.Machine
end

