-- ==== Sys2Proof/Machine/Network.lean ====
section
/-!
DEFINITION. The network instructions (R143, R144, R184, R190, Tables 5.8 and 5.9), the start and completion of network operations (R181,
R186, R187).

What the spec leaves open here: log entries 6, 26 and 95.
-/

namespace Sys2Proof.Machine

/-! ### Issue -/

/-- The must-be-zero fields of NSEND, NPUT and NGET, and a PLANE that is not reserved (Table 5.9). -/
def netOk (w : IWord) : Bool := Form.n.ok w && decide (w.extBits 31 16 = 0 ∧ w.plane ≠ 3)

/-- A network operation of an instruction. -/
def instrOp (i : Issuer) (w : IWord) (k : NiKind) (dga : Word) (loc len : Nat) (value : Word) : NiOp where
  origin := .instr i
  kind := k
  dga := dga
  loc := loc
  len := len
  value := value
  lc := w.lc
  lcEn := w.lcEn
  rc := w.rc
  rcEn := w.rcEn
  plane := w.plane
  c0 := 0
  c1 := 0
  c2 := 0
  c3 := 0

/-- The length a DGA check covers: that of the transfer, 1 byte where the length itself is out of range. -/
def dgaSpan (len : Nat) : Nat := if len = 0 ∨ maxLen < len then 1 else len

/-- Enter the NI issue queue (R127). -/
def enterNi (s : State) (t : Nat) (i : Issuer) (o : NiOp) : State :=
  enqueue s t i .ni (tileOf s t).q.ni.length (fun q => { q with ni := q.ni ++ [o] })

/-- NSEND: 8 bytes to a remote DGA (R143). -/
def nsendOp (t : TileId) (w : IWord) (s : State) : State :=
  issue s t (netOk w) [w.a, w.b] (fun i s =>
    let c := issuerCtx s t i
    let a := xGet c w.a
    if dgaFault s t a 8 w.rcEn then issueFault s t i 0x18
    else if a.toNat % 8 ≠ 0 then issueFault s t i 0x11
    else enterNi s t i (instrOp i w .send a 0 8 (xGet c w.b)))

/-- NPUT and NGET: a range between the scratchpad and a remote DGA (R143). -/
def transferOp (t : TileId) (w : IWord) (k : NiKind) (s : State) : State :=
  issue s t (netOk w) [w.a, w.b, w.c] (fun i s =>
    let c := issuerCtx s t i
    let a := xGet c w.a
    let loc := (xGet c w.b).toNat
    let n := (xGet c w.c).toNat
    if dgaFault s t a (dgaSpan n) w.rcEn then issueFault s t i 0x18
    else if lenFault loc n then issueFault s t i 0x19
    else if k = .get ∧ keepBlocks s t loc n = true then issueFault s t i 0x05
    else enterNi s t i (instrOp i w k a loc n 0))

/-- NTRIG: EXT[0] = 0 arms an entry that passes its checks, and it is tested at once; EXT[0] = 1 disarms it (R184, R185). It completes at issue,
for which the NI issue queue must have room. -/
def ntrigOp (t : TileId) (w : IWord) (s : State) : State :=
  issue s t (Form.n.ok w && decide (w.extBits 31 1 = 0)) [w.a] (fun i s =>
    let e := (xGet (issuerCtx s t i) w.a).toNat
    if 255 < e then issueFault s t i 0x1A
    else if w.extBits 0 0 = 0 ∧ armOk s t e = false then issueFault s t i 0x1A
    else if 16 ≤ (tileOf s t).q.ni.length then setCause s t { headCause s t .ni with full := some .ni }
    else
      let s1 := retire s t i (i.index + 1) id
      if w.extBits 0 0 = 0 then settle (setArmed s1 t e true) t else disarm s1 t e)

/-- NCOLL: the descriptor is read at issue and checked (R188, R190). -/
def ncollOp (t : TileId) (w : IWord) (s : State) : State :=
  issue s t (Form.n.ok w && decide (w.extBits 31 7 = 0)) [w.a] (fun i s =>
    let off := (xGet (issuerCtx s t i) w.a).toNat
    if off % 64 ≠ 0 ∨ 0x600000 < off + 64 then issueFault s t i 0x19
    else
      let r := tileRead s t (some i.ctx) .scr off 64
      let wd (k : Nat) : Word := BitVec.ofNat 64 (leNat ((r.2.1.drop (8 * k)).take 8))
      let c := collDesc (wd 0) (wd 1) (wd 2) (wd 3)
      if r.2.2 then issueFault r.1 t i 0x04
      else if collDgaBad r.1 t c then issueFault r.1 t i 0x18
      else if collLenBad r.1 t c then issueFault r.1 t i 0x19
      else enterNi r.1 t i { instrOp i w .coll (BitVec.ofNat 64 c.root) c.loc c.len 0 with
        plane := 0, c0 := wd 0, c1 := wd 1, c2 := wd 2, c3 := wd 3 })

/-! ### Start (R186) -/

/-- Begin an operation; a PUT reads its bytes under its context's mode (log 95), and a word that cannot be read fails it (R53). A LOCAL_INC has completed at its firing. -/
def beginOp (s : State) (t : Nat) (o : NiOp) : State :=
  match o.kind with
  | .localInc => s
  | .coll => startColl s t o
  | .put =>
    let r := tileRead s t o.who .scr o.loc o.len
    if r.2.2 then failNiOp r.1 t o 0 else sendOp r.1 t o r.2.1
  | .send | .get | .cntInc => sendOp s t o []

/-- What a fired operation fails with at its start (R187): 0 for an address or collective that no longer passes, ACCESS for a KEEP range. -/
def firedBad (s : State) (t : Nat) (o : NiOp) : Option Nat :=
  match o.kind with
  | .localInc => none
  | .coll => if collDgaBad s t o.desc || collLenBad s t o.desc then some 0 else none
  | _ =>
    if dgaFault s t o.dga (dgaSpan o.len) o.rcEn then some 0
    else if o.kind = .get ∧ keepBlocks s t o.loc o.len = true then some 3
    else none

/-- Start the head of the issue queue. -/
def startIssued (s : State) (t : Nat) (o : NiOp) : State :=
  beginOp (updTile s t (fun x => { x with q := { x.q with ni := x.q.ni.drop 1, niFire := true } })) t o

/-- Start the head of the fire queue; an entry that waited for room may fire then (R185). -/
def startFired (s : State) (t : Nat) (o : NiOp) : State :=
  let s1 := updTile s t (fun x => { x with q := { x.q with fire := x.q.fire.drop 1, niFire := false } })
  let s2 := match firedBad s1 t o, o.entry? with
    | some why, some e => failTriggered (if why = 3 then tileEvent s1 t 0x20 else s1) t e why
    | _, _ => beginOp s1 t o
  settle s2 t

/-- NI_OPERATION_START: with fewer than 16 started, the head of the issue queue or of the fire queue starts, in turn where both are ready
(R186). -/
def niStart (t : TileId) (s : State) : State :=
  let q := (tileOf s t).q
  if !(scopeOpen s t) || decide (16 ≤ q.started.length) then s
  else
    let s' := match q.ni.head?.filter (fun o => !(landFull s t o)), q.fire.head?.filter (fun o => !(landFull s t o)) with
      | none, none => s
      | some a, none => startIssued s t a
      | none, some b => startFired s t b
      | some a, some b => if q.niFire then startFired s t b else startIssued s t a
    recause s' t

/-- A broadcast root that completes releases its record, unless it stands (R194). -/
def freeRoot (s : State) (t : Nat) (o : NiStarted) : State :=
  if o.op.kind = .coll ∧ o.op.desc.standing = false then dropRoot s t o.tag else s

/-- NI_OPERATION_COMPLETE: an operation with every packet injected and answered and every role over completes and increments its LC (R181). -/
def niComplete (t : TileId) (tag : BitVec 16) (s : State) : State :=
  match startedOf s t tag with
  | none => s
  | some o =>
    if o.await.isEmpty && o.retry.isEmpty && o.held.isNone && decide (o.roles = 0) && (toInject s t tag).isEmpty && !(heldBack s t tag) then
      recause (incLc (freeRoot (dropStarted (if o.op.kind = .coll then mixAll s t else s) t tag) t o) t o.op) t
    else s

/-! ### Meanings -/

/-- NSEND (R143). -/
def execNsend (t : TileId) (w : IWord) (s : State) : Host.Outcome State Fault Refusal := .next (nsendOp t w s)

/-- NPUT (R143). -/
def execNput (t : TileId) (w : IWord) (s : State) : Host.Outcome State Fault Refusal := .next (transferOp t w .put s)

/-- NGET (R143). -/
def execNget (t : TileId) (w : IWord) (s : State) : Host.Outcome State Fault Refusal := .next (transferOp t w .get s)

/-- NTRIG (R184). -/
def execNtrig (t : TileId) (w : IWord) (s : State) : Host.Outcome State Fault Refusal := .next (ntrigOp t w s)

/-- NCOLL (R190). -/
def execNcoll (t : TileId) (w : IWord) (s : State) : Host.Outcome State Fault Refusal := .next (ncollOp t w s)

/-- NI_OPERATION_START (R186). -/
def execNiOperationStart (t : TileId) (s : State) : Host.Outcome State Fault Refusal := .next (niStart t s)

/-- NI_OPERATION_COMPLETE (R181). -/
def execNiOperationComplete (t : TileId) (tag : BitVec 16) (s : State) : Host.Outcome State Fault Refusal :=
  .next (niComplete t tag s)

end Sys2Proof.Machine
end

