-- ==== Sys2Proof/Machine/Packets.lean ====
section
/-!
DEFINITION. Packets at their destination: writes, reads and counter increments at a tile, a die block or a station's registers, and the
answers at their source (R57, R143, R153, R167, R181, R215, R236, R343).

What the spec leaves open here: log entries 18, 21, 23 and 24.
-/

namespace Sys2Proof.Machine

/-! ### Answers -/

/-- ACK a packet. -/
def ackPacket (s : State) (p : Packet) : State := respond s p (response p 3 0 [])

/-- NAK a packet with a reason of Table 6.3. -/
def nakPacket (s : State) (p : Packet) (why : Nat) : State := respond s p (response p 4 why [])

/-- Answer a read. -/
def readAnswer (s : State) (p : Packet) (data : List Byte) : State := respond s p (response p 2 0 data)

/-- The bytes a READ_REQ asks for: XDATA [11:0] (Table 6.1). -/
def readLen (p : Packet) : Nat := p.xdata.toNat % 2 ^ 12

/-- Whether a READ_REQ's length is one that Table 6.1 gives. -/
def readLenOk (p : Packet) : Bool := decide (1 ≤ readLen p ∧ readLen p ≤ 2048 ∧ p.xdata.toNat / 2 ^ 12 = 0)

/-- The counter increment a packet asks for (R153, R179). -/
def countRc (s : State) (p : Packet) : State := if p.rcEn then cntInc s (packetDst p) p.rcnt.toNat 1 else s

/-! ### A tile as the target -/

/-- The offset a packet addresses in its tile. -/
def pOff (p : Packet) : Nat := p.addr.toNat % 2 ^ 23

/-- Whether a WRITE or READ_REQ for a tile waits: the TE holds an accumulator bank that it meets (R61). -/
def bankHeld (s : State) (p : Packet) : Bool :=
  let t := packetDst p
  let n := if p.type = 0 then p.data.length else readLen p
  decide (p.dstDie.toNat < 40 ∧ p.dstTile.toNat < 144 ∧ regionOf (pOff p) n = some .acc) && accHeldIn s t (pOff p) n
    && (if p.type = 0 then !p.poison && !(keepBlocks s t (pOff p) n) else decide (p.type = 1) && readLenOk p)

/-- A WRITE at a tile (R45, R57, R343). Its bytes land and its counter moves, and it is answered. -/
def writeAtTile (s : State) (p : Packet) : State :=
  let t := packetDst p
  let off := pOff p
  let n := p.data.length
  if p.poison then nakPacket s p (poisonWhy p)
  else match regionOf off n with
    | none => nakPacket s p 3
    | some .reg =>
      if wholeWords off n then ackPacket (countRc (writeRegs s false (tileAddr t off) (leWords (n / 8) p.data)) p) p
      else nakPacket s p 3
    | some .ist =>
      if (istoreCtxs off n).all (istoreOpen s t) then ackPacket (countRc (tileWrite s t none .ist off p.data) p) p
      else nakPacket (tileEvent s t 0x40) p 3
    | some r =>
      if keepBlocks s t off n then nakPacket (tileEvent s t 0x20) p 3
      else ackPacket (countRc (tileWrite s t none r off p.data) p) p

/-- A READ_REQ at a tile. A read with an uncorrectable word is answered POISON (R53). -/
def readAtTile (s : State) (p : Packet) : State :=
  let t := packetDst p
  let off := pOff p
  let n := readLen p
  if !(readLenOk p) then nakPacket s p 4
  else match regionOf off n with
    | none => nakPacket s p 3
    | some .reg =>
      if wholeWords off n then
        let r := readRegs s (tileAddr t off) (n / 8)
        readAnswer (countRc r.1 p) p r.2
      else nakPacket s p 3
    | some r =>
      let x := tileRead s t none r off n
      if x.2.2 then nakPacket x.1 p 2 else readAnswer (countRc x.1 p) p x.2.1

/-- A CNT_INC at a tile (R153). -/
def incAtTile (s : State) (p : Packet) : State :=
  if (regionOf (pOff p) 1).isSome then ackPacket (countRc s p) p else nakPacket s p 3

/-! ### Register blocks (R236, R343) -/

/-- The register block offset that a packet addresses, where its range is mapped in whole words. -/
def blockKey (p : Packet) (n : Nat) : Option Nat :=
  let a := p.addr.toNat
  if p.dstDie.toNat < 40 then
    (let off := a % 2 ^ 23
     if dieBlockMapped off n && decide (off % 8 = 0) then some (dieBlockAddr p.dstDie.toNat off) else none)
  else
    (let off := a % 2 ^ 31
     if stationRegMapped off n && decide (off % 8 = 0) then some (stationAddr (p.dstDie.toNat - 40) off) else none)

/-- A packet at a die block or a station's registers: whole aligned words, no counter (R343). -/
def atBlock (s : State) (p : Packet) : State :=
  match p.type.toNat with
  | 0 =>
    (match blockKey p p.data.length with
     | some k =>
       if p.poison then nakPacket s p (poisonWhy p)
       else if wholeWords (p.addr.toNat % 8) p.data.length then
         ackPacket (writeRegs s false k (leWords (p.data.length / 8) p.data)) p
       else nakPacket s p 3
     | none => nakPacket s p 3)
  | 1 =>
    if !(readLenOk p) then nakPacket s p 4
    else (match blockKey p (readLen p) with
     | some k =>
       if wholeWords (p.addr.toNat % 8) (readLen p) then
         let r := readRegs s k (readLen p / 8)
         readAnswer r.1 p r.2
       else nakPacket s p 3
     | none => nakPacket s p 3)
  | 5 =>
    (match blockKey p 8 with
     | some _ => ackPacket s p
     | none => nakPacket s p 3)
  | _ => s

/-! ### Who serves a packet -/

/-- Whether a packet is for a tile. -/
def forTile (p : Packet) : Bool := decide (p.dstDie.toNat < 40 ∧ p.dstTile.toNat < 144)

/-- Whether a packet is for a die block or a station die's control unit. -/
def forBlock (p : Packet) : Bool :=
  decide ((p.dstDie.toNat < 40 ∧ p.dstTile.toNat = 255) ∨ (40 ≤ p.dstDie.toNat ∧ p.dstTile.toNat = 0))

/-- A request reaches its target: a tile, or registers; an outlet takes only collective packets and an unassigned unit nothing. The Peat and
the host ports have rows of their own (PEAT_READ_REQ, PEAT_WRITE, HOST_MEMORY_READ, HOST_MEMORY_WRITE), which such a packet waits for. -/
def serveRequest (s : State) (p : Packet) (tile : State → Packet → State) : State :=
  if 40 ≤ p.dstDie.toNat ∧ (p.dstTile.toNat = 2 ∨ p.dstTile.toNat = 3) ∧ (p.type.toNat = 0 ∨ p.type.toNat = 1) then stay s p
  else arriveWhen s p (bankHeld s p) (fun s =>
    if forTile p then recause (tile s p) (packetDst p)
    else if forBlock p then atBlock s p
    else nakPacket s p 3)

/-- Whether a packet is a read of the cluster registers of a cluster in C2 or C3, which the die's health block answers whatever its path (R72). -/
def asleepRead (s : State) (p : Packet) : Bool :=
  forTile p && !(dieClosed s p.dstDie.toNat) && decide (2 ≤ clusterState s p.dstDie.toNat (clusterOf p.dstTile.toNat))
    && readLenOk p && decide (0x7F8000 ≤ pOff p ∧ pOff p + readLen p ≤ 0x7F8100) && wholeWords (pOff p) (readLen p)

/-- The health block's answer. -/
def answerAsleep (s : State) (p : Packet) : State :=
  let r := readRegs (absorb s p) (tileAddr (packetDst p) (pOff p)) (readLen p / 8)
  readAnswer r.1 p r.2

/-- A packet of another type is another row's; one of a reserved type, or on a channel its type may not use, is any row's. -/
def ofType (n : Nat) (s : State) (p : Packet) (act : State) : State := if channelOk p && decide (p.type.toNat ≠ n) then stay s p else act

/-! ### Meanings -/

/-- WRITE (R153). -/
def execWrite (p : Packet) (s : State) : Host.Outcome State Fault Refusal := .next (ofType 0 s p (serveRequest s p writeAtTile))

/-- READ_REQ (R153). -/
def execReadReq (p : Packet) (s : State) : Host.Outcome State Fault Refusal := 
  .next (ofType 1 s p (if asleepRead s p then answerAsleep s p else serveRequest s p readAtTile))

/-- CNT_INC (R153). -/
def execCntInc (p : Packet) (s : State) : Host.Outcome State Fault Refusal := .next (ofType 5 s p (serveRequest s p incAtTile))

/-- READ_RESP (R143). -/
def execReadResp (p : Packet) (s : State) : Host.Outcome State Fault Refusal :=
  .next (ofType 2 s p (arriveWhen s p (respHeld s p) (fun s => toSource s p niReadResp shReadResp)))

/-- ACK (R181). -/
def execAck (p : Packet) (s : State) : Host.Outcome State Fault Refusal := 
  .next (ofType 3 s p (arrive s p (fun s => toSource s p niAck shAck)))

/-- NAK (R167, R187, R215). -/
def execNak (p : Packet) (s : State) : Host.Outcome State Fault Refusal := 
  .next (ofType 4 s p (arrive s p (fun s => toSource s p niNak shNak)))

/-- READ_REQ_RESEND (R215). -/
def execReadReqResend (t : TileId) (tag : BitVec 16) (s : State) : Host.Outcome State Fault Refusal :=
  .next (if isShTag tag then shResend s t tag else niResend s t tag)

/-- DIE_BLOCK_ACCESS (R343). -/
def execDieBlockAccess (p : Packet) (s : State) : Host.Outcome State Fault Refusal :=
  .next (if forBlock p then arrive s p (fun s => atBlock s p) else stay s p)

end Sys2Proof.Machine
end

