-- ==== Sys2Proof/Machine/Peat.lean ====
section
/-!
DEFINITION. The flash tier of a station die: extents and their versions, allocation and wear, the depot cache (R205 to R215).

The host's and the update engine's bytes lie in `flash` by physical address; a byte that nothing has written reads 0 (log 5), or as a free
value in an extent whose content the model does not know.

What the spec leaves open here: log entries 5, 16, 31, 32, 88, 90 and 111.
-/

namespace Sys2Proof.Machine

/-! ### Addresses (Table 8.3) -/

/-- Data bytes of a physical extent (Table 8.1). -/
def extBytes : Nat := 3840 * 16384

/-- Namespace of a Peat logical DGA. -/
def peatNs (a : Nat) : Nat := a / 2 ^ 48 % 16
/-- Extent index of a Peat logical DGA. -/
def peatExt (a : Nat) : Nat := a / 2 ^ 29 % 2 ^ 19
/-- Station die of a Peat logical DGA. -/
def peatStn (a : Nat) : Nat := a / 2 ^ 26 % 8
/-- Offset of a Peat logical DGA in its extent window. -/
def peatOff (a : Nat) : Nat := a % 2 ^ 26

/-! ### Extents (R210) -/

/-- The namespace of a number. -/
def nsOf (s : State) (k : Nat) : Option Namespace := s.m.nss.find? (fun n => decide (n.nsid.toNat = k))

/-- The map entry of a logical extent; an extent that nothing has mapped is of class D and holds nothing. -/
def entryOf (s : State) (n k e : Nat) : ExtEntry :=
  ((stationOf s n).map.find? (fun x => decide (x.nsid.toNat = k ∧ x.ext.toNat = e))).getD ⟨BitVec.ofNat 4 k, BitVec.ofNat 19 e, .d, []⟩

/-- Order of map entries. -/
def entryLe (a b : ExtEntry) : Bool := decide (a.nsid.toNat * 2 ^ 19 + a.ext.toNat ≤ b.nsid.toNat * 2 ^ 19 + b.ext.toNat)

/-- Insert an entry in ascending order. -/
def insertEntry (e : ExtEntry) : List ExtEntry → List ExtEntry
  | [] => [e]
  | x :: xs => if entryLe e x then e :: x :: xs else x :: insertEntry e xs

/-- Replace a map entry. -/
def setEntry (s : State) (n : Nat) (e : ExtEntry) : State :=
  updStation s n (fun x => { x with map := insertEntry e (x.map.filter (fun y => !(decide (y.nsid = e.nsid ∧ y.ext = e.ext)))) })

/-- Physical extents that a logical extent of a class holds under lag L (Table 8.4). -/
def classHolds (lag : Nat) : ExtClass → Nat
  | .d => 1
  | .w => lag + 2
  | .s => 1
  | .r => 2
  | .g => lag + 1
  | .k => 2

/-- The lag of a partition on a station die. -/
def lagOf (s : State) (n p : Nat) : Nat := fld s (psbPart n p 0) 3 0

/-- The physical extents of a station die that count against a partition's quota (R210): one for each extent of its namespaces, and more for
those whose class holds more; an S extent in rotation while it is rewritten holds one more. -/
def quotaUsed (s : State) (n p : Nat) : Nat :=
  let mine := s.m.nss.filter (fun x => decide (x.part.val = p))
  let base := mine.foldl (fun a x => a + x.extents) 0
  let more := ((stationOf s n).map.filter (fun e => mine.any (fun x => decide (x.nsid = e.nsid)))).foldl
    (fun a e => a + ((if e.cls = .s then max 1 e.versions.length else classHolds (lagOf s n p) e.cls) - 1)) 0
  base + more

/-- The physical extents in use on a station die. -/
def physUsed (x : Station) : List Nat := x.map.flatMap (fun e => e.versions.map (fun v => v.phys))

/-- A channel whose 16 NAND dies have all failed (R208). -/
def channelDead (x : Station) (c : Fin 16) : Bool := (List.finRange 16).all (fun w => x.nandFail.contains (c, w))

/-- The free physical extent with the lowest erase count (R211), on NAND dies that work: the first that was never erased, else the least
erased. While a channel has failed, rows are written with 15 pages, so its dies shut no extent out (R208). -/
def freeExtent (x : Station) : Option Nat :=
  let busy := physUsed x ++ x.retired
  let touched := busy ++ x.erased.map (fun p => p.1)
  let sound (k : Nat) : Bool := x.nandFail.all (fun f => decide (f.2.val ≠ k / 12288) || channelDead x f.1) && decide (k < physLimit)
  match (List.range 16).findSome? (fun w =>
      if sound (12288 * w) then
        ((List.range (touched.length + 1)).find? (fun i => decide (i < 12288) && sound (12288 * w + i) && !(touched.contains (12288 * w + i)))).map
          (fun i => 12288 * w + i)
      else none) with
  | some k => some k
  | none => ((x.erased.filter (fun p => !(busy.contains p.1) && sound p.1)).foldl
      (fun (b : Option (Nat × Nat)) p => match b with
        | none => some p
        | some q => if p.2 < q.2 then some p else some q) none).map (fun p => p.1)

/-- What a byte of flash reads as that is not listed. -/
def flashDefault (x : Station) (a : Nat) : Byte :=
  match x.loose.find? (fun p => decide (p.1 = a / extBytes)) with
  | some p => Config.undefByte p.2 (a % extBytes)
  | none => 0

/-- The cells of a physical extent. -/
def physCells (x : Station) (k : Nat) : List Host.Cell :=
  x.flash.filter (fun c => decide (k * extBytes ≤ c.1 ∧ c.1 < (k + 1) * extBytes))

/-- Erase a physical extent (R211, R214): its cells, depot lines and lost pages are gone and its erase count grows. -/
def eraseExtent (s : State) (n k : Nat) : State :=
  updStation s n (fun x => { x with
    flash := x.flash.filter (fun c => !(decide (k * extBytes ≤ c.1 ∧ c.1 < (k + 1) * extBytes)))
    loose := spDel x.loose k
    erased := spSet x.erased 0 k (spGet x.erased 0 k + 1)
    lines := x.lines.filter (fun l => decide (l.phys ≠ k))
    folded := x.folded.filter (fun p => !(decide (k * 2 ^ 21 ≤ p.1 ∧ p.1 < (k + 1) * 2 ^ 21)))
    lost := x.lost.filter (fun l => decide (l.1 ≠ k))
    wbuf := x.wbuf.filter (fun b => decide (b.phys ≠ k)) })

/-- Copy the cells of one physical extent to another. -/
def copyExtent (s : State) (n src dst : Nat) : State :=
  updStation s n (fun x => { x with
    loose := match x.loose.find? (fun p => decide (p.1 = src)) with
      | some p => spPut x.loose dst p.2
      | none => x.loose
    flash := (physCells x src).foldl (fun m c => spPut m (c.1 - src * extBytes + dst * extBytes) c.2) x.flash })

/-! ### Wear (R212) -/

/-- 9 EB. -/
def ratedWear : Nat := 9000000000000000000

/-- Bytes programmed on the module. -/
def moduleWear (s : State) : Nat := ((List.range 8).map (fun n => (rd s (psbReg n 8)).toNat)).foldl (fun a b => a + b) 0

/-- An event of the Peat to a partition's ports. The spec numbers no Peat report, so the detail is a free value. -/
def peatEvent (s : State) (p : Nat) : State :=
  let f := takeFree s
  partEvent f.1 p 0x08 (f.2.toNat % 2 ^ 32)

/-- Count bytes programmed, and raise the wear event and alarm at 80% and 100% of the module's rated total. -/
def countWear (s : State) (n bytes : Nat) : State :=
  let old := moduleWear s * 100 / ratedWear
  let s1 := addFld s (psbReg n 8) 63 0 bytes
  let pct := moduleWear s1 * 100 / ratedWear
  let s2 := forEach (List.range 8) s1 (fun s k => setFld s (psbReg k 0x38) 7 0 (min 255 pct))
  if (old < 80 ∧ 80 ≤ pct) ∨ (old < 100 ∧ 100 ≤ pct) then
    alarm (forEach ((List.range 8).filter (fun p => decide (fld s2 (partReg p 0) 0 0 = 1))) s2 peatEvent) 0x11 none (min 255 pct)
  else s2

/-- Bytes of a page. -/
def pageBytes : Nat := 16384

/-- Pages in the write buffer (R213): 32 MiB. -/
def bufLimit : Nat := 2048

/-- A page of the write buffer is programmed (R212). -/
def programPage (s : State) (n : Nat) (b : BufPage) : State :=
  countWear (updStation s n (fun x => { x with wbuf := x.wbuf.erase b })) n pageBytes

/-- A write buffer over its size programs its oldest pages. -/
def trimBuffer (s : State) (n : Nat) : State :=
  forEach ((stationOf s n).wbuf.take ((stationOf s n).wbuf.length - bufLimit)) s (fun s b => programPage s n b)

/-- The write buffer programs all that it holds. -/
def drainBuffer (s : State) (n : Nat) : State := forEach (stationOf s n).wbuf s (fun s b => programPage s n b)

/-- The pages of a physical extent that hold content, with their rows' parity pages. -/
def pagesHeld (x : Station) (k : Nat) : Nat :=
  let pages := if x.loose.any (fun p => decide (p.1 = k)) then List.range 3840
    else ((physCells x k).map (fun c => c.1 % extBytes / 16384)).eraseDups
  pages.length + ((pages.map (fun g => g / 15)).eraseDups).length

/-! ### Reading and writing extents -/

/-- Bytes of a physical extent; one that does not exist holds zeros. -/
def physBytes (x : Station) (k : Option Nat) (off : Nat) : Nat → List Byte
  | 0 => []
  | n + 1 => (match k with
    | some k => spGet x.flash (flashDefault x (k * extBytes + off)) (k * extBytes + off)
    | none => 0) :: physBytes x k (off + 1) n

/-- The pages that `n` bytes at an offset touch. -/
def pagesOf (off n : Nat) : List Nat := (List.range ((off + n - 1) / 16384 - off / 16384 + 1)).map (fun i => off / 16384 + i)

/-- Store bytes of a partition in a physical extent: they are durable in the write buffer (R219, R223), and read from there. -/
def physWrite (s : State) (n p : Nat) (kind : WriteKind) (k off : Nat) (bs : List Byte) : State :=
  let x := stationOf s n
  let cells := (List.zip (List.range bs.length) bs).foldl
    (fun m p => spSet m (flashDefault x (k * extBytes + off + p.1)) (k * extBytes + off + p.1) p.2) x.flash
  let s1 := updStation s n (fun x => { x with
    flash := cells
    lost := x.lost.filter (fun l => !(decide (l.1 = k ∧ off / 16384 ≤ l.2 ∧ l.2 ≤ (off + bs.length - 1) / 16384))) })
  trimBuffer (bufPages s1 n (some (Fin.ofNat 8 p)) kind k (pagesOf off bs.length)) n

/-- The newest version not newer than a step. -/
def versionUpTo (e : ExtEntry) (step : Nat) : Option ExtVersion := e.versions.find? (fun v => decide (v.step ≤ step))

/-- The version a read of a partition resolves to (R31, R215, R226): for class W the one that includes the committed steps up to the visible
one, for R and K the committed one, for G and the others the newest. Where none is that old, the oldest. -/
def resolve (s : State) (n p : Nat) (e : ExtEntry) : Option Nat :=
  let x := partOf s p
  let v := match e.cls with
    | .w => versionUpTo e (x.committed - lagOf s n p)
    | .r => versionUpTo e x.committed
    | .k => versionUpTo e (if x.resSaved then x.committed else x.committed - 1)
    | _ => e.versions.head?
  (v.orElse (fun _ => e.versions.getLast?)).map (fun v => v.phys)

/-- Give a logical extent a new version for a step, newest first, in a free extent. -/
def addVersion (s : State) (n : Nat) (e : ExtEntry) (step : Nat) : State × Option Nat :=
  match freeExtent (stationOf s n) with
  | none => (s, none)
  | some k => (setEntry s n { e with versions := ⟨step, k⟩ :: e.versions }, some k)

/-- Free the versions of an extent that do not satisfy a condition: they are erased. -/
def keepVersions (s : State) (n : Nat) (e : ExtEntry) (keep : ExtVersion → Bool) : State :=
  let gone := e.versions.filter (fun v => !(keep v))
  forEach gone (setEntry s n { e with versions := e.versions.filter keep }) (fun s v => eraseExtent s n v.phys)

/-- The entries of a class that belong to a partition, in ascending logical order. -/
def classEntries (s : State) (n p : Nat) (c : ExtClass) : List ExtEntry :=
  (stationOf s n).map.filter (fun e => decide (e.cls = c) && (match nsOf s e.nsid.toNat with
    | some x => decide (x.part.val = p)
    | none => false))

/-! ### The depot cache (R213, R214) -/

/-- The lines of the cache. -/
def depotLines : Nat := 28672

/-- A partition's minimum of lines (R214, R252): 0 where its guarantee is withdrawn. -/
def depotMin (s : State) (p : Nat) : Nat :=
  if (fld s (partReg p 0x10) 7 3).testBit 3 then 0 else fld s (partReg p 8) 15 8 * depotLines / 100

/-- Lines held by a partition. -/
def linesOf (x : Station) (p : PartId) : Nat := (x.lines.filter (fun l => decide (l.part = p))).length

/-- The line of some to evict for a fill (R214): the least recently used of a partition above its minimum of the whole cache, else of the
filling one. Lines stand most recently used first. -/
def victim (s : State) (x : Station) (ls : List DepotLine) (p : PartId) : Option DepotLine :=
  match ls.reverse.find? (fun l => decide (depotMin s l.part.val < linesOf x l.part)) with
  | some l => some l
  | none => ls.reverse.find? (fun l => decide (l.part = p))

/-- The ways of a set, and the sets (R213). -/
def depotWays : Nat := 16
/-- The sets of the cache. -/
def depotSets : Nat := depotLines / depotWays

/-- The lines of the set in which a page may lie. -/
def setLines (x : Station) (l : DepotLine) : List DepotLine :=
  x.lines.filter (fun m => decide (Config.depotSet m.phys m.page % depotSets = Config.depotSet l.phys l.page % depotSets))

/-- Fill a line: into a free way of its set, else in the place of the set's line that R214 evicts. -/
def fillLine (s : State) (n : Nat) (l : DepotLine) : State :=
  let x := stationOf s n
  if x.lines.any (fun m => decide (m.phys = l.phys ∧ m.page = l.page)) then s
  else if x.lines.length < depotWays ∨ (setLines x l).length < depotWays then updStation s n (fun x => { x with lines := l :: x.lines })
  else match victim s x (setLines x l) l.part with
    | some v => updStation s n (fun x => { x with lines := l :: x.lines.erase v })
    | none => s

/-- Whether all pages of a range are in the cache. -/
def cached (x : Station) (k : Nat) (pages : List Nat) : Bool :=
  pages.all (fun g => x.lines.any (fun l => decide (l.phys = k ∧ l.page = g)))

/-- Use lines: they become the most recently used. -/
def touchLines (s : State) (n k : Nat) (pages : List Nat) : State :=
  updStation s n (fun x =>
    let hit := x.lines.filter (fun l => decide (l.phys = k) && pages.contains l.page)
    { x with lines := hit ++ x.lines.filter (fun l => !(hit.contains l)) })

/-! ### Serving reads (R209, R215, R217) -/

/-- Whether a Peat address range lies inside an extent of a namespace that the partition owns. -/
def peatMapped (s : State) (p a n : Nat) : Bool :=
  (match nsOf s (peatNs a) with
   | some x => decide (x.part.val = p ∧ peatExt a < x.extents)
   | none => false) && decide (peatOff a + n ≤ extBytes)

/-- Whether the Peat gate of a partition is open on a station die. -/
def gateOpen (s : State) (n p : Nat) : Bool := bit (rd s (psbPart n p 0)) 6

/-- Answer a read from flash or cache, or let it wait for its pages (R213); a page that is lost is answered POISON at once (R217). -/
def peatServe (s : State) (n : Nat) (p : Packet) : State :=
  let a := p.addr.toNat
  let e := entryOf s n (peatNs a) (peatExt a)
  let x := stationOf s n
  match resolve s n p.part.toNat e with
  | none => readAnswer s p (physBytes x none (peatOff a) (readLen p))
  | some k =>
    let pages := pagesOf (peatOff a) (readLen p)
    if pages.any (fun g => x.lost.contains (k, g)) then nakPacket s p 2
    else if cached x k pages then
      readAnswer (addFld (touchLines s n k pages) (psbReg n 0x48) 63 0 1) p (physBytes x (some k) (peatOff a) (readLen p))
    else updStation (addFld s (psbReg n 0x50) 63 0 1) n (fun x => { x with reads := x.reads ++ [(k, p)] })

/-- A Peat READ_REQ at its station die (R209, R215). -/
def peatRead (s : State) (p : Packet) : State :=
  let n := p.dstDie.toNat - 40
  let a := p.addr.toNat
  let q := p.part.toNat
  if !(readLenOk p) then nakPacket s p 4
  else if !(peatMapped s q a (readLen p)) then nakPacket s p 3
  else if (entryOf s n (peatNs a) (peatExt a)).cls = .w ∧ gateOpen s n q = false then
    (if ((stationOf s n).hold.filter (fun h => decide (h.1.val = q))).length < 4096 then
      updStation s n (fun x => { x with hold := x.hold ++ [(Fin.ofNat 8 q, p)] })
     else nakPacket (addFld s (psbReg n 0x58) 47 16 1) p 7)
  else peatServe s n p

/-- Reads whose pages have all come are answered, in order. -/
def serveReads (s : State) (n : Nat) : State :=
  let rs := (stationOf s n).reads
  forEach rs (updStation s n (fun x => { x with reads := [] })) (fun s r =>
    let x := stationOf s n
    let pages := pagesOf (peatOff r.2.addr.toNat) (readLen r.2)
    if pages.any (fun g => x.lost.contains (r.1, g)) then nakPacket s r.2 2
    else if cached x r.1 pages then readAnswer s r.2 (physBytes x (some r.1) (peatOff r.2.addr.toNat) (readLen r.2))
    else updStation s n (fun x => { x with reads := x.reads ++ [r] }))

/-! ### Writing class D and K (R211, R212, R226) -/

/-- Spare extents free. -/
def spareFree (s : State) (n : Nat) : Nat := fld s (psbReg n 0x10) 31 0

/-- The journal's record of the switch of an extent from one physical extent to another (Table 8.8 EXT_DONE). -/
def switchRec (p step : Nat) (e : ExtEntry) (old new : Nat) : JournalRec :=
  journalRec 4 p step (e.ext.toNat + e.nsid.toNat * 2 ^ 19 + e.cls.code * 2 ^ 23) (old + new * 2 ^ 32)

/-- The content of one physical extent is programmed into another, its lost pages stay lost (R212, R217). -/
def relocate (s : State) (n src dst : Nat) : State :=
  let held := pagesHeld (stationOf s n) src
  updStation (countWear (copyExtent s n src dst) n (held * pageBytes)) n (fun x => { x with
    lost := x.lost ++ (x.lost.filter (fun l => decide (l.1 = src))).map (fun l => (dst, l.2)) })

/-- Rewrite part of one version of an extent: the new content goes into a free extent, the journal records the switch, the old extent is erased
(R211). `old` is the version's physical extent, none where nothing is mapped yet. -/
def rewrite (s : State) (n p : Nat) (kind : WriteKind) (e : ExtEntry) (step : Nat) (old : Option Nat) (off : Nat) (bs : List Byte) : Option State :=
  match freeExtent (stationOf s n) with
  | none => none
  | some k =>
    let s1 := match old with
      | some v => relocate s n v k
      | none => s
    let vs := match old with
      | some v => e.versions.map (fun x => if x.phys = v then { x with phys := k } else x)
      | none => ⟨step, k⟩ :: e.versions
    let s2 := physWrite (setEntry s1 n { e with versions := vs }) n p kind k off bs
    let s3 := journal s2 n (switchRec p (partOf s p).committed e (old.getD 0) k)
    some (match old with
      | some v => eraseExtent s3 n v
      | none => s3)

/-- Write into the in-progress K version, the one of the committed step (R226); the older versions but one are freed. Once RES_SAVED has made that
version the current one, a write goes into a free extent in its place (R211). -/
def writeK (s : State) (n p : Nat) (e : ExtEntry) (off : Nat) (bs : List Byte) : Option State :=
  let c := (partOf s p).committed
  match e.versions.find? (fun v => decide (v.step = c)) with
  | some v => if (partOf s p).resSaved then rewrite s n p .resident e c (some v.phys) off bs else some (physWrite s n p .resident v.phys off bs)
  | none =>
    let s1 := keepVersions s n e (fun v => decide (some v = e.versions.head?))
    let r := addVersion s1 n (entryOf s1 n e.nsid.toNat e.ext.toNat) c
    match r.2 with
    | some k => some (physWrite r.1 n p .resident k off bs)
    | none => none

/-- Store bytes of a partition in Peat logical space; `none` where the station die refuses (R209, R211, R212). -/
def peatStore (s : State) (p a : Nat) (bs : List Byte) : Option State :=
  let n := peatStn a
  let e := entryOf s n (peatNs a) (peatExt a)
  if peatMapped s p a bs.length then
    (match e.cls with
     | .d => if spareFree s n < 256 then none
       else rewrite s n p .update e 0 (e.versions.head?.map (fun v => v.phys)) (peatOff a) bs
     | .k => writeK s n p e (peatOff a) bs
     | _ => none)
  else none

/-- A write to Peat logical space (R211, R212, R217). A refusal for want of spare extents is reported to the owning host. -/
def peatWritePacket (s : State) (p : Packet) : State :=
  let a := p.addr.toNat
  if p.poison then nakPacket s p (poisonWhy p)
  else match peatStore s p.part.toNat a p.data with
    | some s1 => ackPacket s1 p
    | none =>
      let short := decide ((entryOf s (peatStn a) (peatNs a) (peatExt a)).cls = .d ∧ spareFree s (peatStn a) < 256)
      nakPacket (if short then peatEvent s p.part.toNat else s) p 3

/-! ### Meanings -/

/-- PEAT_READ_REQ (R215). A packet for another unit is on its way. -/
def execPeatReadReq (p : Packet) (s : State) : Host.Outcome State Fault Refusal :=
  .next (if 40 ≤ p.dstDie.toNat ∧ p.dstTile.toNat = 3 ∧ p.type.toNat = 1 then arrive s p (fun s => peatRead s p) else stay s p)

/-- PEAT_WRITE (R211). -/
def execPeatWrite (p : Packet) (s : State) : Host.Outcome State Fault Refusal :=
  .next (if 40 ≤ p.dstDie.toNat ∧ p.dstTile.toNat = 3 ∧ p.type.toNat = 0 then arrive s p (fun s => peatWritePacket s p) else stay s p)

end Sys2Proof.Machine
end

