-- ==== Sys2Proof/Machine/Flash.lean ====
section
/-!
DEFINITION. Flash reads, retired blocks, failed NAND dies and rebuilds (R205, R207, R208, R213, R217).

A physical extent's blocks lie at the same die position on each channel; the model takes extents 12,288k to 12,288k + 12,287 on chip enable k
(log 15).

What the spec leaves open here: log entries 8, 15, 31, 32, 88, 90 and 100.
-/

namespace Sys2Proof.Machine

/-- The NAND die position of a physical extent: 12,288 blocks a die (Table 8.1). -/
def nandOf (k : Nat) : Nat := k / 12288

/-- The channel of data page j of a row (R205). -/
def pageChannel (row j : Nat) : Nat := (row + 1 + j) % 16

/-- The channels whose NAND die at an extent's position has failed. -/
def deadChannels (x : Station) (k : Nat) : List Nat :=
  (x.nandFail.filter (fun f => decide (f.2.val = nandOf k))).map (fun f => f.1.val)

/-- Whether a page can be rebuilt from the other fifteen of its row: none of them is failed or lost. -/
def rebuildable (x : Station) (k row j : Nat) : Bool :=
  (deadChannels x k).all (fun c => decide (c = pageChannel row j))
    && x.lost.all (fun l => !(decide (l.1 = k ∧ l.2 / 15 = row ∧ l.2 ≠ row * 15 + j)))

/-- The logical address of a page of a physical extent, where an extent maps it. -/
def pageDga (x : Station) (n k page : Nat) : Option Nat :=
  (x.map.find? (fun e => e.versions.any (fun v => decide (v.phys = k)))).map (fun e =>
    2 * 2 ^ 52 + e.nsid.toNat * 2 ^ 48 + e.ext.toNat * 2 ^ 29 + n * 2 ^ 26 + page * 16384)

/-- A page is lost (R207, R217): counted, and the first one recorded; PEAT_STAT shows its namespace damaged while it is. -/
def losePage (s : State) (n k page : Nat) : State :=
  let x := stationOf s n
  let s1 := updStation (addFld s (psbReg n 0x18) 63 48 1) n (fun x => { x with lost := x.lost ++ [(k, page)] })
  match pageDga x n k page with
  | none => s1
  | some d =>
    let r := psbReg n 0x20
    if fld s1 r 63 63 = 0 then wr (noteEvent s1 r (2 ^ 63)) r (BitVec.ofNat 64 (d + 2 ^ 63)) else s1

/-- Fill the line of a page that was read, and those of the pages read ahead (R213). -/
def fillAfterMiss (s : State) (n k page : Nat) (p : PartId) : State :=
  let ra := fld s (psbReg n 0x40) 3 0
  let ahead := ((List.range ra).map (fun i => page + 1 + i)).filter (fun g => decide (g < 3840) && !((stationOf s n).lost.contains (k, g)))
  fillLine (forEach ahead.reverse s (fun s g => fillLine s n ⟨p, k, g⟩)) n ⟨p, k, page⟩

/-! ### The channels' arbitration (R229, R249) -/

/-- The channel of a page of an extent; the parity page of row r, numbered 3,840 + r, lies on channel r mod 16 (R205). -/
def channelOf (page : Nat) : Nat := if page < 3840 then pageChannel (page / 15) (page % 15) else (page - 3840) % 16

/-- The reads of a station die that wait for a page on a channel: not in the cache and not lost. -/
def readsAt (x : Station) (c : Nat) : List (Nat × Packet) :=
  x.reads.filter (fun r => (pagesOf (peatOff r.2.addr.toNat) (readLen r.2)).any (fun g =>
    decide (channelOf g = c) && !(cached x r.1 [g]) && !(x.lost.contains (r.1, g))))

/-- The writes of a partition that wait for a channel, oldest first. -/
def writesAt (x : Station) (p : Option PartId) (c : Nat) : List BufPage := x.wbuf.filter (fun b => decide (b.part = p ∧ channelOf b.page = c))

/-- The partitions with work on a channel. -/
def channelWork (x : Station) (c : Nat) : List PartId :=
  (readsAt x c).map (fun r => Fin.ofNat 8 r.2.part.toNat) ++ x.wbuf.filterMap (fun b => if channelOf b.page = c then b.part else none)

/-- How long a write waits behind reads. -/
def writePatience : Nat := 2000000

/-- The ns in which a page crosses its channel (Table 8.6). -/
def pageNs : Nat := 4600

/-- The first of some writes in the order in which a channel serves its kinds. -/
def firstWrite (ws : List BufPage) : Option BufPage :=
  [WriteKind.journal, .update, .resident].findSome? (fun w => ws.find? (fun b => decide (b.kind = w)))

/-- The write that a channel serves next in a partition's turn; `none` where reads come first. -/
def nextWrite (s : State) (n : Nat) (p : PartId) (c : Nat) : Option BufPage :=
  let x := stationOf s n
  let ws := writesAt x (some p) c
  (firstWrite (ws.filter (fun b => decide (b.since + writePatience ≤ s.now)))).or
    (if (readsAt x c).any (fun r => decide (Fin.ofNat 8 r.2.part.toNat = p)) then none else firstWrite ws)

/-- A channel programs the buffered pages that come before any read, the engine's own first (R229). -/
def serveWrites (n c : Nat) : Nat → State → State
  | 0, s => s
  | fuel + 1, s =>
    match firstWrite (writesAt (stationOf s n) none c) with
    | some b => serveWrites n c fuel (programPage s n b)
    | none =>
      let d := (drrOf s n c).now s (peatLeast s) (channelWork (stationOf s n) c)
      match d.turn.bind (fun p => nextWrite s n p c) with
      | some b => serveWrites n c fuel (setDrr (programPage s n b) n c (d.spend pageNs))
      | none => s

/-- Every channel of the station dies programs what its arbiter lets it. -/
def serveBuffers (s : State) : State :=
  forEach (List.range 8) s (fun s n =>
    if (stationOf s n).wbuf.isEmpty then s
    else forEach (List.range 16) s (fun s c => serveWrites n c (stationOf s n).wbuf.length s))

/-- A channel's turn for a read of a page (R229, R249): the state with the channel's time counted, or `none` while the read waits. A page that no
read awaits is read ahead, when nothing else waits for its channel. -/
def readTurn (s0 : State) (n k page retries : Nat) : Option State :=
  let c := channelOf page
  let s := serveWrites n c (stationOf s0 n).wbuf.length s0
  let x := stationOf s n
  match (readsAt x c).find? (fun r => decide (r.1 = k) && (pagesOf (peatOff r.2.addr.toNat) (readLen r.2)).contains page) with
  | some r =>
    let d := (drrOf s n c).now s (peatLeast s) (channelWork x c)
    if d.turn = some (Fin.ofNat 8 r.2.part.toNat) then some (setDrr s n c (d.spend ((retries + 1) * pageNs))) else none
  | none => if (channelWork x c).isEmpty then some s else none

/-- A page read ends (R207, R208): the retries are counted; a page that does not decode, or that lies on a failed NAND die, is reconstructed, or is
lost. -/
def pageRead (s : State) (n : Nat) (pg : PhysPage) (retries : Nat) (decoded : Bool) : State :=
  let k := pg.extent
  let page := pg.row * 15 + pg.page.val
  let x := stationOf s n
  let who : PartId := match x.reads.find? (fun r => decide (r.1 = k)) with
    | some r => Fin.ofNat 8 r.2.part.toNat
    | none => 0
  let dead := (deadChannels x k).contains (pageChannel pg.row pg.page.val)
  let s1 := if dead then s else addFld s (psbReg n 0x18) 23 0 retries
  let s2 :=
    if decoded && !dead then fillAfterMiss s1 n k page who
    else if rebuildable x k pg.row pg.page.val then fillAfterMiss (addFld s1 (psbReg n 0x18) 47 24 1) n k page who
    else losePage s1 n k page
  serveReads s2 n

/-- A page read in its partition's turn at the channel; one that waits has no effect until it is presented again. -/
def flashReadDone (s : State) (n : Nat) (pg : PhysPage) (retries : Nat) (decoded : Bool) : State :=
  match readTurn s n pg.extent (pg.row * 15 + pg.page.val) retries with
  | some s1 => pageRead s1 n pg retries decoded
  | none => s

/-- The map entry and the partition of a physical extent. -/
def ownerOf (s : State) (n k : Nat) : Option (ExtEntry × Nat) :=
  ((stationOf s n).map.find? (fun e => e.versions.any (fun v => decide (v.phys = k)))).map (fun e =>
    (e, match nsOf s e.nsid.toNat with
      | some x => x.part.val
      | none => 0))

/-- Move an extent's content to a spare one (R207, R208): the journal records the switch, and the map names the new extent (R211). -/
def moveExtent (s : State) (n k : Nat) : State :=
  let x := stationOf s n
  match freeExtent x with
  | none => s
  | some j =>
    let s0 := match ownerOf s n k with
      | some o => journal s n (switchRec o.2 (partOf s o.2).committed o.1 k j)
      | none => s
    let s1 := copyExtent s0 n k j
    let s2 := updStation s1 n (fun x => { x with
      map := x.map.map (fun e => { e with versions := e.versions.map (fun v => if v.phys = k then { v with phys := j } else v) })
      lost := x.lost.map (fun l => if l.1 = k then (j, l.2) else l)
      folded := x.folded.foldl (fun m p => if p.1 / 2 ^ 21 = k then spPut m (j * 2 ^ 21 + p.1 % 2 ^ 21) p.2 else m)
        (x.folded.filter (fun p => !(decide (p.1 / 2 ^ 21 = k))))
      reads := x.reads.map (fun r => if r.1 = k then (j, r.2) else r)
      wbuf := x.wbuf.filter (fun b => decide (b.phys ≠ k))
      lines := x.lines.filter (fun l => decide (l.phys ≠ k)) })
    countWear s2 n (pagesHeld (stationOf s n) k * pageBytes)

/-- A block is retired (R207): its whole extent moves to a spare one, and the spare extents are one fewer. -/
def retireBlock (s : State) (n k : Nat) : State :=
  let s1 := updStation s n (fun x => { x with retired := if x.retired.contains k then x.retired else x.retired ++ [k] })
  let s2 := if (physUsed (stationOf s1 n)).contains k then moveExtent s1 n k else s1
  let r := psbReg n 0x10
  addFld (setFld s2 r 31 0 (fld s2 r 31 0 - 1)) r 63 32 1

/-- A NAND die fails (R208): its channel rebuilds, and every mapped extent at its position is to be rebuilt. The rows that an earlier failure at
the same position has not yet rebuilt lose their pages on both dies. -/
def failNand (s : State) (n : Nat) (c w : Fin 16) : State :=
  let x := stationOf s n
  if x.nandFail.contains (c, w) then s
  else
    let hit := (physUsed x).filter (fun k => decide (nandOf k = w.val))
    let before := x.nandFail.filter (fun f => decide (f.2 = w))
    let s1 := updStation s n (fun x => { x with nandFail := x.nandFail ++ [(c, w)] })
    let s2 := setBit s1 (psbReg n 0) (16 + c.val)
    let r := psbReg n 0x28
    let s3 := setFld s2 r 63 32 (if before.isEmpty then fld s2 r 63 32 + hit.length else fld s2 r 63 32)
    let s4 := if (List.finRange 16).all (fun v => (stationOf s3 n).nandFail.contains (c, v)) then setFld s3 (psbReg n 0) c.val c.val 0 else s3
    if before.isEmpty then s4
    else forEach hit s4 (fun s k => forEach (List.range 256) s (fun s row =>
      let lostHere := (List.range 15).filter (fun j => decide (pageChannel row j = c.val) || before.any (fun f => decide (pageChannel row j = f.1.val)))
      forEach lostHere s (fun s j => if (stationOf s n).lost.contains (k, row * 15 + j) then s else losePage s n k (row * 15 + j))))

/-- How many blocks of a NAND die were retired in the last hour. -/
def retireRate (s : State) (n : Nat) (c w : Fin 16) : Nat :=
  ((stationOf s n).retires.filter (fun r => decide (r.1 = c ∧ r.2.1 = w ∧ s.now < r.2.2 + 3600000000000))).length

/-- A program or erase of a block fails (R207, R208): it is retired, and a NAND die whose blocks retire faster than RETIRE_LIMIT has failed. -/
def programFail (s : State) (n k : Nat) (c : Fin 16) : State :=
  let w : Fin 16 := Fin.ofNat 16 (nandOf k)
  let s1 := updStation (retireBlock s n k) n (fun x => { x with retires := x.retires ++ [(c, w, s.now)] })
  if fld s1 (psbReg n 0x30) 15 0 < retireRate s1 n c w then failNand s1 n c w else s1

/-- The rebuild of one extent ends (R208): it lies in a spare extent on working dies, one fewer is free, and the count of those left falls; at 0 no channel
rebuilds. -/
def rebuilt (s : State) (n k : Nat) : State :=
  let r := psbReg n 0x28
  if fld s r 63 32 = 0 ∨ (physUsed (stationOf s n)).contains k = false ∨ (deadChannels (stationOf s n) k).isEmpty = true then s
  else
    let s1 := updStation s n (fun x => { x with retired := x.retired ++ [k] })
    let s2 := moveExtent s1 n k
    let sp := psbReg n 0x10
    let s3 := setFld (setFld s2 sp 31 0 (fld s2 sp 31 0 - 1)) r 63 32 (fld s2 r 63 32 - 1)
    if fld s3 r 63 32 = 0 then setFld s3 (psbReg n 0) 31 16 0 else s3

/-! ### Meanings -/

/-- FLASH_READ_COMPLETE (R207). -/
def execFlashReadComplete (stn : StationId) (page : PhysPage) (retries : Fin 8) (decoded : Bool) (s : State) :
    Host.Outcome State Fault Refusal :=
  .next (flashReadDone s stn.val page retries.val decoded)

/-- PROGRAM_FAIL (R207). -/
def execProgramFail (stn : StationId) (extent : Nat) (channel : Fin 16) (s : State) : Host.Outcome State Fault Refusal :=
  .next (programFail s stn.val extent channel)

/-- NAND_DIE_FAIL (R208). -/
def execNandDieFail (stn : StationId) (channel : Fin 16) (nand : Fin 16) (s : State) : Host.Outcome State Fault Refusal :=
  .next (failNand s stn.val channel nand)

/-- REBUILD_EXTENT (R208). -/
def execRebuildExtent (stn : StationId) (extent : Nat) (s : State) : Host.Outcome State Fault Refusal := .next (rebuilt s stn.val extent)

end Sys2Proof.Machine
end

