-- ==== Sys2Proof/Machine/Admission.lean ====
section
/-!
DEFINITION. The Mere's energy, flush energy and admission (R277 to R280).

Integer arithmetic: voltages in 0.1 V, capacitance in mF, charge in µC, times in ns; joules are rounded down.

What the spec leaves open here: log entries 47 and 56.
-/

namespace Sys2Proof.Machine

/-! ### Energy (R277, R278) -/

/-- 0.92 × ½ × c × (100² − 40²) J. -/
def usableJ (cmf : Nat) : Nat := cmf * 3864 / 1000

/-- E_V: 0.92 × ½ × c × (V² − 40²) J; 0 below V_MIN. -/
def energyV (cmf dv : Nat) : Nat := cmf * 46 * (dv * dv - 160000) / 10000000

/-- E_Q: 0.92 × ½ × Q × (2 × 40 + Q / c) J; 0 where no capacitance is measured or no charge is left. -/
def energyQ (cmf : Nat) (q : Int) : Nat :=
  let n := q.toNat
  if cmf = 0 then 0 else 46 * n * (80000 * cmf + n) / (100000000000 * cmf)

/-- Key of MERE_STAT. -/
def mereStat : Nat := s0Power 0x818
/-- Key of MERE_CAP. -/
def mereCap : Nat := s0Power 0x820

/-- The capacity for admission and for the timetable: the lesser of USABLE_J and AVAIL_J. -/
def mereCapacity (s : State) : Nat := min (fld s mereCap 31 0) (fld s mereStat 63 32)

/-! ### Flush energy and admission (R279, R280) -/

/-- A resident set: the bytes and the compute dies that hold them. -/
abbrev ResidentSet := Nat × List Nat

/-- Bytes of a set on station die Sn: its dies hold equal parts, split between north and south (R279). -/
def setOnStation (r : ResidentSet) (n : Nat) : Nat :=
  let k := (r.2.filter (fun d => decide (d % 8 / 2 = n % 4))).length
  if r.2.isEmpty then 0 else ceilDiv (r.1 * k) (2 * r.2.length)

/-- t_flush of resident sets in ns: 25 ms and the largest station die's bytes at 5 GB/s. -/
def flushNs (rs : List ResidentSet) : Nat :=
  25000000 + ((List.range 8).map (fun n => ceilDiv ((rs.map (fun r => setOnStation r n)).foldl (fun a b => a + b) 0) 5)).foldl max 0

/-- Whether E_flush = 3,500 W × t_flush is at most a fraction of an energy in J. -/
def flushFits (rs : List ResidentSet) (num den joules : Nat) : Bool := decide (3500 * flushNs rs * den ≤ num * joules * 1000000000)

/-- The compute dies of a partition that are not fenced. -/
def liveDies (s : State) (p : Nat) : List Nat := (diesOfPart s p).filter (fun d => !(s.m.fencedDies.contains d))

/-- The resident set of a partition's loaded consist. -/
def residentOf (s : State) (p : Nat) : ResidentSet :=
  match (partOf s p).consist with
  | some c => (c.resident.toNat, liveDies s p)
  | none => (0, [])

/-- The partitions whose resident set is admitted. -/
def admittedParts (s : State) : List Nat := (allParts s).filter (fun p => decide (fld s (partReg p 0x18) 63 32 ≠ 0))

/-- Whether a new resident set with its request is admitted beside the others (R280). -/
def mereAdmits (s : State) (p : Nat) (r : ResidentSet) (req : Nat) : Bool :=
  let others := ((admittedParts s).filter (fun q => decide (q ≠ p))).map (residentOf s)
  let all := others ++ [r]
  flushFits all 8 10 (mereCapacity s)
    && decide (flushNs all ≤ 400000000)
    && flushFits [r] 1 1 req
    && decide ((all.map (fun x => x.1)).foldl (fun a b => a + b) 0 ≤ fld s (s0Power 0x840) 15 0 * 2 ^ 20)

/-- MERE_BUDGET shows the admitted totals. -/
def setBudget (s : State) : State :=
  let rs := (admittedParts s).map (residentOf s)
  if rs.isEmpty then wr s (s0Power 0x830) 0
  else
    let t := flushNs rs
    wr s (s0Power 0x830) (BitVec.ofNat 64 (3500 * t / 1000000000 % 2 ^ 32 + t / 100000 % 2 ^ 16 * 2 ^ 32))

/-- The resident set of a withdrawn partition is no longer admitted. -/
def endAdmission (s : State) (p : Nat) : State := setBudget (setFld s (partReg p 0x18) 63 32 0)

end Sys2Proof.Machine
end

