-- ==== Sys2Proof/Machine/Update.lean ====
section
/-!
DEFINITION. Outlets, folding and the update engine (R90, R218 to R222).

What the spec leaves open here: log entries 12, 16, 34 and 115.
-/

namespace Sys2Proof.Machine

/-! ### FP32 operations of the kernels -/

/-- a / b in FP32, RNE. -/
def div32 (a b : Nat) : Nat :=
  match decodeFp fmt32 a, decodeFp fmt32 b with
  | .nan, _ => nan32
  | _, .nan => nan32
  | .inf _, .inf _ => nan32
  | .inf n, .fin k _ _ => fmt32.signBit (n != k) + fmt32.infBits
  | .fin n _ _, .inf k => fmt32.signBit (n != k)
  | .fin n m e, .fin k l g =>
    if l = 0 then (if m = 0 then nan32 else fmt32.signBit (n != k) + fmt32.infBits)
    else if m = 0 then fmt32.signBit (n != k)
    else
      let j := Nat.log2 l + 32
      (finish32 .rne (n != k) (m * 2 ^ j / l) (e - g - j) (decide (m * 2 ^ j % l ≠ 0))).1

/-- √a in FP32, RNE. -/
def sqrt32 (a : Nat) : Nat :=
  match decodeFp fmt32 a with
  | .nan => nan32
  | .inf n => if n then nan32 else fmt32.infBits
  | .fin n m e =>
    if m = 0 then fmt32.signBit n
    else if n then nan32
    else
      let m' := if e % 2 = 0 then m else 2 * m
      let e' := if e % 2 = 0 then e else e - 1
      let q := Nat.sqrt (m' * 2 ^ 64)
      (finish32 .rne false q (e' / 2 - 32) (decide (q * q ≠ m' * 2 ^ 64))).1

/-- a^t in FP32 with one rounding. -/
def pow32 (a t : Nat) : Nat :=
  match decodeFp fmt32 a with
  | .nan => nan32
  | .inf n => fmt32.signBit (n && decide (t % 2 = 1)) + fmt32.infBits
  | .fin n m e =>
    if t = 0 then one32
    else if m = 0 then fmt32.signBit (n && decide (t % 2 = 1))
    else (finish32 .rne (n && decide (t % 2 = 1)) (m ^ t) (e * t) false).1

/-- Sum, product and difference, RNE. -/
def fAdd (a b : Nat) : Nat := (add32 .rne a b).1
/-- Product. -/
def fMul (a b : Nat) : Nat := (mul32 .rne a b).1
/-- Difference. -/
def fSub (a b : Nat) : Nat := (sub32 .rne a b).1

/-- 2^10 and 2^-10 in FP32. -/
def two10 : Nat := 0x44800000
/-- 2^-10. -/
def twoM10 : Nat := 0x3A800000

/-- The E4M3 byte of an FP32 value, RNE with saturation. -/
def toE4 (a : Nat) : Nat := (convPlain .e4m3 .rne true 0 (decodeFp fmt32 a)).1
/-- The FP32 value of an E4M3 byte. -/
def ofE4 (b : Nat) : Nat := (to32 (decodeFp fmtE4 b)).1
/-- The BF16 element of an FP32 value, RNE. -/
def toBf (a : Nat) : Nat := (convPlain .bf16 .rne false 0 (decodeFp fmt32 a)).1
/-- The FP32 value of a BF16 element. -/
def ofBf (b : Nat) : Nat := b * 65536

/-! ### Blocks of G8 in an extent (R87, R219) -/

/-- Blocks of 33 bytes in an extent. -/
def g8PerExtent : Nat := extBytes / 33

/-- The FP32 values of a stored block. -/
def blockValues (bs : List Byte) : List Nat := (bs.take 32).map (fun b => (to32 (g8Decode ((bs.getD 32 0).toNat) b.toNat)).1)

/-- The 33 bytes of block `b` of an extent's version. -/
def blockBytes (s : State) (n : Nat) (k : Option Nat) (b : Nat) : List Byte := physBytes (stationOf s n) k (33 * b) 33

/-- Bytes of codes. -/
def toBytes (l : List Nat) : List Byte := l.map (BitVec.ofNat 8)

/-- The version of an extent for a step, allocated when there is none. -/
def stepVersion (s : State) (n : Nat) (e : ExtEntry) (step : Nat) : State × Option Nat :=
  match e.versions.find? (fun v => decide (v.step = step)) with
  | some v => (s, some v.phys)
  | none => addVersion s n e step

/-! ### Outlets (R218) -/

/-- The outlet table entry of an outlet DGA. -/
def outletEntry (a : Nat) : Nat := a / 2 ^ 24 % 64

/-- Accumulation offset of an outlet DGA. -/
def outletOff (a : Nat) : Nat := a % 2 ^ 24

/-- The blocks of 32 parameters, counted from the one that holds the record's first parameter, that hold a unit's 16 parameters, where the first is
number `first` (R218). -/
def unitBlocks (first u : Nat) : List Nat := [(first + 16 * u) / 32 - first / 32, (first + 16 * u + 15) / 32 - first / 32].eraseDups

/-- The first parameter of a record: p0 of its outlet entry, and a quarter of ROOT's accumulation offset (R218). -/
def firstParam (s : State) (o : OutletRec) : Nat :=
  (match (partOf s o.part.val).consist.bind (fun c => c.outlets[o.entry.val]?) with
    | some e => e.p0.toNat
    | none => 0) + o.base / 4

/-- Whether a unit of a record has been folded. -/
def unitFolded (s : State) (o : OutletRec) (u : Nat) : Bool := (unitBlocks (firstParam s o) u).all (fun b => o.blocks.contains b)

/-- Staging bytes of a record in use: a segment is freed once all of its units are folded (R218). -/
def stagingOf (s : State) (o : OutletRec) : Nat :=
  ((List.range (ceilDiv o.len o.seg)).map (fun k =>
    let lo := k * o.seg
    let n := min o.seg (o.len - lo)
    if (List.range (ceilDiv n 64)).all (fun i => unitFolded s o (lo / 64 + i)) then 0 else n)).foldl (fun a b => a + b) 0

/-- Staging bytes in use (R213, R218). -/
def stagingUsed (s : State) (x : Station) : Nat := x.outlets.foldl (fun a o => a + (if o.blocks.isEmpty then o.len else stagingOf s o)) 0

/-- A packet's collective at an outlet as its members presented it (log 12): the accumulation offset of ROOT, the accumulation length and the bytes
of a segment. Where it is not known, ROOT is the first byte of the packet's segment, the length the rest of the window and a segment
16 KiB. -/
def outletShape (s : State) (p : Packet) : Nat × Nat × Nat :=
  match s.m.colls.find? (fun x => decide (x.part.val = p.part.toNat ∧ x.collId = pColl p ∧ x.root / 2 ^ 24 = p.addr.toNat / 2 ^ 24)) with
  | some x => (outletOff x.root, (collDesc x.w0 0 0 0).accLen, (collDesc x.w0 0 0 0).segBytes)
  | none => (outletOff p.addr.toNat, 2 ^ 24 - outletOff p.addr.toNat, 16384)

/-- The outlet record of a packet. -/
def outletOf (s : State) (n : Nat) (p : Packet) : Option OutletRec :=
  (stationOf s n).outlets.find? (fun o =>
    decide (o.entry.val = outletEntry p.addr.toNat ∧ o.part.val = p.part.toNat ∧ o.collId.toNat = pColl p))

/-- Replace an outlet record; one with every unit folded is freed. -/
def putOutlet (s : State) (n : Nat) (o : OutletRec) : State :=
  let same (q : OutletRec) : Bool := decide (q.entry = o.entry ∧ q.part = o.part ∧ q.collId = o.collId)
  updStation s n (fun x => { x with
    outlets := if ceilDiv o.len 64 ≤ o.done then x.outlets.filter (fun q => !(same q)) else x.outlets.map (fun q => if same q then o else q) })

/-- A contribution enters an outlet record (R199, R200, R202): stored first, combined later. -/
def outletData (s : State) (n : Nat) (o : OutletRec) (p : Packet) : State :=
  let first := (outletOff (segBase p) - o.base) / 64
  let rt := if pRtype p = 1 then 0 else pRtype p
  let us := unitsOf p.data.length (pUnit p) (accLanes (pRtype p) p.data)
  let units := us.foldl (fun m u =>
    let g := first + u.1
    let v := if p.poison then nanUnit rt u.2.length else u.2
    match spGet (m.map (fun k => (k.1, some k.2))) none g with
    | none => spPut m g (pCount p, v)
    | some (c, old) => spPut m g (c + pCount p, (combine rt old v).1)) o.units
  putOutlet s n { o with units := units }

/-- A collective packet at an outlet: into its record, which the first RD_OPEN takes where a record and staging space are free; else it
waits at the head of its siding (R201, R218). -/
def atOutlet (s : State) (n : Nat) (p : Packet) : State :=
  match outletOf s n p with
  | some o => if p.type = 9 then outletData (absorb s p) n o p else absorb s p
  | none =>
    let x := stationOf s n
    let c := outletShape s p
    if p.type = 8 ∧ x.outlets.length < 64 ∧ stagingUsed s x + c.2.1 ≤ 32 * 2 ^ 20 then
      updStation (absorb s p) n (fun x => { x with outlets := x.outlets ++
        [⟨Fin.ofNat 64 (outletEntry p.addr.toNat), Fin.ofNat 8 p.part.toNat, BitVec.ofNat 12 (pColl p), (members s p.group).length, c.2.1, 0, [], c.1, c.2.2, []⟩] })
    else updStation (park s p) n (fun x => { x with outletW := x.outletW ++ [⟨.local, p, s.now⟩] })

/-- Packets that wait at an outlet are served in order. -/
def serveOutlet (s : State) (n : Nat) : State :=
  let ws := (stationOf s n).outletW
  forEach ws (updStation s n (fun x => { x with outletW := [] })) (fun s w => atOutlet s n w.packet)

/-- The last port that a packet in flight has reached. -/
def lastPort (s : State) (p : Packet) : Option Nat := (wormOf s p).bind (fun w => w.hops.getLast?.map (fun h => h.port))

/-- Whether a packet that waits at an outlet holds up another one behind it on its port (R201). -/
def outletHeld (s : State) (n : Nat) (p : Packet) : Bool :=
  match lastPort s p with
  | none => false
  | some k => (stationOf s n).outletW.any (fun w => decide (lastPort s w.packet = some k))

/-- A collective packet reaches an outlet (R191, R218, R296): discarded while its partition aborts. -/
def outletArrive (s : State) (n : Nat) (p : Packet) : State :=
  if collDead s p then absorb s p
  else if p.dstDie.toNat = 40 + n ∧ p.dstTile.toNat = 1 then meet s p (outletHeld s n p) (fun s => serveOutlet (atOutlet s n p) n)
  else stay s p

/-! ### Folding (R219) -/

/-- The unit and lane of a record that hold parameter `i` of block `b`; `none` where the record does not reach it. -/
def paramPlace (first len b i : Nat) : Option (Nat × Nat) :=
  let x := (first / 32 + b) * 32 + i
  if first ≤ x ∧ x < first + len / 4 then some ((x - first) / 16, (x - first) % 16) else none

/-- The units of a record that hold parameters of block `b`. -/
def blockUnits (first len b : Nat) : List Nat := ((List.range 32).filterMap (fun i => (paramPlace first len b i).map (fun q => q.1))).eraseDups

/-- The final units that a fold of block `b` takes from a record that has not folded it yet. -/
def foldUnits (s : State) (o : OutletRec) (b : Nat) : Option (List (Nat × List Lane)) :=
  let want := blockUnits (firstParam s o) o.len b
  if want.isEmpty || o.blocks.contains b then none
  else
    let got := want.filterMap (fun u => match spGet (o.units.map (fun k => (k.1, some k.2))) none u with
      | some (c, v) => if o.members ≤ c then some (u, v) else none
      | none => none)
    if got.length = want.length then some got else none

/-- The gradient of parameter `i` of block `b`; −0, which changes no sum, where the record does not reach it. -/
def gradOf (s : State) (o : OutletRec) (us : List (Nat × List Lane)) (b i : Nat) : Nat :=
  match paramPlace (firstParam s o) o.len b i with
  | some q => (((us.find? (fun (u : Nat × List Lane) => decide (u.1 = q.1))).map (fun (u : Nat × List Lane) => u.2.getD q.2 0)).getD 0).toNat
  | none => 0x80000000

/-- The record after block `b`: units whose blocks have all been folded are gone. -/
def afterFold (s : State) (o : OutletRec) (us : List (Nat × List Lane)) (b : Nat) : OutletRec :=
  let o1 : OutletRec := { o with blocks := b :: o.blocks }
  let gone := us.filter (fun u => unitFolded s o1 u.1)
  { o1 with units := gone.foldl (fun m u => spDel m u.1) o.units, done := o.done + gone.length }

/-- One parameter of a fold (R219, R90). -/
def foldElem (first : Bool) (r g ri u : Nat) : Nat := fAdd (if first then r else fAdd g ri) u

/-- The G and R extents of block `gb` of a partition's parameters, for an outlet entry: the G extent that the entry names holds its first
parameter, and both classes go on in ascending extent index (log 16). -/
def foldExtents (s : State) (n p : Nat) (oe : OutletEntry) (gb : Nat) : Option (ExtEntry × ExtEntry) :=
  let gs := classEntries s n p .g
  let at_ := gs.findIdx (fun e => decide (e.ext = oe.ext)) + gb / g8PerExtent - oe.p0.toNat / 32 / g8PerExtent
  match gs[at_]?, (classEntries s n p .r)[gb / g8PerExtent]? with
  | some g, some r => some (g, r)
  | _, _ => none

/-- Fold the final units of block `b` of a record into G and the in-step residual of the running step (R219). -/
def foldBlock (s : State) (n entry b : Nat) : State :=
  match (stationOf s n).outlets.find? (fun o => decide (o.entry.val = entry) && (foldUnits s o b).isSome) with
  | none => s
  | some o =>
    let p := o.part.val
    let pt := partOf s p
    match foldUnits s o b, pt.consist.bind (fun c => c.outlets[entry]?) with
    | some us, some oe =>
      let gb := firstParam s o / 32 + b
      let o1 := afterFold s o us b
      (match foldExtents s n p oe gb with
       | some x =>
         let at_ := gb % g8PerExtent
         let rc := (versionUpTo x.2 pt.committed).map (fun v => v.phys)
         let s1 := stepVersion s n x.1 pt.step
         let s2 := stepVersion s1.1 n x.2 pt.step
         (match s1.2, s2.2 with
          | some gk, some rk =>
            let key := gk * 2 ^ 21 + at_
            let passes := spGet (stationOf s2.1 n).folded 0 key
            let g := blockValues (blockBytes s2.1 n (some gk) at_)
            let r := blockValues (blockBytes s2.1 n rc at_)
            let ri := blockValues (blockBytes s2.1 n (some rk) at_)
            let sums := (List.range 32).map (fun i =>
              foldElem (decide (passes = 0)) (r.getD i 0) (g.getD i 0) (ri.getD i 0) (gradOf s o us b i))
            let vs := sums.map (decodeFp fmt32)
            let q := (g8Block .rne [] vs).1
            let res := (g8Residual vs q).1
            let s3 := physWrite (physWrite s2.1 n p .update gk (33 * at_) (toBytes q)) n p .update rk (33 * at_) (toBytes res)
            let s4 := updStation s3 n (fun x => { x with folded := spPut x.folded key (passes + 1) })
            serveOutlet (putOutlet s4 n o1) n
          | _, _ => s)
       | none => serveOutlet (putOutlet s n o1) n)
    | _, _ => s

/-! ### The step guard of a station die (R227) -/

/-- The G blocks of a partition's running step on a station die, in ascending parameter order. -/
def stepBlocks (s : State) (n p : Nat) : List (List Byte) :=
  (classEntries s n p .g).flatMap (fun e => match e.versions.find? (fun v => decide (v.step = (partOf s p).step)) with
    | some v => ((List.range g8PerExtent).filter (fun b => decide (spGet (stationOf s n).folded 0 (v.phys * 2 ^ 21 + b) ≠ 0))).map
        (fun b => blockBytes s n (some v.phys) b)
    | none => [])

/-- Whether a station die holds a non-finite G block of the running step (R88, R227): its scale byte says so. -/
def blocksNonfin (s : State) (n p : Nat) : Bool := (stepBlocks s n p).any (fun bs => decide (bs.getD 32 0 = 0xFF))

/-- The sum of squares of a station die's G of the running step, dequantised, in ascending parameter order with VCPADD's sequence (R227). -/
def blocksSumsq (s : State) (n p : Nat) : Pair :=
  ((stepBlocks s n p).flatMap blockValues).foldl (fun (a : Pair) x =>
    let q := twoprod32 x x
    cpadd32 a.hi a.lo q.hi q.lo) ⟨0, 0, 0⟩

/-- Whether a station die has folded all that has reached its outlets for a partition (R219, R227). -/
def foldingDone (s : State) (n p : Nat) : Bool := (stationOf s n).outlets.all (fun o => decide (o.part.val ≠ p))

/-! ### The update (R220 to R222) -/

/-- Parameters in a W extent. -/
def paramsPerExtent : Nat := extBytes

/-- State bytes a parameter (Table 8.7). -/
def stateBytes (kernel : Nat) : Nat := if kernel = 0 then 1 else if kernel = 1 then 3 else 5

/-- A parameter with its state, as FP32 patterns. -/
structure Param where
  w    : Nat
  m    : Nat
  v    : Nat
  wres : Nat
deriving DecidableEq, Repr

/-- Read a parameter's state: m and v in BF16 where the kernel has them, wres last (log 16). -/
def readParam (kernel : Nat) (w : Byte) (st : List Byte) : Param :=
  let h (i : Nat) : Nat := ofBf ((st.getD i 0).toNat + 256 * (st.getD (i + 1) 0).toNat)
  match kernel with
  | 0 => ⟨ofE4 w.toNat, 0, 0, ofE4 (st.getD 0 0).toNat⟩
  | 1 => ⟨ofE4 w.toNat, h 0, 0, ofE4 (st.getD 2 0).toNat⟩
  | _ => ⟨ofE4 w.toNat, h 0, h 2, ofE4 (st.getD 4 0).toNat⟩

/-- The moments of a kernel after the gradient (R220). -/
def moments (j : UpdateJob) (g : Nat) (x : Param) : Nat × Nat :=
  let b1 := j.beta1.toNat
  let b2 := j.beta2.toNat
  match j.kernel.toNat with
  | 0 => (x.m, x.v)
  | 1 => (fAdd (fMul b1 x.m) g, x.v)
  | _ => (fAdd (fMul b1 x.m) (fMul (fSub one32 b1) g), fAdd (fMul b2 x.v) (fMul (fMul (fSub one32 b2) g) g))

/-- The new weight in FP32 (R220). -/
def stepWeight (j : UpdateJob) (g : Nat) (x : Param) (mv : Nat × Nat) : Nat :=
  let p := fAdd x.w (fMul x.wres twoM10)
  let t := j.step + 1
  let drive := match j.kernel.toNat with
    | 0 => g
    | 1 => mv.1
    | _ => div32 (div32 mv.1 (fSub one32 (pow32 j.beta1.toNat t)))
        (fAdd (sqrt32 (div32 mv.2 (fSub one32 (pow32 j.beta2.toNat t)))) j.eps.toNat)
  fSub p (fMul j.lr.toNat (fAdd drive (fMul j.wd.toNat p)))

/-- One parameter's update: the new weight byte, state bytes, and whether a result is non-finite (R220, R221). -/
def updateParam (j : UpdateJob) (g : Nat) (x : Param) : Nat × List Byte × Bool :=
  let mv := moments j g x
  let p := stepWeight j g x mv
  let w := toE4 p
  let res := toE4 (fMul (fSub p (ofE4 w)) two10)
  let m := toBf mv.1
  let v := toBf mv.2
  let st := match j.kernel.toNat with
    | 0 => [BitVec.ofNat 8 res]
    | 1 => leBytes 2 m ++ [BitVec.ofNat 8 res]
    | _ => leBytes 2 m ++ leBytes 2 v ++ [BitVec.ofNat 8 res]
  (w, st, nonfin32 p || nonfin32 mv.1 || nonfin32 mv.2 || nonfin32 g || nonfin32 (ofBf m) || nonfin32 (ofBf v))

/-- The oldest update of a partition on a station die. -/
def jobOf (s : State) (n p : Nat) : Option UpdateJob := (stationOf s n).updates.find? (fun j => decide (j.part.val = p))

/-- Replace the job of a partition and step. -/
def putJob (s : State) (n : Nat) (j : UpdateJob) : State :=
  updStation s n (fun x => { x with updates := x.updates.map (fun k => if k.part = j.part ∧ k.step = j.step then j else k) })

/-- The parameter blocks of a partition on a station die. -/
def totalBlocks (s : State) (n p : Nat) : Nat := (classEntries s n p .w).length * (paramsPerExtent / 32)

/-- The version before a step of an extent. -/
def beforeStep (e : ExtEntry) (step : Nat) : Option Nat :=
  ((e.versions.find? (fun v => decide (v.step < step))).orElse (fun _ => e.versions.getLast?)).map (fun v => v.phys)

/-- Whether a page that holds a range is lost. -/
def rangeLost (x : Station) (k : Option Nat) (off n : Nat) : Bool :=
  match k with
  | some k => (pagesOf off n).any (fun g => x.lost.contains (k, g))
  | none => false

/-- The bytes of a block's 32 states cut into parameters. -/
def cutStates (sb : Nat) : Nat → List Byte → List (List Byte)
  | 0, _ => []
  | n + 1, bs => bs.take sb :: cutStates sb n (bs.drop sb)

/-- The update of a W extent and of the S extents that hold its state is done (R211, R222, R224): the journal records the switches, and the old S
extents are erased. -/
def endExtents (s : State) (n p : Nat) (j : UpdateJob) (wi : Nat) : State :=
  let sb := stateBytes j.kernel.toNat
  let done (e : ExtEntry) : JournalRec :=
    switchRec p j.step e ((beforeStep e j.step).getD 0) (((e.versions.find? (fun v => decide (v.step = j.step))).map (fun v => v.phys)).getD 0)
  let se := ((classEntries s n p .s).drop (wi * sb)).take sb
  let s1 := forEach se s (fun s e => keepVersions (journal s n (done e)) n e (fun v => decide (j.step ≤ v.step)))
  match (classEntries s1 n p .w)[wi]? with
  | some e => journal s1 n (done e)
  | none => s1

/-- Update one block (R220, R221): the next one of the oldest update; a block with a non-finite result, or whose gradient or state page is
lost, keeps its content, is counted and reported. -/
def updateBlock (s : State) (n p b : Nat) : State :=
  match jobOf s n p with
  | none => s
  | some j =>
    if b ≠ j.blocks ∨ totalBlocks s n p ≤ b then s
    else
      let sb := stateBytes j.kernel.toNat
      let wOff := 32 * b
      let sOff := 32 * b * sb
      match (classEntries s n p .w)[wOff / extBytes]?, (classEntries s n p .s)[sOff / extBytes]? with
      | some we, some se =>
        let wo := wOff % extBytes
        let so := sOff % extBytes
        let wIn := beforeStep we j.step
        let sIn := beforeStep se j.step
        let gk := ((classEntries s n p .g)[b / g8PerExtent]?).bind (fun e => (e.versions.find? (fun v => decide (v.step = j.step))).map (fun v => v.phys))
        let gOff := 33 * (b % g8PerExtent)
        let x := stationOf s n
        let ws := physBytes x wIn wo 32
        let ss := physBytes x sIn so (32 * sb)
        let gs := blockValues (physBytes x gk gOff 33)
        let rs := (List.zip gs (List.zip ws (cutStates sb 32 ss))).map (fun q => updateParam j q.1 (readParam j.kernel.toNat q.2.1 q.2.2))
        let keep := rs.any (fun r => r.2.2) || rangeLost x gk gOff 33 || rangeLost x sIn so (32 * sb)
        let s1 := stepVersion s n we j.step
        let s2 := stepVersion s1.1 n se j.step
        (match s1.2, s2.2 with
         | some wk, some sk =>
           let wNew := if keep then ws else rs.map (fun r => BitVec.ofNat 8 r.1)
           let sNew := if keep then ss else rs.flatMap (fun r => r.2.1)
           let s3 := physWrite (physWrite s2.1 n p .update wk wo wNew) n p .update sk so sNew
           let s4 := putJob s3 n { j with blocks := b + 1 }
           let s5 := if keep then
               (let c := addFld s4 (psbPart n p 0x30) 31 0 1
                sendReport c (5760 + n) p (40 + n) .updateNonfin 1)
             else s4
           if (b + 1) % (paramsPerExtent / 32) = 0 then endExtents s5 n p j (wOff / extBytes) else s5
         | _, _ => s)
      | _, _ => s

/-! ### Meanings -/

/-- RD_DATA (R199, R201, R202, R218): combined into the reducer's slot or the root's destination, delivered to an outlet at the last router before
its station die, discarded while its partition aborts, and passed on otherwise. -/
def execRdData (t : TileId) (inPort : Dir) (p : Packet) (s : State) : Host.Outcome State Fault Refusal :=
  .next (
    if collDead s p then absorb s p
    else if earlyAt s t p || portHeld s t p.plane inPort then stay s p
    else if p.dstDie.toNat < 40 ∧ packetDst p = t.val then recause (meet s p false (fun s => atRoot s t inPort p)) t
    else match intoSlot s t p with
      | some k => slotData (absorb s p) t k.1 k.2 p
      | none => match (outDir s p t).bind (stationAt t) with
        | some n => outletArrive s n p
        | none => stay s p)

/-- OUTLET_RD_OPEN (R218). -/
def execOutletRdOpen (stn : StationId) (p : Packet) (s : State) : Host.Outcome State Fault Refusal := .next (outletArrive s stn.val p)

/-- OUTLET_FOLD (R219). -/
def execOutletFold (stn : StationId) (entry : Fin 64) (block : Nat) (s : State) : Host.Outcome State Fault Refusal :=
  .next (foldBlock s stn.val entry.val block)

/-- UPDATE_BLOCK (R220, R221). -/
def execUpdateBlock (stn : StationId) (part : PartId) (block : Nat) (s : State) : Host.Outcome State Fault Refusal :=
  .next (updateBlock s stn.val part.val block)

end Sys2Proof.Machine
end

