-- ==== Sys2Proof/Machine/Boundary.lean ====
section
/-!
DEFINITION. What a step boundary does on a station die: the gate, the versions of a step, commit and skip (R215, R220, R222, R228, Table 8.9).

What the spec leaves open here: log entry 46.
-/

namespace Sys2Proof.Machine

/-- Set or clear a partition's gate on a station die. -/
def setGate (s : State) (n p : Nat) (on : Bool) : State := setFld s (psbPart n p 0) 6 6 (b2n on)

/-- Answer the reads held at a gate that has opened, in arrival order (R215). -/
def releaseHeld (s : State) (n p : Nat) : State :=
  let mine := (stationOf s n).hold.filter (fun h => decide (h.1.val = p))
  forEach mine (updStation s n (fun x => { x with hold := x.hold.filter (fun h => decide (h.1.val ≠ p)) })) (fun s h => peatServe s n h.2)

/-- Free the G version and the in-step R version of a step on a station die. -/
def freeStep (s : State) (n p step : Nat) : State :=
  forEach (classEntries s n p .g ++ classEntries s n p .r) s (fun s e => keepVersions s n e (fun v => decide (v.step ≠ step)))

/-- The update of a committed step, with the hyperparameters in force (R220). -/
def updateJob (s : State) (n p step : Nat) : UpdateJob where
  part := Fin.ofNat 8 p
  step := step
  kernel := BitVec.ofNat 2 (fld s (psbPart n p 0) 5 4)
  lr := BitVec.ofNat 32 (fld s (psbPart n p 8) 31 0)
  beta1 := BitVec.ofNat 32 (fld s (psbPart n p 0x10) 31 0)
  beta2 := BitVec.ofNat 32 (fld s (psbPart n p 0x10) 63 32)
  eps := BitVec.ofNat 32 (fld s (psbPart n p 0x18) 31 0)
  wd := BitVec.ofNat 32 (fld s (psbPart n p 0x18) 63 32)
  blocks := 0

/-- Queue an update; the first of a partition begins at once. A station die that holds no W extent of the partition has nothing to update. -/
def queueUpdate (s : State) (n p step : Nat) : State :=
  if totalBlocks s n p = 0 then setFld s (psbPart n p 0) 63 32 step
  else
    let first := (jobOf s n p).isNone
    let s1 := updStation s n (fun x => { x with updates := x.updates ++ [updateJob s n p step] })
    if first then journal s1 n (journalRec 3 p step 0 0) else s1

/-- The in-step R versions of a step become the committed ones, and the ones before them are freed. -/
def commitResiduals (s : State) (n p step : Nat) : State :=
  forEach (classEntries s n p .r) s (fun s e =>
    if e.versions.any (fun v => decide (v.step = step)) then keepVersions s n e (fun v => decide (step ≤ v.step)) else s)

/-- With the W versions of a step visible, versions older than the one before are freed (R222). -/
def trimVisible (s : State) (n p step : Nat) : State :=
  forEach (classEntries s n p .w) s (fun s e =>
    let floor := e.versions.find? (fun v => decide (v.step ≤ step - 1))
    keepVersions s n e (fun v => decide (step - 1 ≤ v.step) || decide (some v = floor)))

/-- The W versions of a step become visible: the journal records it and the older ones are freed (R222). -/
def makeVisible (s : State) (n p step : Nat) : State :=
  if step = 0 then s else trimVisible (journal s n (journalRec 6 p step 0 0)) n p step

/-- Commit on a station die. -/
def commitStation (s : State) (n p step : Nat) : State :=
  let s1 := journal s n (journalRec 1 p step 0 0)
  let s2 := commitResiduals (queueUpdate s1 n p step) n p step
  let s3 := makeVisible s2 n p (step - lagOf s n p)
  setFld (setGate s3 n p false) (psbPart n p 0x28) 33 33 0

/-- Skip on a station die. -/
def skipStation (s : State) (n p step : Nat) : State :=
  let a := freeStep (journal s n (journalRec 2 p step 0 0)) n p step
  setFld (setGate a n p false) (psbPart n p 0x28) 33 33 1

end Sys2Proof.Machine
end

