-- ==== Sys2Proof/Machine/Routes.lean ====
section
/-!
DEFINITION. Validation of route tables (R30, R159, R161, R165, R166) and the crossings they use.

What the spec leaves open here: log entry 29.
-/

namespace Sys2Proof.Machine

/-- What following the entries from a source toward a destination comes to: LOCAL reached, NOROUTE at the source, or a REASON of NCB_VAL. -/
inductive Walked where
  | reached
  | noRoute
  | bad (reason : Nat)
deriving DecidableEq, Repr

/-- The stored entry of a die for a destination: all eight bits. -/
def rawEntry (s : State) (g : Nat) (pl : Plane) (d dst : Nat) : Nat :=
  bits (rd s (routeKey d g pl (dst / 8))) (8 * (dst % 8) + 7) (8 * (dst % 8))

/-- REASON 6: an entry that its position alone makes invalid (R161). A LOCAL entry for another die names no exit and is counted here. -/
def entryBad (s : State) (g : Nat) (pl : Plane) (d dst : Nat) : Bool :=
  let e := rawEntry s g pl d dst
  if 40 ≤ d then
    (if dst = d then decide (e ≠ 0)
     else if 40 ≤ dst then decide (e ≠ 7)
     else decide (e ≠ 7 ∧ e % 8 ≠ (if d < 44 then 3 else 1)) || decide (16 ≤ e))
  else
    decide (8 ≤ e ∨ e = 5 ∨ e = 6) || (decide (e = 0) && decide (d ≠ dst))
      || (decide (1 ≤ e ∧ e ≤ 4) && (match exitDie d e 0 with
        | none => true
        | some n => decide (40 ≤ n ∧ n ≠ dst)))

/-- Whether a step breaks the turn rule after the directions already taken (R161): no west after north, east or south on the Up line, no east
after north, west or south on the Down line. -/
def turnBad (pl : Plane) (seen : List Nat) (ex : Nat) : Bool :=
  match pl with
  | .up => decide (ex = 4) && seen.any (fun x => decide (x ≠ 4))
  | .down => decide (ex = 2) && seen.any (fun x => decide (x ≠ 2))

/-- Follow the entries of a generation from a die toward a destination (R161, condition 1). -/
def follow (s : State) (g : Nat) (pl : Plane) (src dst : Nat) : Nat → List Nat → Nat → Walked
  | 0, _, _ => .bad 1
  | fuel + 1, seen, cur =>
    if entryBad s g pl cur dst then .bad 6
    else
      let e := rawEntry s g pl cur dst
      let ex := e % 8
      if ex = 7 then (if cur = src then .noRoute else .bad 7)
      else if ex = 0 then .reached
      else match exitDie cur ex (e / 8 % 2) with
        | none => .bad 6
        | some n =>
          if dieClosed s n then .bad 2
          else if !(crossingUsable s pl (cur, ex, n)) then .bad 4
          else if turnBad pl seen ex then .bad 3
          else follow s g pl src dst fuel (ex :: seen) n

/-- The outcome for a pair: toward a fenced die or one in D3 the source's entry must be NOROUTE (R161). -/
def pairWalk (s : State) (g : Nat) (pl : Plane) (src dst : Nat) : Walked :=
  if dieClosed s dst then
    (if rawEntry s g pl src dst % 8 = 7 then (if entryBad s g pl src dst then .bad 6 else .noRoute) else .bad 2)
  else follow s g pl src dst 48 [] src

/-- The live source dies (R161). -/
def liveSources (s : State) : List Nat :=
  (List.range 48).filter (fun d => !(dieClosed s d) && (decide (40 ≤ d) || (partOfDie s d).isSome))

/-- Whether two dies must communicate (R161, condition 2). A closed die communicates with none. -/
def mustTalk (s : State) (a b : Nat) : Bool :=
  !(dieClosed s a) && !(dieClosed s b) &&
    (if 40 ≤ a then decide (b < 40) && (partOfDie s b).isSome
     else if 40 ≤ b then (partOfDie s a).isSome
     else samePart s a b)

/-- The pairs of live sources and dies in ascending order. -/
def sourcePairs (s : State) : List (Nat × Nat) := (liveSources s).flatMap (fun a => (List.range 48).map (fun b => (a, b)))

/-- The first pair of a plane that fails condition 1, with its REASON. -/
def firstBad (s : State) (g : Nat) (pl : Plane) : Option (Nat × Nat × Nat) :=
  (sourcePairs s).findSome? (fun p => match pairWalk s g pl p.1 p.2 with
    | .bad r => some (p.1, p.2, r)
    | _ => none)

/-- Whether a pair is NOROUTE on both planes. -/
def uncovered (s : State) (g : Nat) (p : Nat × Nat) : Bool :=
  mustTalk s p.1 p.2 && decide (pairWalk s g .up p.1 p.2 ≠ .reached ∧ pairWalk s g .down p.1 p.2 ≠ .reached)

/-- The result of a validation as NCB_VAL holds it. -/
structure RouteCheck where
  upOk   : Bool
  dnOk   : Bool
  src    : Nat
  dst    : Nat
  reason : Nat
deriving DecidableEq, Repr

/-- Validate the tables of a generation on all dies as one set (R161). The Up line's failures are reported before the Down line's. -/
def validate (s : State) (g : Nat) : RouteCheck :=
  let up := firstBad s g .up
  let dn := firstBad s g .down
  match up, dn with
  | some f, _ => ⟨false, dn.isNone, f.1, f.2.1, f.2.2⟩
  | none, some f => ⟨true, false, f.1, f.2.1, f.2.2⟩
  | none, none =>
    match (sourcePairs s).find? (uncovered s g) with
    | some p => ⟨true, true, p.1, p.2, 5⟩
    | none => ⟨true, true, 0, 0, 0⟩

/-- Whether a set may be installed. -/
def RouteCheck.ok (c : RouteCheck) : Bool := c.upOk && c.dnOk && decide (c.reason = 0)

/-- Record a validation in NCB_VAL of every die that is powered. -/
def recordCheck (s : State) (c : RouteCheck) : State :=
  let w := BitVec.ofNat 64 (b2n c.upOk + b2n c.dnOk * 2 + c.src * 4 + c.dst * 256 + c.reason * 2 ^ 14)
  forEach ((List.range 48).filter (fun d => decide (fld s (dieStateReg d) 1 0 = 0))) s (fun s d => wr s (ncbReg d 8) w)

/-- Whether a pair can use an installed set now: a path that reaches over usable crossings, on a plane that is enabled (R162, R165, R166). -/
def pairServed (s : State) (p : Nat × Nat) : Bool :=
  [Plane.up, Plane.down].any (fun pl =>
    bit (rd s (ncbReg p.1 0)) (planeNum pl) && decide (pairWalk s (genOf s p.1) pl p.1 p.2 = .reached))

/-- The pairs that must communicate and cannot. -/
def lostPairs (s : State) : List (Nat × Nat) := (sourcePairs s).filter (fun p => mustTalk s p.1 p.2 && !(pairServed s p))

/-- The partition a pair concerns: its compute die's. -/
def pairPart (s : State) (p : Nat × Nat) : Option Nat := partOfDie s (if p.1 < 40 then p.1 else p.2)

/-! ### Crossings (R18, R19, R165) -/

/-- The crossings on an edge of a die (0 north, 1 east, 2 south, 3 west), each by its compute die and that die's edge; for a crossing
between compute dies, by the die named. A station die's edge has two. -/
def crossingsOf (d e : Nat) : List (Nat × Nat) :=
  if 40 ≤ d then [0, 1].filterMap (fun side => (exitDie d (e + 1) side).map (fun n => (n, (e + 2) % 4)))
  else if (exitDie d (e + 1) 0).isSome then [(d, e)] else []

/-- Set the bit of an edge and plane in NCB_XING of a die. -/
def setXing (s : State) (d e : Nat) (pl : Plane) (usable : Bool) : State :=
  setFld s (ncbReg d 0x10) (2 * e + planeNum pl) (2 * e + planeNum pl) (b2n usable)

/-- Mark the crossings of an edge usable or not on a plane, in the NCBs of both their dies (R165). -/
def markCrossing (s : State) (d e : Nat) (pl : Plane) (usable : Bool) : State :=
  forEach (crossingsOf d e) s (fun s c =>
    match exitDie c.1 (c.2 + 1) 0 with
    | some n => setXing (setXing s c.1 c.2 pl usable) n ((c.2 + 2) % 4) pl usable
    | none => s)

/-- The edges of a compute die. -/
def markAll (s : State) (d : Nat) (usable : Bool) : State :=
  forEach [0, 1, 2, 3] s (fun s e => markCrossing (markCrossing s d e .up usable) d e .down usable)

/-- ROUTE_TABLE_WRITE (R160): one word of a route table. -/
def execRouteTableWrite (d : DieId) (generation : Fin 2) (plane : Plane) (word : Fin 6) (value : Word) (s : State) :
    Host.Outcome State Fault Refusal :=
  .next (writeReg s false (routeKey d generation plane word) value)

/-- ROUTE_GENERATION_UNLOCK (R160): 1 ms after it stopped being current, a generation is writable again on every die. -/
def execRouteGenerationUnlock (generation : Fin 2) (s : State) : Host.Outcome State Fault Refusal :=
  .next (forEach (List.range 48) (waitEarliest s (s.dies.filterMap (fun x =>
      (x.2.stopped.find? (fun p => decide (p.1 = generation.val))).map (fun p => p.2 + 1000000)))) (fun s d =>
    let x := dieOf s d
    if x.stopped.any (fun p => decide (p.1 = generation.val ∧ p.2 + 1000000 ≤ s.now)) then
      setDie s d { x with stopped := spDel x.stopped generation.val }
    else s))

end Sys2Proof.Machine
end

