-- ==== Sys2Proof/Machine/Tensor.lean ====
section
/-!
DEFINITION. The tensor engine: descriptor checks, TMUL and TMULS in the fixed order of R99, packed panels, TZERO and TSTORE, bank
holding, start tokens (R98 to R120, R141).

What the spec leaves open here: log entries 9, 88, 96, 101 and 102.
-/

namespace Sys2Proof.Machine

/-! ### Formats and layout (R80, R100) -/

/-- The formats of operand A (R80). -/
def teFormatA (f : Nat) : Bool := decide (f = 0 ∨ f = 1 ∨ f = 3 ∨ f = 4 ∨ f = 5)

/-- W1, W2T and W2Q. -/
def teFormatW (f : Nat) : Bool := (WFmt.ofCode f).isSome

/-- The formats of operand B (R80). -/
def teFormatB (f : Nat) : Bool := teFormatA f || teFormatW f

/-- Element bytes of a plain format code. -/
def elemBytes (f : Nat) : Nat := match Plain.ofCode f with
  | some p => p.width / 8
  | none => 1

/-- The stored rows of an operand and the bytes of each (R100): columns of groups for a W format. -/
def TensorDesc.stored (d : TensorDesc) : Nat × Nat :=
  match WFmt.ofCode d.fmt with
  | some f => (d.cols, f.group)
  | none => if d.trans then (d.cols, d.rows * elemBytes d.fmt) else (d.rows, d.cols * elemBytes d.fmt)

/-- Scratchpad offset of element (i, j) of a dense operand (R100). -/
def TensorDesc.at (d : TensorDesc) (i j : Nat) : Nat :=
  if d.trans then d.base + j * d.stride + i * elemBytes d.fmt else d.base + i * d.stride + j * elemBytes d.fmt

/-- Tile-space offset of element (i, j) of C (R100). -/
def TensorDesc.atC (d : TensorDesc) (i j : Nat) : Nat := d.base + 256 * i + 4 * j

/-- The accumulator bank of a C descriptor (R61). -/
def TensorDesc.bank (d : TensorDesc) : Nat := (d.base - 0x600000) / 0x4000

/-! ### Checks at issue (R101, Table 4.2) -/

/-- A shape in range. -/
def shapeOk (d : TensorDesc) : Bool :=
  decide (4 ≤ d.rows ∧ d.rows ≤ 64 ∧ d.rows % 4 = 0 ∧ 4 ≤ d.cols ∧ d.cols ≤ 64 ∧ d.cols % 4 = 0)

/-- C: FP32, neither packed, mapped nor transposed. -/
def cFormatOk (c : TensorDesc) : Bool := decide (c.fmt = 2) && !c.packed && !c.abm && !c.trans

/-- TE_ALIGN of C: its base is a bank base, and AUX is a multiple of 8 (Table 4.2). -/
def cBaseOk (c : TensorDesc) : Bool :=
  decide (0x600000 ≤ c.base ∧ c.base < 0x640000 ∧ (c.base - 0x600000) % 0x4000 = 0 ∧ c.aux % 8 = 0)

/-- TE_ALIGN of an operand in the scratchpad: BASE, STRIDE and AUX multiples of 8, with STRIDE at least a stored row (Table 4.2). -/
def alignOk (d : TensorDesc) : Bool :=
  decide (d.base % 8 = 0) && (d.packed || decide (d.stride % 8 = 0 ∧ d.stored.2 ≤ d.stride)) && decide (d.aux % 8 = 0)

/-- Blocks of a descriptor's logical shape. -/
def TensorDesc.blocks (d : TensorDesc) : Nat := d.rows / 4 * (d.cols / 4)

/-- ADDR of an operand in the scratchpad: its array or its packed header, its scale array, its map. -/
def rangeOk (d : TensorDesc) : Bool :=
  (if d.packed then decide (d.base + 8 + 2 * d.blocks ≤ 0x600000)
   else decide (d.base + (d.stored.1 - 1) * d.stride + d.stored.2 ≤ 0x600000))
    && (!(teFormatW d.fmt) || decide (d.aux + 2 * d.cols ≤ 0x600000))
    && (!d.abm || decide (d.aux + (d.blocks + 7) / 8 ≤ 0x600000))

/-- The fault of TMUL or TMULS at issue, if any; the faults are tried in the order of Table 4.2 (log 9). -/
def mulFault (sparse : Bool) (c a b : TensorDesc) : Option Nat :=
  if !(cFormatOk c) || !(teFormatA a.fmt) || !(teFormatB b.fmt) || a.packed || b.abm || decide (b.packed ≠ sparse)
      || (teFormatW b.fmt && (b.packed || b.trans)) then some 0x12
  else if !(shapeOk a) || !(shapeOk b) || !(shapeOk c) || decide (a.cols ≠ b.rows ∨ a.rows ≠ c.rows ∨ b.cols ≠ c.cols)
      || (teFormatW b.fmt && decide (b.rows ≠ 64)) then some 0x13
  else if !(cBaseOk c) || !(alignOk a) || !(alignOk b) then some 0x14
  else if !(rangeOk a) || !(rangeOk b) then some 0x03
  else none

/-- The fault of TZERO at issue. -/
def zeroFault (c : TensorDesc) : Option Nat :=
  if !(cFormatOk c) then some 0x12 else if !(shapeOk c) then some 0x13 else if !(cBaseOk c) then some 0x14 else none

/-- The fault of TSTORE at issue. TRANS = 1 is allowed on its destination. -/
def storeFault (c d : TensorDesc) : Option Nat :=
  if !(cFormatOk c) || decide (d.fmt ≠ 2) || d.packed || d.abm then some 0x12
  else if !(shapeOk c) || !(shapeOk d) || decide (d.rows ≠ c.rows ∨ d.cols ≠ c.cols) then some 0x13
  else if !(cBaseOk c) || !(alignOk d) then some 0x14
  else if !(rangeOk d) then some 0x03
  else none

/-! ### Issue (R98, R104, R127, R141) -/

/-- The tile asks for a start token when its TE queue holds an entry (R118, R119). -/
def askToken (s : State) (t : Nat) : State :=
  let x := tileOf s t
  if x.q.te.isEmpty || holdsToken s t || x.tokReq.isSome then s else updTile s t (fun x => { x with tokReq := some s.vco })

/-- Issue a TE instruction: the fault of its descriptors, or an entry that holds them as they are now (R127). -/
def teIssue (t : TileId) (w : IWord) (ok : Bool) (fault : TensorDesc → TensorDesc → TensorDesc → Option Nat) (op : TeOp) (s : State) :
    State :=
  issue s t (Form.t.ok w && is3 w.d && ok) [] (fun i s =>
    let y := issuerCtx s t i
    let c := tdGet y w.d.toNat
    let a := tdGet y w.a.toNat
    let b := tdGet y w.b.toNat
    match fault c a b with
    | some code => issueFault s t i code
    | none =>
      askToken (enqueue s t i .te (tileOf s t).q.te.length (fun q =>
        { q with te := q.te ++ [⟨i, op, c, a, b, w.lc, w.lcEn && decide (op = .tstore)⟩] })) t)

/-! ### Packed panels (R105 to R111) -/

/-- Whether a bitmap is eligible: at most two set bits in each row and each column (R105). -/
def eligible (m : Nat) : Bool :=
  (List.range 4).all (fun r =>
    decide (((List.range 4).filter (fun c => m.testBit (4 * r + c))).length ≤ 2)
      && decide (((List.range 4).filter (fun c => m.testBit (4 * c + r))).length ≤ 2))

/-- Set bits of a bitmap below bit `n`. -/
def popBelow (m n : Nat) : Nat := ((List.range n).filter (fun i => m.testBit i)).length

/-- Running totals of a list, from 0. -/
def runningSum : Nat → List Nat → List Nat
  | _, [] => []
  | acc, n :: ns => acc :: runningSum (acc + n) ns

/-- A packed panel as read: PANEL_SUM, the bitmaps, and the values before each block (R106). -/
structure Packed where
  sum   : Nat
  maps  : List Nat
  first : List Nat
deriving DecidableEq, Repr

/-- The 16-bit numbers of a byte list. -/
def halfwords : List Byte → List Nat
  | a :: b :: r => (a.toNat + 256 * b.toNat) :: halfwords r
  | _ => []

/-- Read the summary and bitmaps of a packed panel. -/
def packedOf (s : State) (t : Nat) (who : Option CtxId) (d : TensorDesc) : Packed :=
  let ms := halfwords (tileBytes s t who (d.base + 8) (2 * d.blocks))
  ⟨leNat (tileBytes s t who d.base 8), ms, runningSum 0 (ms.map (fun m => popBelow m 16))⟩

/-- NBLK of PANEL_SUM. -/
def Packed.nblk (p : Packed) : Nat := p.sum % 2 ^ 9
/-- NELIG of PANEL_SUM. -/
def Packed.nelig (p : Packed) : Nat := p.sum / 2 ^ 9 % 2 ^ 9
/-- NVAL of PANEL_SUM. -/
def Packed.nval (p : Packed) : Nat := p.sum / 2 ^ 18 % 2 ^ 13

/-- Offset of the value stream (Table 4.3). -/
def TensorDesc.values (d : TensorDesc) : Nat := d.base + (8 + 2 * d.blocks + 7) / 8 * 8

/-- The checks of R107 and the end of the value stream (Table 4.2): true for TE_META. -/
def Packed.bad (p : Packed) (d : TensorDesc) : Bool :=
  decide (p.nblk ≠ d.blocks ∨ p.nelig ≠ (p.maps.filter eligible).length ∨ p.nval ≠ (p.maps.map (fun m => popBelow m 16)).sum
    ∨ 2 ^ 31 ≤ p.sum ∨ 0x600000 < d.values + p.nval * elemBytes d.fmt)

/-- Block and bit of logical element (k, j) of B in its packed panel (R106, R110). -/
def packedPos (d : TensorDesc) (k j : Nat) : Nat × Nat :=
  if d.trans then (j / 4 * (d.rows / 4) + k / 4, 4 * (j % 4) + k % 4) else (k / 4 * (d.cols / 4) + j / 4, 4 * (k % 4) + j % 4)

/-- The path of a TMULS: true for the sparse one (R108). -/
def sparsePath (thresh : Nat) (p : Packed) : Bool := decide (thresh * p.nblk ≤ p.nelig * 256)

/-! ### The block product (R99) -/

/-- The sign of a decoded value. -/
def FV.neg : FV → Bool
  | .nan => false
  | .inf n => n
  | .fin n _ _ => n

/-- The product of two operands: none for NaN by a NaN operand, flagged invalid for 0 × ∞ (R75). -/
inductive Prod where
  | nan
  | invalid
  | inf (neg : Bool)
  | fin (neg : Bool) (d : Dy)
deriving DecidableEq, Repr

/-- Multiply two operands exactly. -/
def prodOf : FV → FV → Prod
  | .nan, _ => .nan
  | _, .nan => .nan
  | .inf a, .inf b => .inf (a != b)
  | .inf a, .fin b m _ => if m = 0 then .invalid else .inf (a != b)
  | .fin a m _, .inf b => if m = 0 then .invalid else .inf (a != b)
  | .fin a m e, .fin b n f => .fin (a != b) (dyOf (a != b) (m * n) (e + f))

/-- Round the exact sum of the products of a block once (R99): the FP32 value and its flags. DESIGN CHOICE (log 96): an invalid product, or ∞ − ∞,
goes before a NaN operand, so a block with both sets NV beside NF. -/
def sumProds (ps : List Prod) : Nat × Nat :=
  let bad := ps.any (fun p => decide (p = .invalid)) || (ps.any (fun p => decide (p = .inf false)) && ps.any (fun p => decide (p = .inf true)))
  if bad then (nan32, fNV ||| fNF)
  else if ps.any (fun p => decide (p = .nan)) then (nan32, fNF)
  else if ps.any (fun p => decide (p = .inf false)) then (fmt32.infBits, fNF)
  else if ps.any (fun p => decide (p = .inf true)) then (fmt32.signBit true + fmt32.infBits, fNF)
  else
    let total := ps.foldl (fun a p => match p with
      | .fin _ d => Dy.add a d
      | _ => a) ⟨0, 0⟩
    Dy.round32 .rne total (ps.all (fun p => match p with
      | .fin n _ => n
      | _ => false))

/-- One reduction block of one element of C (R99): `none` elements of B are structural zeros (R111). A block in which none meets a product adds
nothing. -/
def macBlock (acc : Nat × Nat) (as : List FV) (bs : List (Option FV)) : Nat × Nat :=
  match (List.zip as bs).filterMap (fun p => p.2.map (prodOf p.1)) with
  | [] => acc
  | ps =>
    let q := sumProds ps
    let r := add32 .rne acc.1 q.1
    (r.1, acc.2 ||| q.2 ||| r.2)

/-- All reduction blocks in ascending order, passing over the skipped ones (R99, R113). -/
def macRow : Nat × Nat → List Bool → List FV → List (Option FV) → Nat × Nat
  | acc, [], _, _ => acc
  | acc, k :: ks, as, bs => macRow (if k then acc else macBlock acc (as.take 4) (bs.take 4)) ks (as.drop 4) (bs.drop 4)

/-! ### Operands in the scratchpad -/

/-- The operands of a multiply as read: the rows of A, the columns of B, and the flags of decoding B (R79). -/
structure Operands where
  rows  : List (List FV)
  cols  : List (List (Option FV))
  flags : Nat
deriving DecidableEq, Repr

/-- A dense element. -/
def denseAt (s : State) (t : Nat) (who : Option CtxId) (d : TensorDesc) (i j : Nat) : FV :=
  match Plain.ofCode d.fmt with
  | some p => p.decode (leNat (tileBytes s t who (d.at i j) (p.width / 8)))
  | none => .nan

/-- An element of a packed B: `none` for a structural zero. -/
def packedAt (s : State) (t : Nat) (who : Option CtxId) (d : TensorDesc) (p : Packed) (k j : Nat) : Option FV :=
  let q := packedPos d k j
  let m := p.maps.getD q.1 0
  if m.testBit q.2 then
    match Plain.ofCode d.fmt with
    | some f => some (f.decode (leNat (tileBytes s t who (d.values + (p.first.getD q.1 0 + popBelow m q.2) * (f.width / 8)) (f.width / 8))))
    | none => none
  else none

/-- The column of a W-format B: its 64 weights with the flags of decoding them (R77 to R79). -/
def weightCol (s : State) (t : Nat) (who : Option CtxId) (d : TensorDesc) (f : WFmt) (j : Nat) : List (Nat × Nat) :=
  let g := leNat (tileBytes s t who (d.base + j * d.stride) f.group)
  let sc := leNat (tileBytes s t who (d.aux + 2 * j) 2)
  (List.range 64).map (fun k => decodeWeight f (g / 2 ^ (k * f.bits) % 2 ^ f.bits) sc)

/-- Read both operands. -/
def operandsOf (s : State) (t : Nat) (who : Option CtxId) (a b : TensorDesc) (p : Packed) : Operands :=
  let rows := (List.range a.rows).map (fun i => (List.range a.cols).map (fun k => denseAt s t who a i k))
  match WFmt.ofCode b.fmt with
  | some f =>
    let cs := (List.range b.cols).map (weightCol s t who b f)
    ⟨rows, cs.map (fun c => c.map (fun v => some (decodeFp fmt32 v.1))),
      cs.foldl (fun fl c => c.foldl (fun fl v => fl ||| v.2) fl) 0⟩
  | none =>
    ⟨rows, (List.range b.cols).map (fun j => (List.range b.rows).map (fun k =>
      if b.packed then packedAt s t who b p k j else some (denseAt s t who b k j))), 0⟩

/-- Whether block (mb, kb) of A is skipped by its map (R112). -/
def skipped (s : State) (t : Nat) (who : Option CtxId) (a : TensorDesc) (mb kb : Nat) : Bool :=
  if a.abm then
    let i := mb * (a.cols / 4) + kb
    (readByte s (tilePlace s t who (a.aux + i / 8))).getLsbD (i % 8)
  else false

/-- The skip flags of A, by block row. -/
def skipRows (s : State) (t : Nat) (who : Option CtxId) (a : TensorDesc) : List (List Bool) :=
  (List.range (a.rows / 4)).map (fun mb => (List.range (a.cols / 4)).map (fun kb => skipped s t who a mb kb))

/-! ### Occupancy (R102) -/

/-- The slots of one block row and block column: pairs of reduction blocks. -/
def pairSlots (sparse : Bool) : List (Bool × Bool) → Nat
  | (s0, e0) :: (s1, e1) :: r =>
    (if sparse && !s0 && !s1 && e0 && e1 then 1 else b2n (!s0) + b2n (!s1)) + pairSlots sparse r
  | [(s0, _)] => b2n (!s0)
  | [] => 0

/-- Whether block (kb, nb) of B is eligible; only a packed panel says so. -/
def blockEligible (b : TensorDesc) (p : Packed) (kb nb : Nat) : Bool :=
  b.packed && eligible (p.maps.getD (packedPos b (4 * kb) (4 * nb)).1 0)

/-- The occupancy of a multiply in CCLK. -/
def mulOccupancy (skips : List (List Bool)) (sparse : Bool) (a b : TensorDesc) (p : Packed) : Nat :=
  let slots := (skips.map (fun row =>
    ((List.range (b.cols / 4)).map (fun nb =>
      pairSlots sparse (List.zip row ((List.range (b.rows / 4)).map (fun kb => blockEligible b p kb nb))))).sum)).sum
  let wide := decide (a.fmt ≤ 1 ∨ b.fmt ≤ 1)
  max 1 (ceilDiv slots (if wide then 32 else 64))

/-! ### Execution -/

/-- The words of a byte range, for the ECC check. -/
def rangesWords (rs : List (Nat × Nat)) : List Nat := (rs.flatMap (fun r => wordOffsets r.1 r.2)).eraseDups

/-- The byte ranges that a multiply reads before its panels: the map, and the summary and bitmaps of a packed B (R107). -/
def metaRanges (a b : TensorDesc) : List (Nat × Nat) :=
  (if a.abm then [(a.aux, (a.blocks + 7) / 8)] else []) ++ (if b.packed then [(b.base, 8 + 2 * b.blocks)] else [])

/-- The byte ranges of the panels: A but its skipped blocks, which are neither read nor checked (R113), and all of B. -/
def panelRanges (skips : List (List Bool)) (a b : TensorDesc) (p : Packed) : List (Nat × Nat) :=
  let e := elemBytes a.fmt
  let blockRows (mb kb : Nat) : List (Nat × Nat) :=
    (List.range 4).map (fun r =>
      if a.trans then (a.at (4 * mb) (4 * kb + r), 4 * e) else (a.at (4 * mb + r) (4 * kb), 4 * e))
  let ra := (List.zip (List.range skips.length) skips).flatMap (fun m =>
    (List.zip (List.range m.2.length) m.2).flatMap (fun k => if k.2 then [] else blockRows m.1 k.1))
  let rb := if b.packed then [(b.values, p.nval * elemBytes b.fmt)]
    else (List.range b.stored.1).map (fun r => (b.base + r * b.stride, b.stored.2))
  ra ++ rb ++ (if teFormatW b.fmt then [(b.aux, 2 * b.cols)] else [])

/-- The rows of C as byte ranges. -/
def cRanges (c : TensorDesc) : List (Nat × Nat) := (List.range c.rows).map (fun i => (c.atC i 0, 4 * c.cols))

/-- Element (i, j) of C as it stands. -/
def cAt (s : State) (t : Nat) (c : TensorDesc) (i j : Nat) : Nat := leNat (tileBytes s t none (c.atC i j) 4)

/-- Write the rows of a C panel. -/
def putC (s : State) (t : Nat) (c : TensorDesc) (rows : List (List Nat)) : State :=
  forEach (List.zip (List.range rows.length) rows) s (fun s r =>
    tileWrite s t none .acc (c.atC r.1 0) (r.2.flatMap (fun v => leBytes 4 v)))

/-- The C panel becomes undefined (R101). -/
def undefineC (s : State) (t : Nat) (c : TensorDesc) : State :=
  forEach (List.range c.rows) s (fun s i => undefine s (tileAddr t (c.atC i 0)) (tileAddr t (c.atC i 0) + 4 * c.cols))

/-- How an entry ended its start: the state, and its occupancy or its fault. -/
abbrev TeResult := State × (Nat ⊕ Nat)

/-- Run TMUL or TMULS: checks, counts, C and the flags (R99, R107 to R113). -/
def teMul (s : State) (t : Nat) (e : TeEntry) : TeResult :=
  let who := some e.by_.ctx
  let m := eccCheckAt s t who .scr (rangesWords (metaRanges e.a e.b))
  if m.2 then (undefineC m.1 t e.c, .inr 0x04)
  else
    let p := if e.b.packed then packedOf m.1 t who e.b else ⟨0, [], []⟩
    if e.b.packed && p.bad e.b then (m.1, .inr 0x15)
    else
      let skips := skipRows m.1 t who e.a
      let n := eccCheckAt m.1 t who .scr (rangesWords (panelRanges skips e.a e.b p))
      if n.2 then (undefineC n.1 t e.c, .inr 0x04)
      else
        let k := eccCheckAt n.1 t none .acc (rangesWords (cRanges e.c))
        if k.2 then (undefineC k.1 t e.c, .inr 0x08)
        else
          let s1 := k.1
          let d := t / 144
          let sparse := e.b.packed && sparsePath (dieOf s1 d).thresh p
          let o := operandsOf s1 t who e.a e.b p
          let rows := (List.zip (List.range e.c.rows) o.rows).map (fun r =>
            (List.zip (List.range e.c.cols) o.cols).map (fun c =>
              macRow (cAt s1 t e.c r.1 c.1, 0) (skips.getD (r.1 / 4) []) r.2 c.2))
          let flags := rows.foldl (fun fl r => r.foldl (fun fl v => fl ||| v.2) fl) o.flags
          let s2 := putC s1 t e.c (rows.map (fun r => r.map (fun v => v.1)))
          let s3 := raiseFlags s2 t .te flags
          let s4 := if e.op = .tmuls then
              addFld (addFld s3 (tebReg d (if sparse then 0x10 else 0x18)) 63 0 1) (tebReg d 0x20) 63 0
                (p.maps.filter (fun m => !(eligible m))).length
            else s3
          let s5 := addFld s4 (tebReg d 0x28) 63 0 (skips.flatMap (fun r => r.filter id)).length
          (s5, .inl (mulOccupancy skips sparse e.a e.b p))

/-- Run TZERO: +0 into the panel (R104). -/
def teZero (s : State) (t : Nat) (e : TeEntry) : TeResult :=
  (putC s t e.c (List.replicate e.c.rows (List.replicate e.c.cols 0)), .inl (ceilDiv (e.c.rows * e.c.cols * 4) 1024))

/-- Run TSTORE: copy C into the scratchpad, or KEEP_WRITE with no byte written (R57, R104). The destination descriptor is `a`. -/
def teStore (s : State) (t : Nat) (e : TeEntry) : TeResult :=
  let d := e.a
  if (List.range d.stored.1).any (fun r => keepBlocks s t (d.base + r * d.stride) d.stored.2) then (s, .inr 0x05)
  else
    let k := eccCheckAt s t none .acc (rangesWords (cRanges e.c))
    if k.2 then (undefineC k.1 t e.c, .inr 0x08)
    else
      let rowBytes (r : Nat) : List Byte := (List.range (d.stored.2 / 4)).flatMap (fun q =>
        leBytes 4 (if d.trans then cAt k.1 t e.c q r else cAt k.1 t e.c r q))
      (forEach (List.range d.stored.1) k.1 (fun s r =>
        tileWrite s t (some e.by_.ctx) .scr (d.base + r * d.stride) (rowBytes r)), .inl (ceilDiv (e.c.rows * e.c.cols * 4) 256))

/-- Run an entry. -/
def teRun (s : State) (t : Nat) (e : TeEntry) : TeResult :=
  match e.op with
  | .tmul => teMul s t e
  | .tmuls => teMul s t e
  | .tzero => teZero s t e
  | .tstore => teStore s t e

/-- The token stays for HOLD CCLK from now (R118). -/
def holdToken (s : State) (t : Nat) : State :=
  setDie s (t / 144) { dieOf s (t / 144) with
    holdEnd := spSet (dieOf s (t / 144)).holdEnd 0 (t % 144) (s.vco + fld s (tebReg (t / 144) 0) 31 16 * cclk s t) }

/-- Whether an entry starts only after the occupancy of an executing one (R102): a TSTORE runs beside a later multiply into another bank
(R104). -/
def teBlocks (e : TeEntry) (x : TeExec) : Bool :=
  !(decide (x.entry.op = .tstore) && decide (e.op = .tmul ∨ e.op = .tmuls) && decide (x.bank ≠ e.c.bank))

/-- TE_OCCUPANCY_START: the head entry starts its occupancy, after that of the entry before it, while the tile holds a start token (R102,
R118). A fault goes to the context that issued the entry, whose later TE entries are discarded (R101). DESIGN CHOICE (log 101): an entry that
ends with a fault starts the HOLD time anew. -/
def teStart (t : TileId) (s0 : State) : State :=
  match (tileOf s0 t).q.te with
  | [] => s0
  | e :: rest =>
    if !(holdsToken s0 t) || !(scopeOpen s0 t) then s0
    else
      let s := waitVco s0 ((((tileOf s0 t).q.teExec.filter (teBlocks e)).map (fun x => x.ends)).foldl max 0)
      let r := teRun (updTile s t (fun x => { x with q := { x.q with te := rest } })) t e
      match r.2 with
      | .inl occ =>
        recause (updTile r.1 t (fun x =>
          { x with q := { x.q with teExec := x.q.teExec ++ [⟨e, e.c.bank, s.vco + occ * cclk s t⟩] } })) t
      | .inr code =>
        let s1 := updTile r.1 t (fun x => { x with q := { x.q with te := x.q.te.filter (fun f => decide (f.by_.ctx ≠ e.by_.ctx)) } })
        recause (faultCtx (holdToken s1 t) t e.by_.ctx code e.by_.index) t

/-- The entry whose occupancy ends first: its place in the list and itself. -/
def firstEnding : List TeExec → Option TeExec
  | [] => none
  | e :: es => match firstEnding es with
    | some f => if f.ends < e.ends then some f else some e
    | none => some e

/-- TE_COMPLETION: 20 CCLK after the occupancy the results are readable, the bank is free, and a TSTORE counts (R102 to R104). -/
def teComplete (t : TileId) (s0 : State) : State :=
  match firstEnding (tileOf s0 t).q.teExec with
  | none => s0
  | some e =>
    let s := waitVco s0 (e.ends + 20 * cclk s0 t)
    let s1 := holdToken (updTile s t (fun x => { x with q := { x.q with teExec := x.q.teExec.erase e } })) t
    let s2 := if e.entry.cntEn then cntInc s1 t e.entry.cnt.toNat 1 else s1
    recause s2 t

/-! ### Start tokens (R118, R119) -/

/-- Whether a tile asks for a token: its TE queue holds an entry and it has none. -/
def wantsToken (s : State) (d i : Nat) : Bool :=
  goodTile s (d * 144 + i) && !((tileOf s (d * 144 + i)).q.te.isEmpty) && !((dieOf s d).tokens.contains i)

/-- Grant one token: the waiting CCLK are added to TEB_RAMP_WAIT (R119). -/
def grantToken (s : State) (d i : Nat) : State :=
  let t := d * 144 + i
  let s2 := endTokWait s t
  recause (setDie s2 d { dieOf s2 d with tokens := (dieOf s2 d).tokens ++ [i], tokenLast := i }) t

/-- START_TOKEN_GRANT: at the next 125 ns boundary, at most STARTS tokens, in ascending tile index from after the last tile granted, wrapping (R118).
DESIGN CHOICE (log 101): before any grant the rotation begins at tile 0. -/
def grantTokens (d : ComputeDie) (s0 : State) : State :=
  let at_ := max (dieOf s0 d).grantAt (ceilDiv s0.now 125 * 125)
  let s1 := waitUntil s0 at_
  let s := setDie s1 d { dieOf s1 d with grantAt := at_ + 125 }
  let order := (List.range 144).map (fun k => ((dieOf s d).tokenLast + 1 + k) % 144)
  forEach ((order.filter (wantsToken s d)).take (startsOf s d)) s (fun s i => grantToken s d i)

/-- START_TOKEN_RELEASE: a tile whose TE is empty releases its token once HOLD CCLK have passed since its last completion (R118). -/
def releaseToken (t : TileId) (s0 : State) : State :=
  let d := t.val / 144
  let x := tileOf s0 t
  if holdsToken s0 t && x.q.te.isEmpty && x.q.teExec.isEmpty then
    let s := waitVco s0 (spGet (dieOf s0 d).holdEnd 0 (t.val % 144))
    setDie s d { dieOf s d with
      tokens := (dieOf s d).tokens.filter (fun i => decide (i ≠ t.val % 144))
      holdEnd := spDel (dieOf s d).holdEnd (t.val % 144) }
  else s0

/-! ### Descriptor registers (R100, R141) -/

/-- The words of a descriptor as its register holds them: the reserved fields, word 0 [63:44] and word 1 [63:46], read as zero (R12, R100). -/
def tensorWords (w0 w1 : Word) : TensorDesc := ⟨w0 &&& 0xFFFFFFFFFFF, w1 &&& 0x3FFFFFFFFFFF⟩

/-- TDSET: both words, with no check. -/
def tdSetOp (t : TileId) (w : IWord) (s : State) : State :=
  issue s t (Form.t.ok w && is3 w.d && decide (w.ext = 0)) [w.a, w.b] (fun i s =>
    let c := issuerCtx s t i
    retire s t i (i.index + 1) (fun y => tdSet y w.d.toNat (tensorWords (xGet c w.a) (xGet c w.b))))

/-- TDGET: one word into xd. DEDUCED (log 102): field B, which R141 gives no use, is 0. -/
def tdGetOp (t : TileId) (w : IWord) (s : State) : State :=
  issue s t (Form.t.ok w && is3 w.a && decide (w.b = 0 ∧ w.extBits 31 1 = 0)) [w.d] (fun i s =>
    let d := tdGet (issuerCtx s t i) w.a.toNat
    retire s t i (i.index + 1) (fun y => xSet y w.d (if w.extBits 0 0 = 1 then d.w1 else d.w0)))

/-! ### Meanings -/

/-- TMUL (R98). -/
def execTmul (t : TileId) (w : IWord) (s : State) : Host.Outcome State Fault Refusal :=
  .next (teIssue t w (is3 w.a && is3 w.b && decide (w.ext = 0)) (mulFault false) .tmul s)

/-- TMULS (R98). -/
def execTmuls (t : TileId) (w : IWord) (s : State) : Host.Outcome State Fault Refusal :=
  .next (teIssue t w (is3 w.a && is3 w.b && decide (w.ext = 0)) (mulFault true) .tmuls s)

/-- TZERO (R104). -/
def execTzero (t : TileId) (w : IWord) (s : State) : Host.Outcome State Fault Refusal :=
  .next (teIssue t w (decide (w.a = 0 ∧ w.b = 0 ∧ w.ext = 0)) (fun c _ _ => zeroFault c) .tzero s)

/-- TSTORE (R104, R141). DEDUCED (log 102): field B, which R141 gives no use, is 0. -/
def execTstore (t : TileId) (w : IWord) (s : State) : Host.Outcome State Fault Refusal :=
  .next (teIssue t w (is3 w.a && decide (w.b = 0 ∧ w.extBits 31 7 = 0)) (fun c d _ => storeFault c d) .tstore s)

/-- TDSET (R141). -/
def execTdset (t : TileId) (w : IWord) (s : State) : Host.Outcome State Fault Refusal := .next (tdSetOp t w s)

/-- TDGET (R141). -/
def execTdget (t : TileId) (w : IWord) (s : State) : Host.Outcome State Fault Refusal := .next (tdGetOp t w s)

/-- START_TOKEN_GRANT (R118). -/
def execStartTokenGrant (d : ComputeDie) (s : State) : Host.Outcome State Fault Refusal := .next (grantTokens d s)

/-- START_TOKEN_RELEASE (R118). -/
def execStartTokenRelease (t : TileId) (s : State) : Host.Outcome State Fault Refusal := .next (releaseToken t s)

/-- TE_OCCUPANCY_START (R102). -/
def execTeOccupancyStart (t : TileId) (s : State) : Host.Outcome State Fault Refusal := .next (teStart t s)

/-- TE_COMPLETION (R102). -/
def execTeCompletion (t : TileId) (s : State) : Host.Outcome State Fault Refusal :=
  .next (if clockOn s t.val then teComplete t s else s)

end Sys2Proof.Machine
end

