-- ==== Sys2Proof/Machine/Resets.lean ====
section
/-!
DEFINITION. Resets below module scope, what survives them, and the regions and clusters that are switched off and on (R55, R58, R60, R167,
R269, R294, R295, R300, R302, R305, Tables 11.3, 11.6, 11.7 and 11.9).

What the spec leaves open here: log entries 3, 37, 38, 39, 43, 99, 101 and 114.
-/

namespace Sys2Proof.Machine

/-! ### SRAM (R60, R61, R305) -/

/-- The enabled KEEP ranges of a tile in ascending order, as rows. -/
def keepRanges (s : State) (t : Nat) : List (Nat × Nat) :=
  let rs := (List.range 4).filterMap (fun n =>
    let w := rd s (keepReg t n)
    if bit w 40 then some (keepBase w, keepEnd w) else none)
  rs.foldl (fun l r => l.takeWhile (fun q => decide (q.1 < r.1)) ++ [r] ++ l.dropWhile (fun q => decide (q.1 < r.1))) []

/-- The gaps of ascending ranges from a point up to an end. -/
def gaps : Nat → Nat → List (Nat × Nat) → List (Nat × Nat)
  | lo, hi, [] => if lo < hi then [(lo, hi)] else []
  | lo, hi, r :: rs => (if lo < r.1 then [(lo, r.1)] else []) ++ gaps (max lo r.2) hi rs

/-- The scratchpad outside enabled KEEP ranges and the accumulator become undefined (R60, R61). KEEP ranges are whole rows, which both bank
mappings keep together. -/
def undefineWork (s : State) (t : Nat) : State :=
  forEach (gaps 0 0x640000 (keepRanges s t)) s (fun s g => undefine s (tileAddr t g.1) (tileAddr t g.2))

/-- Every SRAM of a tile becomes undefined and its check bits are written anew. -/
def undefineTile (s : State) (t : Nat) : State :=
  let s1 := undefine (undefine s (tileAddr t 0) (tileAddr t 0x640000)) (tileAddr t 0x700000) (tileAddr t 0x740000)
  { s1 with ecc := s1.ecc.filter (fun k => !(decide (tileAddr t 0 ≤ k.1 ∧ k.1 < tileAddr t 0x800000))) }

/-! ### Cut writes (R58) -/

/-- The ranges of the own tile that the rows of a started descriptor write. -/
def rowsWritten (s : State) (t : Nat) (d : ShDesc) : List (Nat × Nat) :=
  if d.started then
    (List.range (shRows d.issue)).filterMap (fun r =>
      (ownOffset t (shRowAddr s t d.issue r).2).map (fun off => (off, off + shOut d.issue (shLen d.issue))))
  else []

/-- The rows of its destination that an executing TSTORE writes (R104). -/
def storeWritten (x : TeExec) : List (Nat × Nat) :=
  let d := x.entry.a
  if x.entry.op = .tstore then (List.range d.stored.1).map (fun r => (d.base + r * d.stride, d.base + r * d.stride + d.stored.2)) else []

/-- The ranges of the tile that a transfer in progress is still writing: started shunter descriptors and reads of the NI, broadcast landings, an
executing TSTORE and a scalar store that waits for its bank. -/
def writesInProgress (s : State) (t : Nat) : List (Nat × Nat) :=
  let x := tileOf s t
  (shDescs x).flatMap (rowsWritten s t) ++ x.q.teExec.flatMap storeWritten
    ++ x.q.started.filterMap (fun o => if o.op.kind = .get then some (o.op.loc, o.op.loc + o.op.len) else none)
    ++ (x.coll.landUp ++ x.coll.landDn).map (fun l => (l.op.desc.loc, l.op.desc.loc + l.op.desc.len))
    ++ (match x.core with
      | some a => if a.store.isSome then [(a.addr, a.addr + a.width.bytes)] else []
      | none => [])

/-- The KEEP ranges in which a write is cut are TORN (R58). -/
def tearKeeps (s : State) (t : Nat) : State :=
  let ws := writesInProgress s t
  let torn := (List.range 4).filter (fun n => ws.any (fun w => keepMeets (rd s (keepReg t n)) w.1 (w.2 - w.1)))
  if torn.isEmpty then s else tileEvent (forEach torn s (fun s n => setBit s (keepReg t n) 43)) t 0x10

/-! ### Registers -/

/-- What a tile keeps through a reset or a low-power state (Table 11.7). -/
structure Survival where
  work   : Bool
  keeps  : Bool
  istore : Bool
  config : Bool
  router : Bool
  epochs : Bool
deriving DecidableEq, Repr

/-- The survival columns: tile, cluster, die and partition reset, C2 and C3. -/
def keptByTile : Survival := ⟨false, true, true, true, true, true⟩
/-- Cluster reset. -/
def keptByCluster : Survival := ⟨false, true, true, true, false, true⟩
/-- Die and partition reset. -/
def keptByDie : Survival := ⟨false, true, true, true, false, false⟩
/-- C2. -/
def keptByC2 : Survival := ⟨true, true, true, true, false, true⟩
/-- C3. -/
def keptByC3 : Survival := ⟨false, false, false, false, false, false⟩

/-- The consist-written tile registers, which are retention registers (R305). -/
def isConfig (off : Nat) : Bool :=
  decide (off = 0x40 ∨ (0x100 ≤ off ∧ off < 0x120) ∨ off = 0x208 ∨ off = 0x400 ∨ off = 0x840 ∨ off = 0x848 ∨ off = 0x1200
    ∨ off = 0x1300 ∨ off = 0x1340 ∨ (0x2000 ≤ off ∧ off < 0x4000))

/-- TILE_KEEPn and TILE_BANKSEL. -/
def isKeep (off : Nat) : Bool := decide (0x80 ≤ off ∧ off ≤ 0xA0)

/-- The counters of Table 7.8, which clear only on a read or at a die reset (R204): NI_DISC, MCAST_SPLIT, NI_RESEND and the reducers' PASS,
FLUSH and UNITS. DEDUCED (log 99): that sentence, not the row of tile counters of Table 11.7, rules them. -/
def isNiCount (off : Nat) : Bool :=
  decide ((0x1218 ≤ off ∧ off < 0x1230) ∨ (0x1310 ≤ off ∧ off < 0x1328) ∨ (0x1350 ≤ off ∧ off < 0x1368))

/-- What a tile register keeps; `none` where it returns to its reset value. The lane repair of a link stays in use (R165), ARMED resets (R305),
and self-test results count from the die reset (Table 12.1). -/
def keptWord (v : Survival) (off : Nat) (w : Word) : Option Word :=
  if isKeep off then (if v.keeps then some w else none)
  else if isConfig off then
    (if v.config then some (if 0x2000 ≤ off ∧ off % 32 = 0 then putBits w 43 43 0 else w) else none)
  else if 0x4000 ≤ off ∧ off < 0x5000 then
    (if v.router then some w else if off = 0x4050 ∨ off = 0x4150 then some (putBits w 31 0 0) else none)
  else if off = 0x5000 ∨ isNiCount off = true then (if v.epochs then some w else none)
  else none

/-- Reset the registers of a tile. -/
def resetTileRegs (s : State) (t : Nat) (v : Survival) : State :=
  let lo := tileReg t 0
  { s with tick := s.tick.without (fun k => decide (lo ≤ k ∧ k < lo + 0x8000)), regs := spMap (fun k w =>
      if lo ≤ k ∧ k < lo + 0x8000 then
        (match keptWord v (k - lo) w with
         | some u => if u = regReset k then none else some u
         | none => none)
      else some w) s.regs }

/-! ### One tile -/

/-- A tile's own state after a reset: everything of Tile.reset but what survives. -/
def resetTileState (v : Survival) (fresh : Nat) (x : Tile) : Tile :=
  { Tile.reset with
    vUndef := fresh
    q := { Queues.reset with tag := x.q.tag }
    coll := if v.router then { Coll.reset with slotsUp := x.coll.slotsUp, slotsDn := x.coll.slotsDn, waitUp := x.coll.waitUp, waitDn := x.coll.waitDn }
      else .reset
    scrMode := if v.config then x.scrMode else 0
    invoc := if v.epochs then x.invoc else 0
    epSeq := if v.epochs then x.epSeq else 0
    epLast := if v.epochs then x.epLast else 0
    armed := if v.router then x.armed else []
    missed := x.missed
    allow := x.allow }

/-- Reset one tile (Table 11.7): a cut KEEP write is marked, its start token and its signal node go with what is reset. -/
def resetTile (s0 : State) (t : Nat) (v : Survival) : State :=
  let s := endTokWait s0 t
  let torn := (List.range 4).map (fun n => (n, bit (rd (tearKeeps s t) (keepReg t n)) 43 && !(bit (rd s (keepReg t n)) 43)))
  let s1 := resetTileRegs s t v
  let s2 := updTile { s1 with fresh := s1.fresh + 1 } t (resetTileState v s1.fresh)
  let d := t / 144
  let s3 := setDie s2 d { dieOf s2 d with
    tokens := (dieOf s2 d).tokens.filter (fun i => decide (i ≠ t % 144))
    holdEnd := spDel (dieOf s2 d).holdEnd (t % 144) }
  let s4 := if v.router then s3 else resetRouter (updM s3 (fun m => { m with nodes := spDel m.nodes t })) t
  let s5 := if v.istore then s4 else undefineTile s4 t
  let s6 := if v.istore && !v.work then undefineWork s5 t else s5
  let cut := torn.filter (fun k => k.2)
  if v.keeps && !(cut.isEmpty) then tileEvent (forEach cut s6 (fun s k => setBit s (keepReg t k.1) 43)) t 0x10 else s6

/-! ### DIE_STATE (Table 11.9) -/

/-- The code of a reset scope. -/
def ResetKind.code : ResetKind → Nat
  | .tile => 1
  | .cluster => 2
  | .die => 3
  | .partition => 4

/-- Record a reset in DIE_STATE and DIE_RSTLOG. -/
def logReset (s : State) (d code target : Nat) : State :=
  let s1 := addFld (setFld s (dieStateReg d) 13 11 code) (dieStateReg d) 63 32 1
  wr s1 (healthReg d 0xF008) (BitVec.ofNat 64 (code + target * 256 + gtimeOf s d % 2 ^ 48 * 2 ^ 16))

/-! ### A missed epoch (R300) -/

/-- KIND of EPOCH_LAST for an epoch type (Table 11.4). -/
def lastKind (type : Nat) : Nat := if type = 1 then 1 else if type = 2 then 2 else 3

/-- EPOCH_LAST for an epoch. -/
def lastWord (type step : Nat) : Word := BitVec.ofNat 64 (lastKind type + step % 2 ^ 32 * 2 ^ 32)

/-- Invert each SEL bit of TILE_BANKSEL whose FLIP is 1 (R59). -/
def flipBanks (s : State) (t : Nat) : State :=
  let k := tileReg t 0xA0
  let w := rd s k
  setFld s k 1 0 ((bits w 1 0) ^^^ (bits w 3 2))

/-- A tile records an applied epoch. -/
def recordEpoch (s : State) (t type step : Nat) : State :=
  updTile (wakeT1 s t) t (fun x => { x with epSeq := x.epSeq + 1, epLast := lastWord type step })

/-- Whether others have applied the epoch that a unit missed; where none has, the unit has only reverted it (R298). -/
def Armed.applied (a : Armed) : Bool := decide (a.kind.toNat % 256 ≠ 0)

/-- Bring a tile that missed an epoch to the state the epoch applied: its bank flip for a commit, EPOCH_SEQ and EPOCH_LAST. -/
def resyncTile (s : State) (t : Nat) : State :=
  match (tileOf s t).missed with
  | none => s
  | some a =>
    if !a.applied then updTile s t (fun x => { x with missed := none }) else
    let s1 := if a.kind.toNat = 1 then flipBanks s t else s
    updTile s1 t (fun x => { x with
      missed := none
      epSeq := match partOfDie s (t / 144) with
        | some p => (partOf s p).applied
        | none => x.epSeq + 1
      epLast := lastWord (a.kind.toNat % 256) a.step.toNat })

/-- What a die's own unit missed is applied: commit, skip or gate on a station die, generation and planes on any die. -/
def applyMissed (s : State) (d : Nat) (a : Armed) : State :=
  let p := a.part.val
  let n := d - 40
  let arg := a.kind.toNat / 256
  match a.kind.toNat % 256 with
  | 1 => if 40 ≤ d then commitStation s n p a.step.toNat else s
  | 2 => if 40 ≤ d then skipStation s n p a.step.toNat else s
  | 3 => if 40 ≤ d then releaseHeld (setGate s n p true) n p else s
  | 6 => setFld (setDie s d { dieOf s d with genCur := decide (arg % 2 = 1) }) (ncbReg d 0) 2 2 arg
  | 7 => setFld s (ncbReg d 0) 1 0 arg
  | _ => s

/-- The same for a die's own unit; a station die that missed a commit journals it. -/
def resyncDie (s : State) (d : Nat) : State :=
  match (dieOf s d).epMissed with
  | none => s
  | some a =>
    if !a.applied then setDie s d { dieOf s d with epMissed := none } else
    let s1 := applyMissed s d a
    setDie s1 d { dieOf s1 d with
      epMissed := none
      epSeq := (dieOf s1 d).epSeq + 1
      epLast := lastWord (a.kind.toNat % 256) a.step.toNat }

/-! ### Scopes -/

/-- The tiles of a cluster. -/
def clusterTiles (d c : Nat) : List Nat := (List.range 9).map (fun k => d * 144 + clusterTile c k)

/-- Reset a cluster's tiles. -/
def resetCluster (s : State) (d c : Nat) (v : Survival) : State :=
  forEach (clusterTiles d c) s (fun s t => resyncTile (resetTile s t v) t)

/-- Die counters that a die reset clears (Tables 6.8, 4.5, 10.8, 12.2): NCB_REDIRECT, the TEB counters, CL_PWRc.STRETCH and the health counters;
their lifetime sums stay in the ledger. Bit ranges that hold settings or states stay. -/
def resetDieCounters (s : State) (d : Nat) : State :=
  let x := dieOf s d
  let l := x.life
  let h (off : Nat) : Nat := healthReg d off
  let s0 := setDie s d { x with life := { l with
    ue := l.ue + fld s (h 0x40) 63 48
    ce := l.ce + fld s (h 0x40) 47 0
    crc := l.crc + linkCrc s d
    margin := min l.margin (fld s (h 0x18) 47 32)
    peak := max l.peak (fld s (h 0x10) 7 0) } }
  let s1 := wr (wr (wr (wr (wr s0 (h 0x10) 0) (h 0x40) 0) (h 0x48) 0) (h 0x98) 0) (ncbReg d 0x18) 0
  let s2 := setFld (setFld s1 (h 0x38) 63 32 0) (h 0x18) 47 32 0xFFFF
  let s3 := forEach [0, 1, 2, 3] s2 (fun s e => setFld s (h (0x50 + 8 * e)) 47 0 0)
  let s4 := wr s3 (powerReg d 0x10) 0
  if d < 40 then
    forEach (List.range 16) (forEach [0x10, 0x18, 0x20, 0x28, 0x30] s4 (fun s off => wr s (tebReg d off) 0))
      (fun s c => setFld s (clPwr d c) 63 32 0)
  else s4

/-- A die's own state after a die logic reset; the rotation of start tokens begins at tile 0 again (DESIGN CHOICE, log 101). -/
def resetDieState (x : Die) : Die :=
  { x with tokens := [], holdEnd := [], scope := .openScope, armed := [], epSeq := 0, epLast := 0, tokenLast := 143 }

/-- Reset the logic of a die (R294, Table 11.7). On a station die the requests it holds are gone and its depot cache is empty. -/
def resetDie (s : State) (d : Nat) : State :=
  let s1 := resetDieCounters (setDie s d (resetDieState (dieOf s d))) d
  if d < 40 then
    resyncDie (forEach (List.range 144) s1 (fun s i => resyncTile (resetTile s (d * 144 + i) keptByDie) (d * 144 + i))) d
  else
    let n := d - 40
    resyncDie (updM (updStation s1 n (fun x => { x with lines := [], hold := [], reads := [], outlets := [], outletW := [], arbs := [] }))
      (fun m => { m with nodes := spDel m.nodes (5760 + n) })) d

/-- Reset a partition in absorb mode (R294): every die of it, its outlet records, and its packets in the network. -/
def resetPartition (s : State) (p : Nat) : State :=
  let s1 := dropPackets (dropColls s p) (fun k => decide (k.part.toNat = p))
  let s2 := forEach (diesOfPart s p) s1 (fun s d => logReset (resetDie s d) d 4 0xFF)
  updPart s2 p (fun x => { x with applied := 0 })

/-! ### Closing (R295) -/

/-- A tile has nothing left to be answered or completed. -/
def tileQuiet (s : State) (t : Nat) : Bool := !(tileBusy (tileOf s t)) && (tileOf s t).heldOut.isEmpty

/-- Whether a station die has nothing left to answer. -/
def stationQuiet (s : State) (n : Nat) : Bool := (stationOf s n).reads.isEmpty && (stationOf s n).hold.isEmpty

/-- RST_DRAIN_MAX in ns. -/
def drainMax : Nat := 1000000

/-- A reset of a unit of a RUNNING partition first aborts its step (R294). -/
def abortForReset (s : State) (d : Nat) : State :=
  match partOfDie s d with
  | some p => abortStep s p
  | none => s

/-- Set DIE_STATE.DRAIN_TO where the drain ran out. -/
def drainTimeout (s : State) (d : Nat) (out : Bool) : State := if out then setBit s (dieStateReg d) 15 else s

/-- A closing tile closes, is reset and reopens once it is quiet or its drain has run out. -/
def closeTile (s : State) (t : Nat) : State :=
  match (tileOf s t).scope with
  | .closing .tile a =>
    let out := decide (a + drainMax ≤ s.now)
    if tileQuiet s t then logReset (resyncTile (resetTile s t keptByTile) t) (t / 144) 1 (t % 144)
    else if out then logReset (resyncTile (resetTile (drainTimeout s (t / 144) true) t keptByTile) t) (t / 144) 1 (t % 144)
    else s
  | _ => s

/-- A closing cluster. -/
def closeCluster (s : State) (d c : Nat) : State :=
  match (tileOf s (d * 144 + clusterTile c 0)).scope with
  | .closing .cluster a =>
    let quiet := (clusterTiles d c).all (tileQuiet s)
    let out := decide (a + drainMax ≤ s.now)
    if quiet || out then logReset (resetCluster (drainTimeout s d (!quiet)) d c keptByCluster) d 2 c else s
  | _ => s

/-- A closing die. -/
def closeDie (s : State) (d : Nat) : State :=
  match (dieOf s d).scope with
  | .closing .die a =>
    let quiet := if d < 40 then (List.range 144).all (fun i => tileQuiet s (d * 144 + i)) else stationQuiet s (d - 40)
    let out := decide (a + drainMax ≤ s.now)
    if quiet || out then logReset (resetDie (drainTimeout s d (!quiet)) d) d 3 0xFF else s
  | _ => s

/-- A tile enters closing for a reset (drain mode). -/
def drainTile (s : State) (t : Nat) : State :=
  if dieClosed s (t / 144) then s
  else closeTile (updTile (abortForReset s (t / 144)) t (fun x => { x with scope := .closing .tile s.now })) t

/-- A cluster enters closing. -/
def drainCluster (s : State) (d c : Nat) : State :=
  if dieClosed s d then s
  else closeCluster (forEach (clusterTiles d c) (abortForReset s d) (fun s t =>
    updTile s t (fun x => { x with scope := .closing .cluster s.now }))) d c

/-- A die enters closing. -/
def drainDie (s : State) (d : Nat) : State :=
  if dieClosed s d then s
  else
    let s1 := abortForReset s d
    closeDie (setDie s1 d { dieOf s1 d with scope := .closing .die s.now }) d

/-! ### Regions (R269, R270, R302, Table 11.6) -/

/-- PWR_STAT for a number of active phases (R264, Table 10.2). -/
def setPhases (s : State) (d active : Nat) : State :=
  let k := powerReg d 0
  let ilim := if d < 40 then min 900 (active * 75 / 2) else min 360 (active * 30)
  setFld (setFld s k 4 0 active) k 19 10 ilim

/-- Phases of a die that are not disabled. -/
def activePhases (s : State) (d : Nat) : Nat :=
  ((List.range (if d < 40 then 24 else 12)).filter (fun i => !(bit (rd s (powerReg d 0x20)) i))).length

/-- GEAR_MAX for active compute phases (Table 10.2). -/
def gearMaxOf (active : Nat) : Nat := if 22 ≤ active then 0 else 22 - active

/-- Register keys that belong to a die's region and are lost in D3: its tiles', TEB, NCB but the route tables, which the signal box rewrites
(Table 11.7), health and power but DIE_STATE, DIE_RSTLOG and the phase log. A station die's PSB and what S0 holds for the module stay. -/
def lostInD3 (d key : Nat) : Bool :=
  let off := if d < 40 then key % 2 ^ 23 else key % 2 ^ 31
  let isTile := decide (d < 40 ∧ key / 2 ^ 23 % 256 < 144)
  decide (key / 2 ^ 52 ≤ 1) && decide (keyDie key = d) && (decide (key / 2 ^ 52 = 0) == decide (d < 40))
    && (isTile || (decide (d < 40 ∧ off < 0x100) || decide (0x1000 ≤ off ∧ off < 0x1100)
        || decide (0x10000 ≤ off ∧ off < 0x1F000) || decide (0x20000 ≤ off ∧ off < 0x20800 ∧ off ≠ 0x20020 ∧ off ≠ 0x20028)))

/-- Switch a die's region off: D3. Its crossings are unusable, and a station die's write buffer is programmed first (log 90). -/
def dieOff (s : State) (d : Nat) : State :=
  let x := dieOf s d
  let l := x.life
  let s0 := if 40 ≤ d then drainBuffer s (d - 40) else s
  let s1 := markAll s0 d false
  let s2 := { s1 with
    tick := s1.tick.without (lostInD3 d)
    regs := s1.regs.filter (fun p => !(lostInD3 d p.1))
    tiles := s1.tiles.filter (fun p => decide (p.1 / 144 ≠ d))
    ecc := s1.ecc.filter (fun p => !(decide (d < 40 ∧ p.1 / 2 ^ 31 = d))) }
  let s3 := if d < 40 then undefine s2 (d * 2 ^ 31) ((d + 1) * 2 ^ 31) else
    updStation s2 (d - 40) (fun x => { x with lines := [], hold := [], reads := [], outlets := [], outletW := [], arbs := [] })
  let s4 := setDie s3 d { Die.reset with
    failed := x.failed, offset := x.offset, slew := x.slew, slewFrom := x.slewFrom, reach := x.reach, missed := x.missed, readAt := x.readAt, genCur := x.genCur, stopped := x.stopped
    life := { l with
      powered := l.powered + (match l.onAt with | some a => s.now - a | none => 0)
      onAt := none
      ue := l.ue + fld s (healthReg d 0x40) 63 48
      ce := l.ce + fld s (healthReg d 0x40) 47 0
      crc := l.crc + linkCrc s d } }
  let s5 := updM s4 (fun m => { m with nodes := m.nodes.filter (fun p =>
    !(if d < 40 then decide (p.1 / 144 = d ∧ p.1 < 5760) else decide (p.1 = 5760 + (d - 40)))) })
  setFld s5 (dieStateReg d) 1 0 3

/-- Switch a die's region on (R270): its regulator, its gear limit, and the planes and generation of the module. -/
def regionOn (s : State) (d : Nat) : State :=
  let x := dieOf s d
  let l := x.life
  let s1 := setDie s d { x with region := true, life := { l with onAt := some s.now }, genCur := (dieOf s (boxDie s)).genCur }
  let s2 := setFld (setPhases (setFld s1 (dieStateReg d) 1 0 0) d (activePhases s1 d)) (powerReg d 0) 23 23 1
  let s3 := if d < 40 then setFld s2 (powerReg d 0) 22 20 (gearMaxOf (activePhases s2 d)) else s2
  wr s3 (ncbReg d 0) (if d = boxDie s then rd s3 (ncbReg d 0) else rd s3 (ncbReg (boxDie s) 0))

/-- The crossings of an edge that join two powered dies are usable on a plane. -/
def crossingsUp (s : State) (d e : Nat) (pl : Plane) : State :=
  forEach (crossingsOf d e) s (fun s c => match exitDie c.1 (c.2 + 1) 0 with
    | some n => if (dieOf s c.1).region && (dieOf s n).region then setXing (setXing s c.1 c.2 pl true) n ((c.2 + 2) % 4) pl true else s
    | none => s)

/-- Bring a die out of D3 (Table 11.6): region, lane repair, TSYNC, firmware and self-test. -/
def dieOn (s : State) (d : Nat) : State :=
  let s1 := forEach [0, 1, 2, 3] (regionOn s d) (fun s e => crossingsUp (crossingsUp s d e .up) d e .down)
  if d < 40 then forEach (goodTiles s1 d) s1 (fun s i => setFld s (tileReg (d * 144 + i) 0x5000) 1 0 3) else s1

/-! ### Clusters (R269, R303) -/

/-- Enter C2 or C3 with a cluster: it closes first, and what its column of Table 11.7 does not keep is lost. -/
def clusterOff (s : State) (d c state : Nat) : State :=
  let s1 := forEach (clusterTiles d c) s (fun s t => resetTile s t (if state = 2 then keptByC2 else keptByC3))
  setDie s1 d { dieOf s1 d with cstate := spSet (dieOf s1 d).cstate 0 c state }

/-- A cluster runs again; from C3 its SRAM content is undefined. -/
def clusterOn (s : State) (d c : Nat) : State :=
  setDie s d { dieOf s d with cstate := spDel (dieOf s d).cstate c, idleAt := s.now }

/-- Wake every cluster of a partition that is in C2 (Table 11.6). -/
def wakePart (s : State) (p : Nat) : State :=
  forEach (diesOfPart s p) s (fun s d => forEach (List.range 16) s (fun s c =>
    if spGet (dieOf s d).cstate 0 c = 2 then clusterOn s d c else s))

/-! ### Meanings -/

/-- TILE_RESET (R294): drain mode. -/
def execTileReset (t : TileId) (s : State) : Host.Outcome State Fault Refusal := .next (drainTile s t.val)

/-- CLUSTER_RESET (R294): drain mode. -/
def execClusterReset (d : ComputeDie) (cluster : Fin 16) (s : State) : Host.Outcome State Fault Refusal :=
  .next (drainCluster s d.val cluster.val)

/-- DIE_LOGIC_RESET (R294): drain mode. -/
def execDieLogicReset (d : DieId) (s : State) : Host.Outcome State Fault Refusal := .next (drainDie s d.val)

/-- PARTITION_RESET (R294): absorb mode, at once; the step it runs ends aborted. -/
def execPartitionReset (part : PartId) (s : State) : Host.Outcome State Fault Refusal :=
  .next (
    let s1 := resetPartition (abortStep s part.val) part.val
    if (partOf s1 part.val).aborting then finishAbort s1 part.val else s1)

/-- Since when a scope of a die has been closing, and whether it is quiet. -/
def closingScopes (s : State) (d : Nat) : List (Nat × Bool) :=
  (match (dieOf s d).scope with
   | .closing _ a => [(a, if d < 40 then (List.range 144).all (fun i => tileQuiet s (d * 144 + i)) else stationQuiet s (d - 40))]
   | _ => [])
  ++ (if d < 40 then s.tiles.filterMap (fun x => if x.1 / 144 = d then (match x.2.scope with
      | .closing .cluster a => some (a, (clusterTiles d (clusterOf (x.1 % 144))).all (tileQuiet s))
      | .closing _ a => some (a, tileQuiet s x.1)
      | _ => none) else none) else [])

/-- Let time pass until the drain of some closing scope of a die is over. -/
def untilDrained (s : State) (d : Nat) : State :=
  let l := closingScopes s d
  if l.any (fun x => x.2) then s else waitEarliest s (l.map (fun x => x.1 + drainMax))

/-- SCOPE_DRAIN_END (R295): the closing scopes of a die whose drain is over are reset. -/
def execScopeDrainEnd (d : DieId) (s0 : State) : Host.Outcome State Fault Refusal :=
  .next (
    let s := untilDrained s0 d.val
    let s1 := if d.val < 40 then
        forEach (List.range 16) (forEach (List.range 144) s (fun s i => closeTile s (d.val * 144 + i))) (fun s c => closeCluster s d.val c)
      else s
    closeDie s1 d.val)

/-- ABORT_QUIET_POLL (R296): at a result with BUSY clear the abort is quiet; else the next poll comes 100 µs later, and still busy after
RST_DRAIN_MAX, the partition is reset. -/
def execAbortQuietPoll (part : PartId) (s : State) : Host.Outcome State Fault Refusal :=
  .next (
    let p := part.val
    let x := partOf s p
    if !x.aborting then s
    else if !(partBusy s p) then finishAbort s p
    else
      let s1 := waitUntil s (s.now + 100000)
      if x.abortAt + drainMax ≤ s1.now then
        finishAbort (resetPartition (forEach (diesOfPart s1 p) s1 (fun s d => drainTimeout s d true)) p) p
      else s1)

end Sys2Proof.Machine
end

