-- ==== Sys2Proof/Machine/Epochs.lean ====
section
/-!
DEFINITION. Mode epochs: arming, the answers of the units, and the signal box's decision (R172, R297, R298, R300).

What the spec leaves open here: log entries 42 and 43.
-/

namespace Sys2Proof.Machine

/-! ### Epochs and their units (Table 11.4) -/

/-- The type of an epoch, word 2 bits [7:0] of its ARM. -/
def Epoch.type (e : Epoch) : Nat := e.kind.toNat % 256

/-- The argument of an epoch, word 2 bits [31:8]. -/
def Epoch.arg (e : Epoch) : Nat := e.kind.toNat / 256

/-- Whether an epoch type has module scope. -/
def moduleScope (type : Nat) : Bool := decide (6 ≤ type)

/-- The station dies whose region is on. -/
def stationsOn (s : State) : List Nat := (List.range 8).filter (fun n => (dieOf s (40 + n)).region)

/-- A tile as a unit. -/
def tileUnit (t : Nat) : EpochUnit := .tile (Fin.ofNat 5760 t)

/-- A die as a unit. -/
def dieUnit (d : Nat) : EpochUnit := .die (Fin.ofNat 48 d)

/-- The units of an epoch of a type (Table 11.4); a die without power is none. -/
def epochUnits (s : State) (p type : Nat) : List EpochUnit :=
  let tiles := (tilesOfPart s p).map tileUnit
  let stations := (stationsOn s).map (fun n => dieUnit (40 + n))
  if type = 1 ∨ type = 2 then tiles ++ stations
  else if type = 3 then stations
  else if type = 4 ∨ type = 5 then tiles ++ stations ++ (diesOfPart s p).map dieUnit
  else ((List.range 48).filter (fun d => (dieOf s d).region)).map dieUnit

/-- The die of a unit. -/
def unitDie : EpochUnit → Nat
  | .tile t => t.val / 144
  | .die d => d.val

/-- What a unit has armed. -/
def unitArmed (s : State) : EpochUnit → List Armed
  | .tile t => (tileOf s t.val).armed
  | .die d => (dieOf s d.val).armed

/-- Replace what a unit has armed. -/
def setArmedOf (s : State) (u : EpochUnit) (l : List Armed) : State :=
  match u with
  | .tile t => updTile s t.val (fun x => { x with armed := l })
  | .die d => setDie s d.val { dieOf s d.val with armed := l }

/-! ### Arming (R297, R298, R300) -/

/-- Whether the signal box may arm an epoch now: one per partition at a time, and a module-scope epoch while no other is armed. -/
def mayArm (s : State) (e : Epoch) : Bool :=
  let on := s.m.epochs.filter (fun o => o.armedAt.isSome)
  if moduleScope e.type then on.isEmpty else !(on.any (fun o => moduleScope o.type || decide (o.part = e.part)))

/-- The next SEQ of a partition, or of the module for a module-scope epoch. -/
def nextSeq (s : State) (e : Epoch) : BitVec 16 := (if moduleScope e.type then s.m.modSeq else (partOf s e.part.val).epSeq) + 1

/-- Arm the epoch in a place of the list: a new SEQ, TLIM 30 and every unit still to answer. -/
def armAt (s : State) (i : Nat) (e : Epoch) : State :=
  let q := nextSeq s e
  let s1 := if moduleScope e.type then updM s (fun m => { m with modSeq := q }) else updPart s e.part.val (fun x => { x with epSeq := q })
  let e1 := { e with
    id := BitVec.ofNat 32 (q.toNat + 30 * 2 ^ 16)
    armedAt := some s.now
    attempts := e.attempts + 1
    silent := epochUnits s e.part.val e.type
    apply := none }
  updM s1 (fun m => { m with epochs := m.epochs.set i e1 })

/-- Arm every waiting epoch that may be armed, in the order in which they were asked for. -/
def pumpEpochs (s : State) : State :=
  forEach (List.range s.m.epochs.length) s (fun s i => match s.m.epochs[i]? with
    | some e => if e.armedAt.isNone && mayArm s e then armAt s i e else s
    | none => s)

/-- The signal box arms an epoch, or lets it wait its turn. -/
def armEpoch (s : State) (p type arg step : Nat) (o : EpochOrigin) : State :=
  let e : Epoch := ⟨Fin.ofNat 8 p, 0, BitVec.ofNat 32 (type + arg * 256), BitVec.ofNat 32 step, o, none, 0, [], none⟩
  pumpEpochs (updM s (fun m => { m with epochs := m.epochs ++ [e] }))

/-- Take an epoch off the list. -/
def dropEpoch (s : State) (e : Epoch) : State :=
  updM s (fun m => { m with epochs := m.epochs.filter (fun o => decide (o ≠ e)) })

/-- The epoch that a message of a partition concerns: the partition's armed one, else the module's. -/
def armedEpoch (s : State) (p : Nat) : Option Epoch :=
  ((s.m.epochs.find? (fun e => e.armedAt.isSome && !(moduleScope e.type) && decide (e.part.val = p))).orElse
    (fun _ => s.m.epochs.find? (fun e => e.armedAt.isSome && moduleScope e.type)))

/-- Change the epochs that a message with an ID concerns. -/
def updEpochs (s : State) (part : PartId) (id : Lane) (f : Epoch → Epoch) : State :=
  updM s (fun m => { m with epochs := m.epochs.map (fun e =>
    if e.armedAt.isSome ∧ e.id = id ∧ (moduleScope e.type ∨ e.part = part) then f e else e) })

/-! ### A unit's side (R298) -/

/-- Whether an armed epoch of a unit is the one that a message names. -/
def Armed.isFor (a : Armed) (part : PartId) (id : Lane) : Bool :=
  decide (a.id = id ∧ (a.part = part ∨ moduleScope (a.kind.toNat % 256)))

/-- A unit receives an ARM: it holds the epoch and answers READY. A repeat of one it holds, a reserved type and an ARM at a unit without power
change nothing. -/
def unitArm (s : State) (u : EpochUnit) (part : PartId) (id kind step : Lane) : State :=
  let l := unitArmed s u
  let type := kind.toNat % 256
  if (dieOf s (unitDie u)).region = false ∨ l.any (fun a => a.isFor part id) ∨ type = 0 ∨ 8 ≤ type then s
  else
    updEpochs (setArmedOf s u (l ++ [⟨part, id, kind, step, s.now, none⟩])) part id
      (fun e => { e with silent := e.silent.filter (fun v => decide (v ≠ u)) })

/-- A unit receives a COMMIT for an epoch it holds, while it can still apply it. -/
def unitCommit (s : State) (u : EpochUnit) (part : PartId) (id : Lane) (T : Nat) : State :=
  if s.now ≤ T then
    setArmedOf s u ((unitArmed s u).map (fun a => if a.isFor part id ∧ a.apply = none then { a with apply := some T } else a))
  else s

/-- A unit receives an ABORT. -/
def unitAbort (s : State) (u : EpochUnit) (part : PartId) (id : Lane) : State :=
  setArmedOf s u ((unitArmed s u).filter (fun a => !(a.isFor part id && a.apply.isNone)))

/-- The instant of ARM + TLIM + 20 µs. -/
def Armed.lastChance (a : Armed) : Nat := a.rcvd + (a.id.toNat / 2 ^ 16 % 256) * 1000 + 20000

/-- Whether a held epoch has run out: neither COMMIT nor ABORT at ARM + TLIM + 20 µs. -/
def Armed.ranOut (a : Armed) (t : Nat) : Bool := a.apply.isNone && decide (a.lastChance ≤ t)

/-- Mark a unit that has reverted an epoch, so that the signal box resets it; one that missed it at T keeps that mark (R298). -/
def markReverted (s : State) (u : EpochUnit) (a : Armed) : State :=
  let mark (m : Option Armed) : Option Armed := some (m.getD { a with kind := 0 })
  match u with
  | .tile t => updTile s t.val (fun x => { x with missed := mark x.missed })
  | .die d => setDie s d.val { dieOf s d.val with epMissed := mark (dieOf s d.val).epMissed }

/-- A unit reverts what has run out: EP_MISS and a REPORT. -/
def unitRevert (s0 : State) (u : EpochUnit) (part : PartId) : State :=
  let mine (a : Armed) : Bool := decide (a.part = part) || moduleScope (a.kind.toNat % 256)
  let l := unitArmed s0 u
  let s := waitEarliest s0 ((l.filter (fun a => mine a && a.apply.isNone)).map Armed.lastChance)
  match l.find? (fun a => mine a && a.ranOut s.now) with
  | none => s
  | some a =>
    let s1 := markReverted (setArmedOf s u (l.filter (fun a => !(mine a && a.ranOut s.now)))) u a
    let s2 := setBit s1 (dieStateReg (unitDie u)) 14
    match u with
    | .tile t => sendReport s2 t.val part.val t.val .epMiss 0
    | .die d => if 40 ≤ d.val then sendReport s2 (5760 + (d.val - 40)) part.val d.val .epMiss 0
                else sendReport s2 (d.val * 144) part.val d.val .epMiss 0

/-! ### The combined READY (R298) -/

/-- The combined READY at the signal box: in time and from every unit, it commits the epoch with T = 20 µs from now. -/
def combinedReady (s : State) (p : Nat) : State :=
  match armedEpoch s p with
  | none => s
  | some e =>
    let at_ := e.armedAt.getD 0
    if e.apply.isNone && e.silent.isEmpty && decide (s.now ≤ at_ + 10000) then
      updM s (fun m => { m with epochs := m.epochs.map (fun o => if o = e then { e with apply := some (s.now + 20000) } else o) })
    else s

/-! ### Meanings -/

/-- EP_ARM (R297, R298). -/
def execEpArm (u : EpochUnit) (part : PartId) (id kind step : Lane) (s : State) : Host.Outcome State Fault Refusal :=
  .next (unitArm s u part id kind step)

/-- EP_READY (R172, R298). -/
def execEpReady (part : PartId) (s : State) : Host.Outcome State Fault Refusal := .next (combinedReady s part.val)

/-- EP_COMMIT (R298). -/
def execEpCommit (u : EpochUnit) (part : PartId) (id : Lane) (at_ : Word) (s : State) : Host.Outcome State Fault Refusal :=
  .next (unitCommit s u part id at_.toNat)

/-- EP_ABORT (R298). -/
def execEpAbort (u : EpochUnit) (part : PartId) (id : Lane) (s : State) : Host.Outcome State Fault Refusal := .next (unitAbort s u part id)

/-- EPOCH_MISS_REVERT (R298). -/
def execEpochMissRevert (u : EpochUnit) (part : PartId) (s : State) : Host.Outcome State Fault Refusal := .next (unitRevert s u part)

end Sys2Proof.Machine
end

