-- ==== Sys2Proof/Machine/Fences.lean ====
section
/-!
DEFINITION. Fences of tiles and dies (R290, R306, R307).

What the spec leaves open here: log entries 32, 44, 47 and 75.
-/

namespace Sys2Proof.Machine

/-! ### Tiles (R306) -/

/-- A partition stops (R166, R253, R306): STOPPED, its hosts are told, and a step that runs is aborted. -/
def stopPart (s : State) (p detail : Nat) : State :=
  partEvent (setPartState (abortStep s p) p 5) p 0x07 detail

/-- Fence a tile in the field: in the ledger, out of the defect map, its core stopped; its partition stops. The event's detail is a
free value, since Table 9.10 names a resource there and a fence has none. -/
def fenceTile (s : State) (t reason : Nat) : State :=
  if s.m.fencedTiles.contains t ∨ s.m.fuses.fused.contains t then s
  else
    let s1 := match partOfDie s (t / 144) with
      | some p =>
        let f := takeFree s
        if partState s p = 0 then f.1 else stopPart f.1 p (f.2.toNat % 2 ^ 32)
      | none => s
    let s2 := updTile (endTokWait s1 t) t abortedTile
    let s3 := updM s2 (fun m => { m with fencedTiles := m.fencedTiles ++ [t] })
    alarm (ledger s3 (t / 144) 4 [t + reason * 2 ^ 13]) 0x09 none t

/-! ### Dies (R307) -/

/-- Revalidate the installed set (R161): the partitions that lose pairs. -/
def lostParts (s : State) : List Nat := ((lostPairs s).filterMap (pairPart s)).eraseDups

/-- A load that failed: the partition is reset and left EMPTY, without consist and Mere admission (R257, R299, Table 11.3). -/
def failLoad (s : State) (p : Nat) (c : Option HostCmd) (die : Nat) : State :=
  let s1 := updPart (resetPartition s p) p (fun x => { x with consist := none, locked := false })
  let s2 := wr (setFld (setPartState s1 p 1) (partReg p 0x10) 63 32 0) (partReg p 0x18) 0
  failIf (setBudget s2) c 0x0F die

/-- The load that a partition waits for: its command, if it is still to be completed. -/
def loading (s : State) (p : Nat) : Option HostCmd :=
  (s.m.epochs.findSome? (fun e => match e.origin with
    | .load q c => if q.val = p then some c else none
    | _ => none)).getD none

/-- The epochs without that of a partition's load. -/
def dropLoad (s : State) (p : Nat) : State :=
  updM s (fun m => { m with epochs := m.epochs.filter (fun e => match e.origin with
    | .load q _ => decide (q.val ≠ p)
    | _ => true) })

/-- A partition enters FAILOVER over a fenced die: DIE_FENCED tells whether its consist has a reserve entry for it. A load in progress fails
(R257). -/
def failover (s : State) (p d : Nat) : State :=
  let reserve := match (partOf s p).consist with
    | some c => c.reserve.any (fun r => decide (r.die.toNat = d))
    | none => false
  let s1 := if partState s p = 2 then failLoad (dropLoad s p) p (loading s p) d else setPartState (abortStep s p) p 6
  partEvent s1 p 0x04 (d + b2n reserve * 64)

/-- Fence a die (R307): its step is aborted, its region goes off, its crossings are unusable, the ledger and the alarm record it, the
installed set is validated again under a ROUTE_GEN epoch, and the partitions concerned enter FAILOVER. -/
def fenceDie (s : State) (d reason : Nat) : State :=
  if s.m.fencedDies.contains d then s
  else
    let own := partOfDie s d
    let s1 := match own with
      | some p => abortStep s p
      | none => s
    let s2 := dieOff s1 d
    let s3 := setFld (setBit s2 (dieStateReg d) 2) (dieStateReg d) 6 3 reason
    let s4 := updM s3 (fun m => { m with fencedDies := m.fencedDies ++ [d] })
    let s5 := alarm (ledger s4 d 5 [reason]) 0x08 none (d + reason * 64)
    let g := boxGen s5
    let s6 := recordCheck s5 (validate s5 g)
    let ps := (own.toList ++ lostParts s6).eraseDups
    armEpoch (forEach ps s6 (fun s p => failover s p d)) 0 6 g 0 .revalidate

/-! ### Meanings -/

/-- TILE_FENCE (R306). -/
def execTileFence (t : TileId) (reason : BitVec 3) (s : State) : Host.Outcome State Fault Refusal := .next (fenceTile s t.val reason.toNat)

/-- DIE_FENCE (R307). -/
def execDieFence (d : DieId) (reason : BitVec 4) (s : State) : Host.Outcome State Fault Refusal := .next (fenceDie s d.val reason.toNat)

end Sys2Proof.Machine
end

