-- ==== Sys2Proof/Machine/EpochFlow.lean ====
section
/-!
DEFINITION. What epochs do at their apply time, what follows three aborted attempts, and the step guard (R38, R59, R60, R108, R123, R160, R166,
R179, R215, R222, R226, R228, R253, R299 to R301, R308, Tables 8.9, 11.4 and 11.11).

What the spec leaves open here: log entries 3, 43, 44, 45, 46, 47, 48, 65 and 75.
-/

namespace Sys2Proof.Machine

/-! ### Applying an epoch (R298) -/

/-- The committed epoch of a type whose apply time has come; module-scope types belong to no partition. -/
def dueEpoch (s : State) (p type : Nat) : Option Epoch :=
  s.m.epochs.find? (fun e => decide (e.type = type) && (moduleScope type || decide (e.part.val = p)) && (match e.apply with
    | some T => decide (T ≤ s.now)
    | none => false))

/-- Let time pass up to the apply time of a committed epoch. -/
def untilApply (s : State) (p type : Nat) : State :=
  waitEarliest s (s.m.epochs.filterMap (fun e => if decide (e.type = type) && (moduleScope type || decide (e.part.val = p)) then e.apply else none))

/-- Whether a unit holds the COMMIT of an epoch. -/
def holdsCommit (s : State) (u : EpochUnit) (e : Epoch) : Bool :=
  (unitArmed s u).any (fun a => a.isFor e.part e.id && a.apply.isSome)

/-- What a unit that missed an epoch will be brought to (R300). -/
def missOf (s : State) (e : Epoch) : Armed := ⟨e.part, e.id, e.kind, e.step, s.now, e.apply⟩

/-- Apply an epoch on a tile: its effect and EPOCH_SEQ and EPOCH_LAST; a tile without the COMMIT misses it. -/
def applyTile (s : State) (e : Epoch) (act : State → State) (t : Nat) : State :=
  if holdsCommit s (tileUnit t) e then
    updTile (recordEpoch (act s) t e.type e.step.toNat) t (fun x => { x with armed := x.armed.filter (fun a => !(a.isFor e.part e.id)) })
  else if (dieOf s (t / 144)).region then updTile s t (fun x => { x with missed := some (missOf s e) })
  else s

/-- Apply an epoch on a station die or the blocks of a compute die. -/
def applyDie (s : State) (e : Epoch) (act : State → State) (d : Nat) : State :=
  if holdsCommit s (dieUnit d) e then
    let s1 := act s
    let x := dieOf s1 d
    setDie s1 d { x with
      armed := x.armed.filter (fun a => !(a.isFor e.part e.id))
      epSeq := x.epSeq + 1
      epLast := lastWord e.type e.step.toNat }
  else if (dieOf s d).region then setDie s d { dieOf s d with epMissed := some (missOf s e) }
  else s

/-- The epoch has been applied: it leaves the list, the partitions it concerns count it, and the next one may be armed. -/
def appliedEpoch (s : State) (e : Epoch) : State :=
  let ps := if moduleScope e.type then allParts s else if e.type = 3 then [] else [e.part.val]
  pumpEpochs (dropEpoch (forEach ps s (fun s p => updPart s p (fun x => { x with applied := x.applied + 1 }))) e)

/-! ### The Peat gate (R215) -/

/-- Whether the update of a step is complete on a station die. -/
def updateDone (s : State) (n p k : Nat) : Bool :=
  (stationOf s n).updates.all (fun j => decide (j.part.val ≠ p ∨ k < j.step))

/-- Arm GATE_OPEN for the running step once the update of the step 1 + L before it is complete on every station die (R31, R215). -/
def askGate (s : State) (p : Nat) : State :=
  let x := partOf s p
  let st := stationsOn s
  let ready := st.all (fun n => updateDone s n p (x.committed - lagOf s n p))
  let shut := st.any (fun n => !(gateOpen s n p))
  let asked := s.m.epochs.any (fun e => decide (e.type = 3 ∧ e.part.val = p))
  if x.invoke.isSome ∧ ready ∧ shut ∧ !asked then armEpoch s p 3 0 x.step .lagged else s

/-! ### START and END (R38, R108, R123, R179, R301, R308) -/

/-- The contexts at the start of an invocation: an enabled one is READY at its ENTRY with its registers 0, every other is IDLE. -/
def startCtx (s : State) (t : Nat) (c : CtxId) (y : Ctx) : Ctx :=
  let w := rd s (tileReg t (0x100 + 8 * c.val))
  if bit w 32 then ⟨.ready, (bits w 12 0 : Nat), 0, [], [], [], none⟩ else { y with st := .idle, fcode := 0, wait := none }

/-- The enabled contexts of a tile. -/
def enabledCtxs (s : State) (t : Nat) : List CtxId :=
  ([0, 1, 2, 3] : List CtxId).filter (fun c => bit (rd s (tileReg t (0x100 + 8 * c.val))) 32)

/-- Start an invocation on a tile: its contexts, its counters and its flags begin anew (R38, R97, R179). -/
def startTile (s : State) (t : Nat) : State :=
  let en := enabledCtxs s t
  let s1 := forEach ([0, 1, 2, 3] : List CtxId) s (fun s c => updCtx s t c (startCtx s t c))
  let s2 := match en with
    | c :: _ => updCtx s1 t c (fun y => { y with st := .running })
    | [] => s1
  let mode := BitVec.ofNat 5 (fld s (tileReg t 0x40) 4 0)
  let s3 := updTile { s2 with fresh := s2.fresh + 1 } t (fun x => { x with
    sel := en.headD 0
    q := { x.q with fire := [], halted := 0 }
    vreg := []
    vUndef := s2.fresh
    scrMode := mode
    running := !(en.isEmpty)
    stallAt := s.vco
    invStart := s.vco
    issuedAt := s.vco
    cycles := 0
    cause := .of 0
    t1 := false
    invoc := x.invoc + 1 })
  let s4 := forEach (List.range 64) (undefineWork s3 t) (fun s k => setFld s (cntReg t k) 31 0 0)
  let s5 := forEach [0x800, 0x808, 0x810, 0x818, 0x820] (if bit (rd s4 (tileReg t 0x848)) 0 then loadStreams s4 t else s4)
    (fun s k => wr s (tileReg t k) 0)
  initArm s5 t

/-- End an invocation on a tile: the records of standing broadcasts go (R194). -/
def endTile (s : State) (t : Nat) : State :=
  updColl (updTile (charge s t) t (fun x => { x with running := false })) t (fun k => { k with
    landUp := k.landUp.filter (fun l => !l.op.desc.standing)
    landDn := k.landDn.filter (fun l => !l.op.desc.standing)
    roots := k.roots.filter (fun r => !r.op.desc.standing) })

/-- START at T: the invocation starts at step n + 1; with RESUME the interrupted step's versions go first (R308). RWL fields lock. -/
def startEpoch (s : State) (p : Nat) : State :=
  match dueEpoch s p 4 with
  | none => s
  | some e =>
    let x := partOf s p
    let step := x.committed + 1
    let s1 := updPart s p (fun x => { x with step := step, locked := true })
    let s2 := forEach (tilesOfPart s p) s1 (fun s t => applyTile s e (fun s => startTile s t) t)
    let s3 := forEach (stationsOn s) s2 (fun s n =>
      applyDie s e (fun s => if e.arg % 2 = 1 then freeStep s n p step else s) (40 + n))
    let s4 := forEach (diesOfPart s p) s3 (fun s d =>
      applyDie s e (fun s => setDie s d { dieOf s d with thresh := fld s (tebReg d 0) 8 0 }) d)
    askedAbort (askGate (appliedEpoch s4 e) p) p

/-- END at T: INVOKE completes with the committed step, and the partition is IDLE with its RWL fields open. -/
def endEpoch (s : State) (p : Nat) : State :=
  match dueEpoch s p 5 with
  | none => s
  | some e =>
    let x := partOf s p
    let s1 := forEach (tilesOfPart s p) s (fun s t => applyTile s e (fun s => endTile s t) t)
    let s2 := forEach (stationsOn s) s1 (fun s n => applyDie s e id (40 + n))
    let s3 := forEach (diesOfPart s p) s2 (fun s d => applyDie s e id d)
    let s4 := updPart (appliedEpoch s3 e) p (fun x => { x with locked := false, invoke := none, decided := none, abortAsked := false })
    let s5 := if partState s4 p = 4 then setPartState s4 p 3 else s4
    finish s5 x.invoker 0 0 (x.committed % 2 ^ 32)

/-! ### Commit and skip (Table 8.9) -/

/-- A stop of R253 takes effect at the step boundary. -/
def boundaryStop (s : State) (p : Nat) : State :=
  match (partOf s p).stopAt with
  | some r => endAdmission (stopPart (updPart s p (fun x => { x with stopAt := none })) p r) p
  | none => s

/-- STEP_COMMIT at T. -/
def stepCommit (s : State) (p : Nat) : State :=
  match dueEpoch s p 1 with
  | none => s
  | some e =>
    let step := e.step.toNat
    let s1 := forEach (tilesOfPart s p) s (fun s t => applyTile s e (fun s => flipBanks s t) t)
    let s2 := forEach (stationsOn s) s1 (fun s n => applyDie s e (fun s => commitStation s n p step) (40 + n))
    let s3 := updPart s2 p (fun x => { x with
      committed := step
      step := step + 1
      decided := none
      resSaved := match x.consist with
        | some c => decide (c.resident = 0)
        | none => true })
    forEach (tilesOfPart s p) (boundaryStop (askedAbort (askGate (appliedEpoch s3 e) p) p) p) recause

/-- STEP_SKIP at T. -/
def stepSkip (s : State) (p : Nat) : State :=
  match dueEpoch s p 2 with
  | none => s
  | some e =>
    let step := e.step.toNat
    let s1 := forEach (tilesOfPart s p) s (fun s t => applyTile s e id t)
    let s2 := forEach (stationsOn s) s1 (fun s n => applyDie s e (fun s => skipStation s n p step) (40 + n))
    let s3 := updPart s2 p (fun x => { x with decided := none })
    forEach (tilesOfPart s p) (boundaryStop (askedAbort (askGate (partEvent (appliedEpoch s3 e) p 0x02 step) p) p) p) recause

/-- GATE_OPEN at T. -/
def openGates (s : State) (p : Nat) : State :=
  match dueEpoch s p 3 with
  | none => s
  | some e =>
    let s1 := forEach (stationsOn s) s (fun s n => applyDie s e (fun s => releaseHeld (setGate s n p true) n p) (40 + n))
    let s2 := askedAbort (appliedEpoch s1 e) p
    forEach (tilesOfPart s2 p) s2 recause

/-! ### Epochs of the module (R160, R166) -/

/-- Record a module-scope epoch on the good tiles of a die, too. -/
def applyModule (s : State) (e : Epoch) (act : State → Nat → State) : State :=
  forEach ((List.range 48).filter (fun d => (dieOf s d).region)) s (fun s d =>
    applyDie s e (fun s =>
      let s1 := act s d
      if d < 40 then forEach (tilesOfDie s1 d) s1 (fun s t => recordEpoch s t e.type e.step.toNat) else s1) d)

/-- An abort that waited for a module-scope epoch follows in every partition. -/
def askedAborts (s : State) : State := forEach (allParts s) s askedAbort

/-- Complete the command that a ROUTE_GEN epoch ends: a consist is loaded, or the set is committed. -/
def routeInstalled (s : State) (o : EpochOrigin) : State :=
  match o with
  | .load q c =>
    let p := q.val
    let s1 := if partState s p = 2 then setPartState s p 3 else s
    let id := match (partOf s1 p).consist with
      | some k => k.id.toNat
      | none => 0
    boundaryStop (finish (setFld s1 (partReg p 0x10) 63 32 id) c 0 0 id) p
  | .commit c => finish s c 0 0 0
  | _ => s

/-- ROUTE_GEN at T: the generation is current on every die that applies it, and the one before stays locked for 1 ms. -/
def routeGen (s : State) (g : Nat) : State :=
  match dueEpoch s 0 6 with
  | none => s
  | some e =>
    if e.arg % 2 ≠ g then s
    else
      let s1 := applyModule s e (fun s d =>
        let x := dieOf s d
        let old := b2n x.genCur
        let s1 := setDie s d { x with genCur := decide (g = 1), stopped := if old = g then x.stopped else spPut x.stopped old s.now }
        setFld s1 (ncbReg d 0) 2 2 g)
      askedAborts (routeInstalled (appliedEpoch s1 e) e.origin)

/-- PLANE at T: the planes of NCB_CTL; partitions whose pairs are no longer covered stop (R166). -/
def setPlanes (s : State) (v : Nat) : State :=
  match dueEpoch s 0 7 with
  | none => s
  | some e =>
    if e.arg % 4 ≠ v then s
    else
      let s1 := appliedEpoch (applyModule s e (fun s d => setFld s (ncbReg d 0) 1 0 v)) e
      let s2 := forEach (lostPairs s1) s1 (fun s q => match pairPart s q with
        | some p =>
          let f := takeFree s
          stopPart f.1 p (f.2.toNat % 2 ^ 32)
        | none => s)
      askedAborts s2

/-! ### Three aborted attempts (R299, Table 11.11) -/

/-- Reset the units that did not answer, at the scope of a missed epoch: the cluster of a tile, the die of a die's own unit. A die that the
maintenance chain does not reach is fenced (R299). -/
def resetSilent (s0 : State) (us0 : List EpochUnit) : State :=
  let out (u : EpochUnit) : Bool := s0.m.census.cutOff.contains (unitDie u)
  let us := us0.filter (fun u => !(out u))
  let s := forEach ((us0.filter out).map unitDie).eraseDups s0 (fun s d => fenceDie s d 6)
  let cs := (us.filterMap (fun u => match u with
    | .tile t => some (t.val / 144, clusterOf (t.val % 144))
    | .die _ => none)).eraseDups
  let ds := (us.filterMap (fun u => match u with
    | .tile _ => none
    | .die d => some d.val)).eraseDups
  forEach ds (forEach cs s (fun s c => drainCluster s c.1 c.2)) drainDie

/-- The first die of units that did not answer; a free value where every unit answered and the combined message was lost. -/
def firstSilent (s : State) (us : List EpochUnit) : Nat :=
  match us with
  | [] => (Config.freeWord s.fresh).toNat % 64
  | u :: rest => rest.foldl (fun a v => min a (unitDie v)) (unitDie u)

/-- The outcome by origin. -/
def afterThree (s0 : State) (e : Epoch) : State :=
  let s := dropEpoch s0 e
  let p := e.part.val
  let again (s : State) : State := armEpoch s p e.type e.arg e.step.toNat e.origin
  match e.origin with
  | .stepBoundary => abortStep (updPart s p (fun x => { x with decided := none })) p
  | .lagged => again (resetSilent s e.silent)
  | .invEnd => again (resetSilent s e.silent)
  | .invoke =>
    let x := partOf s p
    let s1 := setPartState (updPart s p (fun x => { x with invoke := none, aborting := false, abortAsked := false })) p x.prior
    failIf (resetSilent s1 e.silent) x.invoker 0x11 0
  | .load q c => failLoad s q.val c (firstSilent s e.silent)
  | .commit c => failIf s c 0x0F (firstSilent s e.silent)
  | .revalidate =>
    let ds := (e.silent.map unitDie).eraseDups
    if ds.isEmpty then again s else forEach ds s (fun s d => fenceDie s d 6)
  | .planeOff => again (forEach (e.silent.map unitDie).eraseDups s (fun s d => fenceDie s d 6))

/-- The deadline of a combined READY has passed: the epoch is aborted and armed anew, up to 3 times in all (R298). -/
def readyDeadline (s0 : State) (p : Nat) : State :=
  match armedEpoch s0 p with
  | none => s0
  | some e =>
    let s := if e.apply.isNone then waitUntil s0 (e.armedAt.getD 0 + 10001) else s0
    if e.apply.isNone then
      if e.attempts < 3 then
        pumpEpochs (updM s (fun m => { m with epochs := m.epochs.map (fun o => if o = e then { e with armedAt := none } else o) }))
      else pumpEpochs (afterThree s e)
    else s

/-! ### The step guard (R226, R228) -/

/-- A finite FP32 value times 2^149, exactly; `none` for an infinity or NaN. -/
def exact32 (a : Nat) : Option Int :=
  match decodeFp fmt32 a with
  | .fin n m e => some ((if n then -1 else 1) * (m * 2 ^ (e + 149).toNat : Nat))
  | _ => none

/-- Whether a reduced sum may commit under a norm ceiling: at most its square, exactly; always under +∞. A NaN, whose comparison the spec
does not state, is decided by a free value. -/
def guardPass (hi lo ceil free : Nat) : Bool :=
  if ceil = 0x7F800000 then true
  else
    let q := twoprod32 ceil ceil
    match decodeFp fmt32 hi, decodeFp fmt32 q.hi with
    | .nan, _ => decide (free % 2 = 1)
    | _, .nan => decide (free % 2 = 1)
    | _, .inf _ => true
    | .inf n, _ => n
    | _, _ =>
      (match exact32 hi, exact32 lo, exact32 q.hi, exact32 q.lo with
       | some a, some b, some c, some d => decide (a + b ≤ c + d)
       | _, _, _, _ => decide (free % 2 = 1))

/-- Arm the epoch of a decided step; a commit waits until RES_SAVED of the step before is durable (R226). -/
def armDecided (s : State) (p : Nat) : State :=
  let x := partOf s p
  let busy := s.m.epochs.any (fun e => decide (e.part.val = p ∧ (e.type = 1 ∨ e.type = 2)))
  if busy then s
  else match x.decided with
    | some true => if x.resSaved then armEpoch s p 1 0 x.step .stepBoundary else s
    | some false => armEpoch s p 2 0 x.step .stepBoundary
    | none => s

/-- The guard decides a step from the reduced flags and sum. -/
def stepGuard (s : State) (p orBits hi lo : Nat) : State :=
  let f := takeFree s
  let ceil := fld s (psbPart (boxStation s) p 0x20) 31 0
  let pass := decide (orBits % 2 = 0) && guardPass hi lo ceil f.2.toNat
  if (partOf s p).invoke.isSome ∧ (partOf s p).aborting = false then
    armDecided (updPart f.1 p (fun x => { x with decided := some pass })) p
  else s

/-! ### Updates (R222, R226) -/

/-- The oldest update of a partition on a station die is complete once its last extents have been switched: EXT_DONE for each, UPD_END, G is
freed, DONE_STEP, and the next one begins. -/
def updateComplete (s : State) (n p : Nat) : State :=
  match jobOf s n p with
  | none => s
  | some j =>
    if j.blocks < totalBlocks s n p then s
    else
      let old (e : ExtEntry) : Nat := (beforeStep e j.step).getD 0
      let new (e : ExtEntry) : Nat := ((e.versions.find? (fun v => decide (v.step = j.step))).map (fun v => v.phys)).getD 0
      let done (s : State) (e : ExtEntry) : State :=
        journal s n (switchRec p j.step e (old e) (new e))
      let last := (classEntries s n p .w ++ classEntries s n p .s).filter (fun e => !((stationOf s n).journal.any (fun r =>
        decide (bits r.w0 3 0 = 4 ∧ bits r.w0 6 4 = p ∧ bits r.w0 63 32 = j.step ∧ bits r.w1 18 0 = e.ext.toNat ∧ bits r.w1 22 19 = e.nsid.toNat))))
      let s1 := forEach last s done
      let s2 := forEach (classEntries s1 n p .s) s1 (fun s e =>
        if e.versions.any (fun v => decide (v.step = j.step)) then keepVersions s n e (fun v => decide (j.step ≤ v.step)) else s)
      let s3 := journal s2 n (journalRec 5 p j.step 0 0)
      let s4 := forEach (classEntries s3 n p .g) s3 (fun s e => keepVersions s n e (fun v => decide (v.step ≠ j.step)))
      let s5 := setFld s4 (psbPart n p 0) 63 32 j.step
      let s6 := updStation s5 n (fun x => { x with updates := x.updates.filter (fun k => decide (k ≠ j)) })
      let s7 := match jobOf s6 n p with
        | some k => journal s6 n (journalRec 3 p k.step 0 0)
        | none => s6
      askGate s7 p

/-- RES_SAVED on a station die; once every one has it, the next commit may be armed. -/
def resSaved (s : State) (n p : Nat) : State :=
  let c := (partOf s p).committed
  let has (s : State) (k : Nat) : Bool := (stationOf s k).journal.any (fun r =>
    decide (bits r.w0 3 0 = 7 ∧ bits r.w0 6 4 = p ∧ bits r.w0 63 32 = c % 2 ^ 32))
  let s1 := if has s n then s else journal s n (journalRec 7 p c 0 0)
  if (stationsOn s1).all (has s1) then armDecided (updPart s1 p (fun x => { x with resSaved := true })) p else s1

/-! ### Meanings -/

/-- EPOCH_READY_DEADLINE (R298, R299). -/
def execEpochReadyDeadline (part : PartId) (s : State) : Host.Outcome State Fault Refusal := .next (readyDeadline s part.val)

/-- STEP_COMMIT (R228). -/
def execStepCommit (part : PartId) (s : State) : Host.Outcome State Fault Refusal := .next (stepCommit (untilApply s part.val 1) part.val)

/-- STEP_SKIP (R228). -/
def execStepSkip (part : PartId) (s : State) : Host.Outcome State Fault Refusal := .next (stepSkip (untilApply s part.val 2) part.val)

/-- GATE_OPEN (R215). -/
def execGateOpen (part : PartId) (s : State) : Host.Outcome State Fault Refusal := .next (openGates (untilApply s part.val 3) part.val)

/-- START_EPOCH (R38, R301, R308). -/
def execStartEpoch (part : PartId) (s : State) : Host.Outcome State Fault Refusal := .next (startEpoch (untilApply s part.val 4) part.val)

/-- END_EPOCH (R301). -/
def execEndEpoch (part : PartId) (s : State) : Host.Outcome State Fault Refusal := .next (endEpoch (untilApply s part.val 5) part.val)

/-- INVOCATION_END_DETECT (R38): no good tile of the partition runs any more after its START, so END is armed. -/
def execInvocationEndDetect (part : PartId) (s : State) : Host.Outcome State Fault Refusal :=
  .next (
    let p := part.val
    let x := partOf s p
    let pending := s.m.epochs.any (fun e => decide (e.part = part ∧ (e.type = 4 ∨ e.type = 5)))
    if x.invoke.isSome ∧ x.locked ∧ !x.aborting ∧ !pending ∧ (tilesOfPart s p).all (fun t => !((tileOf s t).running)) then
      armEpoch s p 5 0 x.committed .invEnd
    else s)

/-- ROUTE_GEN (R160). -/
def execRouteGen (generation : Fin 2) (s : State) : Host.Outcome State Fault Refusal := .next (routeGen (untilApply s 0 6) generation.val)

/-- PLANE (R166). -/
def execPlane (upEn dnEn : Bool) (s : State) : Host.Outcome State Fault Refusal := .next (setPlanes (untilApply s 0 7) (b2n upEn + 2 * b2n dnEn))

/-- ROUTER_FAILURE (R166): the signal box disables the plane on the whole module through an epoch. -/
def execRouterFailure (_t : TileId) (plane : Plane) (s : State) : Host.Outcome State Fault Refusal :=
  .next (
    let k := 3 - 2 ^ planeNum plane
    let asked := (s.m.epochs.filter (fun e => decide (e.type = 7))).foldl (fun a e => a &&& e.arg) 3
    armEpoch s 0 7 (fld s (ncbReg (boxDie s) 0) 1 0 &&& asked &&& k) 0 .planeOff)

/-- UPDATE_COMPLETE (R222). -/
def execUpdateComplete (stn : StationId) (part : PartId) (s : State) : Host.Outcome State Fault Refusal :=
  .next (updateComplete s stn.val part.val)

/-- RES_SAVED (R226). -/
def execResSaved (stn : StationId) (part : PartId) (s : State) : Host.Outcome State Fault Refusal := .next (resSaved s stn.val part.val)

end Sys2Proof.Machine
end

