-- ==== Sys2Proof/Machine/Router.lean ====
section
/-!
DEFINITION. The routers and their links (R151, R155 to R158, R164, R165, R167).

What the spec leaves open here: log entries 7, 11, 18, 27, 28, 30, 88 and 108.
-/

namespace Sys2Proof.Machine

/-! ### Outputs (R157) -/

/-- The packet after one more router: HOPS counts it, saturating (Table 6.1). -/
def hopped (p : Packet) : Packet := { p with hops := BitVec.ofNat 8 (min 255 (p.hops.toNat + 1)) }

/-- The port that an output of a router leads into: the buffer behind the local output, the neighbour's port, or the port of a station die's router
for the die it borders. -/
def nextPort (t : Nat) (pl : Plane) (dir : Dir) : Option Nat :=
  match dir with
  | .local => some (portKey t pl 5)
  | _ => match neighbour t dir with
    | some n => some (portKey n pl (dirNum (facing dir)))
    | none => (stationAt t dir).map (fun n => portKey (5760 + 2 * n + t / 144 % 2) pl (6 + t % 12))

/-- The copies of a packet that pass a router: one for each destination whose route does (R193). -/
def copiesAt (s : State) (t : Nat) (w : Worm) : List Packet :=
  let all := w.dests.map (fun d => { w.p with dstDie := d.1, dstTile := d.2 })
  match all with
  | [c] => [c]
  | _ => all.filter (fun c => (pathOf s c).contains t)

/-- The ports that a packet goes on to from a router. -/
def outsOf (s : State) (t : Nat) (w : Worm) : List Nat :=
  ((copiesAt s t w).filterMap (fun c => (outDir s c t).bind (nextPort t c.plane))).eraseDups

/-- Whether a packet's head flit stands first of its channel at a port and has won no output. -/
def headWaits (s : State) (w : Worm) (k : Nat) : Bool :=
  w.hops.any (fun h => decide (h.port = k ∧ h.outs = []))
    && (match (sidingsAt s k).flits.find? (fun f => decide (f.ch = w.p.ch)) with
        | some f => decide (f.worm = w.id)
        | none => false)

/-- Whether another packet of the channel holds an output of a router: its tail has not passed (R157). -/
def outHeld (s : State) (t : Nat) (w : Worm) (o : Nat) : Bool :=
  s.m.worms.any (fun v => decide (v.id ≠ w.id ∧ v.p.ch = w.p.ch) && v.hops.any (fun h => decide (h.port / 64 = t) && h.outs.contains o))

/-- Key of the round robin of an output port's channel. -/
def outTurn (o : Nat) (ch : BitVec 2) : Nat := o * 64 + 32 + ch.toNat

/-- The place of an input port in the round robin after the one that won last. -/
def turnRank (last k : Nat) : Nat := (k % 32 + 7 - last) % 7

/-- Whether a head flit at a port has the turn at an output among those of its channel that want it (R157). -/
def hasTurn (s : State) (t : Nat) (w : Worm) (k o : Nat) : Bool :=
  let last := spGet s.m.turns 0 (outTurn o w.p.ch)
  (List.range 7).all (fun i =>
    let j := portKey t w.p.plane i
    !(decide (turnRank last j < turnRank last k) && s.m.worms.any (fun v => decide (v.p.ch = w.p.ch) && headWaits s v j && (outsOf s t v).contains o)))

/-! ### Forwarding (R158, R167) -/

/-- Whether leaving a router in a direction crosses a crossing that is unusable on the packet's plane. -/
def crossingDown (s : State) (pl : Plane) (t : Nat) (dir : Dir) : Bool :=
  let far : Nat := match neighbour t dir with
    | some n => n / 144
    | none => (match stationAt t dir with
      | some n => 40 + n
      | none => t / 144)
  if far = t / 144 then false else !(crossingUsable s pl (t / 144, dirNum dir + 1, far))

/-- Whether leaving a router in a direction leads into a scope that takes no packet (R167). -/
def closedAhead (s : State) (t : Nat) (dir : Dir) : Bool :=
  match neighbour t dir with
  | some n => routerClosed s n
  | none => (match stationAt t dir with
    | some n => dieClosed s (40 + n)
    | none => false)

/-- A packet that meets a link that is DOWN (R165, R169): a request is answered LINK, and so is who awaits a response; a collective packet ends. -/
def cut (s : State) (t : Nat) (p : Packet) : State :=
  if isResponse p then sendFrom (addFld (absorb s p) (rtReg t p.plane 0x48) 31 0 1) (some t)
    { response p 4 5 [] with
      dstDie := p.dstDie, dstTile := p.dstTile, srcDie := BitVec.ofNat 6 (t / 144), srcTile := BitVec.ofNat 8 (t % 144) }
  else absorbAt s p (some t) 5

/-- The end of a packet at a router that cannot send it on: no route, a closed scope ahead (R167), a crossing that is DOWN. -/
def stopHere (s : State) (t : Nat) (p : Packet) : Option State :=
  match outDir s p t with
  | none => some (absorbAt s p (some t) 6)
  | some dir =>
    if dir = .local then none
    else if closedAhead s t dir then some (absorbAt s p (some t) 1)
    else if (nextPort t p.plane dir).isNone then some (absorbAt s p (some t) 6)
    else if crossingDown s p.plane t dir then some (cut s t p)
    else none

/-- A head flit wins the outputs that its packet goes on to, where they are free for its channel, have a siding and it has the turn: the router
forwards the packet, whose flits follow (R156, R157). -/
def winOutputs (s : State) (t k : Nat) (w : Worm) : State :=
  let outs := outsOf s t w
  if headWaits s w k && outs.all (fun o => !(outHeld s t w o) && mayEnter s w.p o && hasTurn s t w k o) then
    let w' : Worm := { w with
      p := hopped w.p
      hops := w.hops.map (fun h => if h.port = k then { h with outs := outs } else h) ++ outs.map (fun o => ⟨o, [], 0⟩) }
    let here := (copiesAt s t w).map (fun c => (c.dstDie, c.dstTile))
    let s1 := updM (setWorm s w') (fun m => { m with
      turns := outs.foldl (fun r o => spPut r (outTurn o w.p.ch) (k % 32 + 1)) m.turns
      net := m.net.map (fun q => if w.carries q && here.contains (q.dstDie, q.dstTile) then hopped q else q) })
    inject (pump (pumpFuel w') s1 w.id) w.entry w.p.ch (s.m.worms.length + 1)
  else s

/-- A packet that the model has not carried to a router stands at a port of it, where a siding is free. -/
def appear (s : State) (k : Nat) (p : Packet) : State :=
  if mayTake s p k then
    let n := s.m.wormSeq
    let w : Worm := ⟨n, p, [(p.dstDie, p.dstTile)], k / 64, k, packetFlits p, n, [⟨k, [], 0⟩]⟩
    pump (pumpFuel w) (updM (stay s p) (fun m => { m with wormSeq := n + 1, worms := m.worms ++ [w] })) n
  else stay s p

/-- One router's work on the head flit of a packet at an input port. -/
def routeHead (s : State) (t : Nat) (port : Dir) (p : Packet) : State :=
  if routerClosed s t then addFld (absorb s p) (rtReg t p.plane 0x48) 31 0 1
  else
    let k := portKey t p.plane (dirNum port)
    let s1 := if (wormOf s p).isSome then stay s p else appear s k p
    match wormOf s1 p with
    | none => s1
    | some w =>
      if headWaits s1 w k then
        let s2 := forEach (copiesAt s1 t w) s1 (fun s c => (stopHere s t c).getD s)
        match wormById s2 w.id with
        | some w' => winOutputs s2 t k w'
        | none => s2
      else s1

/-! ### Links (R164, R165) -/

/-- The edges of a tile's die that have a crossing at the tile, in the order north, east, south, west. -/
def crossEdges (t : Nat) : List Nat :=
  [Dir.north, .east, .south, .west].filterMap (fun dir =>
    match neighbour t dir with
    | some n => if n / 144 = t / 144 then none else some (dirNum dir)
    | none => if (stationAt t dir).isSome then some (dirNum dir) else none)

/-- Key of HB_LINKe. -/
def hbLink (d e : Nat) : Nat := healthReg d (0x50 + 8 * e)

/-- A CRC error and its replay on the tile's crossing link (R164); the errors that follow each other are counted, for failed replays make the link
retrain (R165). -/
def crcError (s0 : State) (t : Nat) (pl : Plane) : State :=
  match crossEdges t with
  | [] => s0
  | e :: _ =>
    let k := portKey t pl e
    let s := updM s0 (fun m => { m with replays := spPut m.replays k (spGet m.replays 0 k + 1) })
    let s1 := addFld (addFld s (rtReg t pl 0x50) 15 0 1) (rtReg t pl 0x50) 31 16 1
    addFld (addFld s1 (hbLink (t / 144) e) 23 0 1) (hbLink (t / 144) e) 47 24 1

/-- The tile at which link `i` of an edge of a compute die lies. -/
def linkTile (d e i : Nat) : Nat :=
  d * 144 + (if e = 0 then i else if e = 1 then 12 * i + 11 else if e = 2 then 132 + i else 12 * i)

/-- The number of a link on its edge. -/
def linkOf (t e : Nat) : Nat := if e % 2 = 0 then t % 12 else t % 144 / 12

/-- Edge number. -/
def edgeNum : Edge → Nat
  | .north => 0
  | .east => 1
  | .south => 2
  | .west => 3

/-- The input ports at both ends of a link of a compute die's edge. -/
def linkPorts (t e : Nat) (pl : Plane) : List Nat :=
  portKey t pl e :: (match allDirs[e]? with
    | some dir => (nextPort t pl dir).toList
    | none => [])

/-- A packet that a link cuts as it goes DOWN: what has not crossed is discarded, and the rest ends with a forged tail, poisoned, its header's NAKR
saying that the answer is LINK (R165). -/
def cutWorm (w : Worm) (ports : List Nat) : Option (Worm × List Nat) :=
  match w.hops.findIdx? (fun h => h.outs.any (fun o => ports.contains o)) with
  | none => none
  | some i => some ({ w with p := { w.p with poison := true, nakr := 5 }, left := 0, hops := w.hops.drop (i + 1) }, (w.hops.take (i + 1)).map (fun h => h.port))

/-- The packets that a link cuts as it goes DOWN. -/
def cutLink (s : State) (t e : Nat) (pl : Plane) : State :=
  forEach s.m.worms s (fun s w => match cutWorm w (linkPorts t e pl) with
    | none => s
    | some (w', gone) =>
      let s1 := updM (clearFlits s w.id gone) (fun m => { m with
        net := m.net.map (fun q => if w.carries q then { q with poison := true, nakr := 5 } else q) })
      kick (setWorm s1 w') (w.entry :: gone) w.p.ch)

/-- A link has retrained: its replays count anew, and what it held up goes on. -/
def retrained (s : State) (t e : Nat) (pl : Plane) : State :=
  let ports := linkPorts t e pl
  forEach [0, 1, 2, 3] (crossed s ports) (fun s c => kick s ports (BitVec.ofNat 2 c))

/-- Repair one link of a compute die's edge (R165): spares replace up to 8 failing lanes, which a REMAP record keeps; with more the link is
DOWN and cuts what is on it, the crossing is unusable on the plane and the installed set is validated again. -/
def repairLink (s : State) (d e : Nat) (pl : Plane) (i : Nat) (failing : List Nat) : State :=
  let t := linkTile d e i
  let k := rtReg t pl 0x50
  let lanes := failing.eraseDups
  let old := fld s k 35 32
  let wasDown := fld s k 36 36
  if lanes.length ≤ 8 then
    let s1 := setFld (setFld s k 35 32 lanes.length) k 36 36 0
    let s2 := setFld s1 (hbLink d e) 55 48 (fld s1 (hbLink d e) 55 48 + lanes.length - old)
    let s3 := setFld s2 (hbLink d e) 63 56 (fld s2 (hbLink d e) 63 56 - wasDown)
    let x := dieOf s3 d
    let key := (planeNum pl * 4 + e) * 12 + i
    let s4 := setDie s3 d { x with laneMap := spSet x.laneMap [] key lanes }
    if lanes.isEmpty then s4 else ledger s4 d 8 [e + planeNum pl * 4 + i * 8 + key % 256 * 128]
  else
    let s1 := setFld (cutLink s t e pl) k 36 36 1
    let s2 := setFld s1 (hbLink d e) 63 56 (fld s1 (hbLink d e) 63 56 + 1 - wasDown)
    let s3 := markCrossing s2 d e pl false
    recordCheck s3 (validate s3 (genOf s3 d))

/-- Whether a link of a compute die's edge is DOWN, as the end of it in that die holds it. -/
def lanesDown (s : State) (d e : Nat) (pl : Plane) (i : Nat) : Bool := decide (fld s (rtReg (linkTile d e i) pl 0x50) 36 36 = 1)

/-- A crossing is usable again on a plane when none of its links is DOWN, at either end (R165). -/
def refreshCrossing (s : State) (d e : Nat) (pl : Plane) : State :=
  let far (i : Nat) : Bool := match exitDie d (e + 1) 0 with
    | some n => decide (n < 40) && lanesDown s n ((e + 2) % 4) pl i
    | none => false
  if (List.range 12).all (fun i => !(lanesDown s d e pl i) && !(far i)) then markCrossing s d e pl true else s

/-! ### Meanings -/

/-- A credit comes back to the upstream router (R156): of the siding, tagged with its channel and pool, that a flit has left. -/
def creditBack (s : State) (k : Nat) (ch : BitVec 2) (shared : Bool) : State :=
  let g := sidingsAt s k
  if g.back.contains (ch, shared) then kick (setSidings s k { g with back := g.back.erase (ch, shared) }) [k] ch else s

/-- PACKET_ROUTE (R157, R158). -/
def execPacketRoute (t : TileId) (inPort : Dir) (p : Packet) (s : State) : Host.Outcome State Fault Refusal :=
  .next (routeHead s t inPort p)

/-- CREDIT_RETURN (R156). -/
def execCreditReturn (t : TileId) (plane : Plane) (port : Dir) (ch : Fin 4) (fromShared : Bool) (s : State) :
    Host.Outcome State Fault Refusal :=
  .next (creditBack s (portKey t plane (dirNum port)) (BitVec.ofNat 2 ch.val) fromShared)

/-- FLIT_CRC_ERROR (R164). -/
def execFlitCrcError (t : TileId) (plane : Plane) (s : State) : Host.Outcome State Fault Refusal := .next (crcError s t plane)

/-- LINK_RETRAIN (R165): the link of a tile's edge tests its 1,056 lanes and is repaired. A tile without a crossing on the edge has no link. -/
def execLinkRetrain (t : TileId) (plane : Plane) (edge : Edge) (failing : List (Fin 1056)) (s : State) :
    Host.Outcome State Fault Refusal :=
  .next (
    let e := edgeNum edge
    if (crossEdges t).contains e then
      refreshCrossing (repairLink (retrained s t.val e plane) (t.val / 144) e plane (linkOf t.val e) (failing.map (fun l => l.val))) (t.val / 144) e plane
    else s)

end Sys2Proof.Machine
end

