-- ==== Sys2Proof/Machine/Signal.lean ====
section
/-!
DEFINITION. The signal network: the tree, combined messages, reports, routed triggers, and global time (R170 to R176, R227, R273, R291).

The ports of a station die's node are not numbered by the spec: here 0 leads to the bordered compute die with the lower ID and 1 to the other,
with the SIG_EXPECT bits of north and east.

What the spec leaves open here: log entries 49, 50, 51, 54, 107, 113 and 115.
-/

namespace Sys2Proof.Machine

/-! ### Nodes and the tree (R170, R291) -/

/-- SIG_STATUS of a node. -/
def nodeStatus (s : State) (k : Nat) : Word := if k < 5760 then rd s (tileReg k 0x4200) else (nodeOf s k).status

/-- Store a field of a node's SIG_STATUS. -/
def setNodeStatus (s : State) (k hi lo v : Nat) : State :=
  if k < 5760 then setFld s (tileReg k 0x4200) hi lo v else updNode s k (fun n => { n with status := putBits n.status hi lo v })

/-- SIG_EXPECT of a node. -/
def nodeExpect (s : State) (k : Nat) : Word := if k < 5760 then rd s (tileReg k 0x4208) else (nodeOf s k).expect

/-- Store a node's SIG_EXPECT. -/
def setNodeExpect (s : State) (k : Nat) (w : Word) : State :=
  if k < 5760 then wr s (tileReg k 0x4208) w else updNode s k (fun n => { n with expect := w })

/-- The die of a node. -/
def nodeDie (k : Nat) : Nat := if k < 5760 then k / 144 else 40 + (k - 5760)

/-- A port number as a direction. -/
def dirOf : Nat → Dir
  | 0 => .north
  | 1 => .east
  | 2 => .south
  | 3 => .west
  | _ => .local

/-- The tile that a station die's node joins at a port: tile (6, 0) or (6, 11) of the dies it borders (R170). -/
def stationPort (n k : Nat) : Nat := if n < 4 then (2 * n + k) * 144 + 6 else (32 + 2 * (n - 4) + k) * 144 + 138

/-- The node at a port of a node: a mesh neighbour, or the station die's node that a tile joins, with the port by which that node sees this
one. -/
def nodeAt (k port : Nat) : Option (Nat × Nat) :=
  if 5760 ≤ k then (if port < 2 then some (stationPort (k - 5760) port, if k - 5760 < 4 then 0 else 2) else none)
  else
    let st := [(k, 0), (k, 1)].findSome? (fun _ => (List.range 8).findSome? (fun n =>
      (List.range 2).findSome? (fun j => if stationPort n j = k then some (5760 + n, j) else none)))
    if port = 4 then st
    else match neighbour k (dirOf port) with
      | some t => some (t, (port + 2) % 4)
      | none => if (stationAt k (dirOf port)).isSome then st else none

/-- The parent of a node in the tree and the port by which the parent sees it; none at the root, without a tree, or over a link that is DOWN. -/
def parentOf (s : State) (k : Nat) : Option (Nat × Nat) :=
  let p := bits (nodeStatus s k) 6 4
  if p = 7 ∨ (nodeOf s k).down.contains p then none else nodeAt k p

/-- The signal box's node: the root (R170). -/
def rootNode (s : State) : Nat := 5760 + boxStation s

/-- The SIG_EXPECT bit of a contribution for a partition: self, then the child ports north, east, south and west. -/
def expectBit (p : Nat) : Contributor → Nat
  | .self => 5 * p
  | .child .north => 5 * p + 1
  | .child .east => 5 * p + 2
  | .child .south => 5 * p + 3
  | .child .west => 5 * p + 4

/-- A child port as a contributor. -/
def childAt : Nat → Contributor
  | 0 => .child .north
  | 1 => .child .east
  | 2 => .child .south
  | _ => .child .west

/-- The contributions in the order in which they combine. -/
def allContributors : List Contributor := [.self, .child .north, .child .east, .child .south, .child .west]

/-- Mark the ports on the way from a node to the root as expecting a partition's contributions. -/
def markUp : Nat → State → Nat → Nat → State
  | 0, s, _, _ => s
  | fuel + 1, s, p, k =>
    match parentOf s k with
    | none => s
    | some (q, port) =>
      let w := nodeExpect s q
      let b := expectBit p (childAt port)
      if bit w b then s else markUp fuel (setNodeExpect s q (w ||| (1 <<< b))) p q

/-- The longest way to the root that the model follows. -/
def treeFuel : Nat := 300

/-- SIG_EXPECT of every node for a partition: its good tiles and every powered station die contribute (R172, R227). -/
def installExpect (s : State) (p : Nat) : State :=
  let nodes := tilesOfPart s p ++ (stationsOn s).map (fun n => 5760 + n)
  forEach nodes s (fun s k => markUp treeFuel (setNodeExpect s k (nodeExpect s k ||| (1 <<< (5 * p)))) p k)

/-- Clear what every node expects. -/
def clearExpect (s : State) : State :=
  updM { s with regs := s.regs.filter (fun r => !(decide (r.1 / 2 ^ 52 = 0 ∧ r.1 / 2 ^ 23 % 256 < 144 ∧ r.1 % 2 ^ 23 = 0x7F4208))) }
    (fun m => { m with nodes := m.nodes.map (fun q => (q.1, { q.2 with expect := 0 })) })

/-- The signal box writes SIG_EXPECT on every node when it installs a partition set or rebuilds the tree (R172). -/
def rebuildExpect (s : State) : State := forEach (allParts s) (clearExpect s) installExpect

/-- Everything a node knows of the tree is forgotten, for it is rebuilt around a link (R174). -/
def forgetTree (s : State) : State :=
  let regs := s.regs.filterMap (fun r =>
    if r.1 / 2 ^ 52 = 0 ∧ r.1 / 2 ^ 23 % 256 < 144 ∧ r.1 % 2 ^ 23 = 0x7F4200 then none else some r)
  updM { s with regs := regs } (fun m => { m with nodes := m.nodes.map (fun q =>
    (q.1, { q.2 with best := none, status := 0x70 })) })

/-- The claim of a powered station die (R291): PRIO 2 for S0 and S4, 1 for the others. -/
def ownClaim (s : State) (k : Nat) : Option Claim :=
  if 5760 ≤ k ∧ (dieOf s (nodeDie k)).region = true then
    some ⟨if k = 5760 ∨ k = 5764 then 2 else 1, BitVec.ofNat 3 (k - 5760), 0⟩
  else none

/-- The best claim that a node has seen, its own included. -/
def bestOf (s : State) (k : Nat) : Option Claim := ((nodeOf s k).best).orElse (fun _ => ownClaim s k)

/-- Whether a claim beats another: higher PRIO, then lower STATION, then fewer HOPS (R291). -/
def claimBeats (a b : Claim) : Bool :=
  decide (b.prio.toNat < a.prio.toNat)
    || (decide (a.prio = b.prio) && (decide (a.station.toNat < b.station.toNat)
      || (decide (a.station = b.station) && decide (a.hops.toNat < b.hops.toNat))))

/-- A claim reaches a node at a port. -/
def discover (s : State) (k port : Nat) (c : Claim) : State :=
  let better := match bestOf s k with
    | none => true
    | some b => claimBeats c b
  if (dieOf s (nodeDie k)).region && !((nodeOf s k).down.contains port) && better then
    let s1 := updNode s k (fun n => { n with best := some c, improved := s.now })
    setNodeStatus (setNodeStatus (setNodeStatus s1 k 6 4 port) k 7 7 0) k 15 8 c.hops.toNat
  else s

/-- The module's stage (Table 11.1). -/
def stageOf (s : State) : Nat := fld s modStatus 7 4

/-- A stage has failed (R288): BOOT_FAIL, STAGE stays, and the alarm. -/
def bootFail (s : State) : State :=
  let s1 := setBit s modStatus 1
  alarm s1 0x0B none (stageOf s1 + 16)

/-- The signal box on S4 takes over: the running sweep is discarded, S4's PHY drives and repeats the mode selection, and the alarm goes out
(R291, R315, R322). -/
def takeOver (s : State) (draw : Nat) : State :=
  let s1 := updM (setBit s (s0Health 0xF208) 4) (fun m => { m with
    sboxS4 := true
    census := { m.census with active := false, takeover := true, sweep := if m.census.active then m.census.sweep - 1 else m.census.sweep }
    reedline := { m.reedline with phyS4 := true } })
  alarm (restartSelection s1 draw) 0x0E none 0

/-- A node's claims have been quiet for 1 ms: its tree is valid. At the winner, S0 or S4 takes the root, S4 as after a takeover with a free draw
of R319; with another station die as the winner no signal box is alive, and stage 4 fails (R291). A tree that a node joins again gets new
expectations (R172). -/
def treeQuiet (s0 : State) (k : Nat) : State :=
  match bestOf s0 k with
  | none => s0
  | some c =>
    let s := waitUntil s0 ((nodeOf s0 k).improved + 1000000)
    if bits (nodeStatus s k) 7 7 = 0 then
      let s1 := setNodeStatus s k 7 7 1
      if k = 5760 + c.station.toNat then
        if c.prio = 2 then
          rebuildExpect (if c.station = 4 then (if s1.m.sboxS4 then s1 else let f := takeFree s1; takeOver f.1 (f.2.toNat % 5001))
            else updM s1 (fun m => { m with sboxS4 := false }))
        else if stageOf s1 = 4 then bootFail s1 else s1
      else rebuildExpect s1
    else s

/-! ### Routed messages (R170) -/

/-- The entry that routes a signal message out of a die: the Up line's, or the Down line's where that is NOROUTE. -/
def sigEntry (s : State) (d dst : Nat) : Nat :=
  let up := routeEntry s (genOf s d) .up d dst
  if exitOf up = 7 then routeEntry s (genOf s d) .down d dst else up

/-- A direction as a port of a node; the fourth leads to the station die. -/
def dirPort : Dir → Nat
  | .north => 0
  | .east => 1
  | .south => 2
  | .west => 3
  | .local => 4

/-- The port by which a routed message leaves a node toward tile `i` of die `d`: X then Y inside the die, and by the tables between dies; `none`
where they name no exit. -/
def sigNext (s : State) (k d i : Nat) : Option Nat :=
  let here := nodeDie k
  let e := sigEntry s here d
  if 5760 ≤ k then
    (match exitDie here (exitOf e) (e / 8 % 2) with
     | some n => (List.range 2).find? (fun j => decide (stationPort (k - 5760) j / 144 = n))
     | none => none)
  else if here = d then some (dirPort (toward k (i % 12) (i / 12) .local))
  else match exitOf e with
    | 1 => some (dirPort (if here < 8 then toward k 6 0 .local else toward k (k % 12) 0 .north))
    | 2 => some (dirPort (toward k 11 (k % 144 / 12) .east))
    | 3 => some (dirPort (if 32 ≤ here then toward k 6 11 .local else toward k (k % 12) 11 .south))
    | 4 => some (dirPort (toward k 0 (k % 144 / 12) .west))
    | _ => none

/-- Whether a routed message that stands at a node reaches tile `i` of die `d`, or with `i` 255 that die: every link of its way is up and every
die of it has power. -/
def sigReaches : Nat → State → Nat → Nat → Nat → Bool
  | 0, _, _, _, _ => false
  | fuel + 1, s, k, d, i =>
    (dieOf s (nodeDie k)).region && (decide (nodeDie k = d ∧ (40 ≤ d ∨ i = 255 ∨ k % 144 = i)) || (match sigNext s k d i with
      | none => false
      | some port => !((nodeOf s k).down.contains port) && (match nodeAt k port with
        | some q => sigReaches fuel s q.1 d i
        | none => false)))

/-- The longest way of a routed message that the model follows. -/
def sigFuel : Nat := 1200

/-! ### Combined messages (R172, R227) -/

/-- What a node holds for a partition. -/
def combineOf (s : State) (k p : Nat) : Combine :=
  ((nodeOf s k).combine.find? (fun c => decide (c.part.val = p))).getD ⟨Fin.ofNat 8 p, [], []⟩

/-- Replace what a node holds for a partition. -/
def setCombine (s : State) (k : Nat) (c : Combine) : State :=
  updNode s k (fun n => { n with combine := n.combine.filter (fun d => decide (d.part ≠ c.part))
    ++ (if c.orIn.isEmpty && c.cpIn.isEmpty then [] else [c]) })

/-- The contributions that a node waits for. -/
def expected (s : State) (k p : Nat) : List Contributor := allContributors.filter (fun c => bit (nodeExpect s k) (expectBit p c))

/-- The OR of what has come. -/
def orAll (l : List (Contributor × Lane)) : Lane := l.foldl (fun a c => a ||| c.2) 0

/-- The CP32 sum of what has come, combined in the order self, north, east, south, west with the sequence of VCPADD (R92, R172). -/
def cpAll (l : List (Contributor × Lane × Lane)) : Nat × Nat :=
  let vs := allContributors.filterMap (fun c => (l.find? (fun x => decide (x.1 = c))).map (fun x => (x.2.1.toNat, x.2.2.toNat)))
  match vs with
  | [] => (0, 0)
  | v :: rest => rest.foldl (fun a b => let r := cpadd32 a.1 a.2 b.1 b.2; (r.hi, r.lo)) v

/-- At the root: once the flags and the sum of a partition are both complete, the guard decides (R228). While the step is being aborted the
flags are the answer to a poll (R296) and the guard sees none. -/
def atSignalRoot (s : State) (p : Nat) : State :=
  let k := rootNode s
  let c := combineOf s k p
  let want := expected s k p
  let orDone := want.all (fun x => c.orIn.any (fun y => decide (y.1 = x))) && !(c.orIn.isEmpty)
  let cpDone := want.all (fun x => c.cpIn.any (fun y => decide (y.1 = x))) && !(c.cpIn.isEmpty)
  if (partOf s p).aborting && orDone then setCombine s k { c with orIn := [] }
  else if orDone && cpDone then
    let v := cpAll c.cpIn
    stepGuard (setCombine s k { c with orIn := [], cpIn := [] }) p (orAll c.orIn).toNat v.1 v.2
  else s

/-- A contribution of OR bits at a node: held until every expected one is there, then one message goes to the parent. -/
def addOr : Nat → State → Nat → Nat → Contributor → Lane → State
  | 0, s, _, _, _, _ => s
  | fuel + 1, s, k, p, c, v =>
    let h := combineOf s k p
    let l := h.orIn.filter (fun x => decide (x.1 ≠ c)) ++ [(c, v)]
    if k = rootNode s then atSignalRoot (setCombine s k { h with orIn := l }) p
    else if (expected s k p).all (fun x => l.any (fun y => decide (y.1 = x))) then
      (match parentOf s k with
       | some (q, port) => addOr fuel (setCombine s k { h with orIn := [] }) q p (childAt port) (orAll l)
       | none => setCombine s k { h with orIn := l })
    else setCombine s k { h with orIn := l }

/-- A contribution to the sum of squares. -/
def addCp : Nat → State → Nat → Nat → Contributor → Lane → Lane → State
  | 0, s, _, _, _, _, _ => s
  | fuel + 1, s, k, p, c, hi, lo =>
    let h := combineOf s k p
    let l := h.cpIn.filter (fun x => decide (x.1 ≠ c)) ++ [(c, hi, lo)]
    if k = rootNode s then atSignalRoot (setCombine s k { h with cpIn := l }) p
    else if (expected s k p).all (fun x => l.any (fun y => decide (y.1 = x))) then
      let v := cpAll l
      (match parentOf s k with
       | some (q, port) => addCp fuel (setCombine s k { h with cpIn := [] }) q p (childAt port) (BitVec.ofNat 32 v.1) (BitVec.ofNat 32 v.2)
       | none => setCombine s k { h with cpIn := l })
    else setCombine s k { h with cpIn := l }

/-- Whether a contribution can be made: a powered node's, and a station die's own once its folding is complete (R227). -/
def mayContribute (s : State) (k p : Nat) (c : Contributor) : Bool :=
  (dieOf s (nodeDie k)).region && !(decide (c = .self ∧ 5760 ≤ k) && !(partOf s p).aborting && !(foldingDone s (k - 5760) p))

/-- The OR bits of a contribution (R227): a tile adds FLAGS_ANY.NF to Speub's check, and a station die's flag is that of its G blocks. What comes
from a child, and the answers to a poll of R296, are as they come. -/
def ownOr (s : State) (k p : Nat) (c : Contributor) (v : Lane) : Lane :=
  if c ≠ .self ∨ (partOf s p).aborting then v
  else if k < 5760 then v ||| BitVec.ofNat 32 (flagsAny s k / 16)
  else (v &&& 0xFFFFFFFE) ||| BitVec.ofNat 32 (b2n (blocksNonfin s (k - 5760) p))

/-- The sum of squares of a contribution (R227): a station die's is that of its G of the step, a tile's comes with the command. -/
def ownCp (s : State) (k p : Nat) (c : Contributor) (hi lo : Lane) : Lane × Lane :=
  if c = .self ∧ 5760 ≤ k then
    (let q := blocksSumsq s (k - 5760) p
     (BitVec.ofNat 32 q.hi, BitVec.ofNat 32 q.lo))
  else (hi, lo)

/-! ### Reports (R70, R172, R187, R221, R298) -/

/-- What the signal box does with a REPORT: a fault, a watchdog or a failed trigger aborts the step, a missed epoch resets its unit, kept blocks
are told to the hosts. -/
def actReport (s : State) (r : Report) : State :=
  let p := r.part.val
  match r.what with
  | .ctxFault => abortStep s p
  | .watchdog => abortStep s p
  | .trigFail => abortStep s p
  | .epMiss =>
    let cs := (((tilesOfPart s p).filter (fun t => (tileOf s t).missed.isSome)).map (fun t => (t / 144, clusterOf (t % 144)))).eraseDups
    let ds := (List.range 48).filter (fun d => (dieOf s d).epMissed.isSome)
    if cs.isEmpty && ds.isEmpty then s
    else forEach ds (forEach cs (abortStep s p) (fun s c => drainCluster s c.1 c.2)) drainDie
  | .updateNonfin => partEvent s p 0x09 (((List.range 8).map (fun n => fld s (psbPart n p 0x30) 31 0)).foldl (fun a b => a + b) 0)
  | .timeFault => s
  | .phaseFault =>
    let f := takeFree s
    partEvent f.1 p 0x0A (f.2.toNat % 2 ^ 32)
  | .censusReach => s
  | .code _ => s

/-- A REPORT travels up the tree, merging with reports of its code and partition that nodes hold; at the root the signal box acts on it. -/
def carryReport : Nat → State → Nat → Report → State
  | 0, s, _, _ => s
  | fuel + 1, s, k, r =>
    let same (q : Report) : Bool := decide (q.part = r.part ∧ q.what = r.what)
    let held := (nodeOf s k).reports.filter same
    let all := match held with
      | q :: _ => (mergeReport [q] r).headD r
      | [] => r
    let s1 := updNode s k (fun n => { n with reports := n.reports.filter (fun q => !(same q)) })
    if k = rootNode s then actReport s1 all
    else match parentOf s1 k with
      | some (q, _) => carryReport fuel s1 q all
      | none => updNode s1 k (fun n => { n with reports := n.reports ++ [all] })

/-- A node's own REPORT that it already holds starts its way; another one joins it. -/
def startReport (s : State) (k : Nat) (r : Report) : State :=
  match (nodeOf s k).reports.find? (fun q => decide (q.part = r.part ∧ q.what = r.what ∧ q.id = r.id)) with
  | some q => carryReport treeFuel (updNode s k (fun n => { n with reports := n.reports.filter (fun x => decide (x ≠ q)) })) k q
  | none => carryReport treeFuel s k r

/-! ### Link errors (R174) -/

/-- Count in SIG_ERR of a node; that of a station die's node is read by none. -/
def addSigErr (s : State) (k hi lo : Nat) : State :=
  if k < 5760 then addFld s (tileReg k 0x4210) hi lo 1
  else updNode s k (fun n => { n with sigErr := putBits n.sigErr hi lo (bits n.sigErr hi lo + 1) })

/-- A node discards a message: counted in SIG_ERR.PARITY (R171, R274). -/
def countDiscard (s : State) (k : Nat) : State := addSigErr s k 15 0

/-- A parity error of a message at a port. After the third retransmission of one message the link is DOWN at both ends, the message is lost, and
the tree is rebuilt. -/
def parityError (s : State) (k port : Nat) (msg : BitVec 16) : State :=
  let s1 := addSigErr s k 15 0
  let was := spGet (nodeOf s1 k).errs (msg, 0) port
  let e := (if was.1 = msg then was.2 else 0) + 1
  if e ≤ 3 then addSigErr (updNode s1 k (fun n => { n with errs := spPut n.errs port (msg, e) })) k 31 16
  else
    let down (s : State) (q pt : Nat) : State := updNode s q (fun n => { n with
      errs := spDel n.errs pt
      down := if n.down.contains pt then n.down else n.down ++ [pt] })
    let s2 := down s1 k port
    let s3 := match nodeAt k port with
      | some (q, pt) => down s2 q pt
      | none => s2
    forgetTree s3

/-! ### Global time (R175, R176) -/

/-- The measured delay of a tree path to the root in 0.1 ns: the crossings it takes, each by the die that leaves over it. -/
def pathDelay : Nat → State → Nat → Nat
  | 0, _, _ => 0
  | fuel + 1, s, k =>
    if k = rootNode s then 0
    else match parentOf s k with
      | none => 0
      | some (q, _) =>
        let d := nodeDie k
        let port := bits (nodeStatus s k) 6 4
        let e := if 5760 ≤ k then (if k - 5760 < 4 then 2 else 0) else if port = 4 then (if d < 8 then 0 else 2) else port
        (if d = nodeDie q then 0 else bits (rd s (ncbReg d 0x28)) (16 * e + 15) (16 * e)) + pathDelay fuel s q

/-- The node of a die through which it hears the root: its own, or its first good tile's. -/
def dieNode (s : State) (d : Nat) : Nat := if 40 ≤ d then 5760 + (d - 40) else d * 144 + (goodTiles s d).headD 0

/-- A die takes TSYNC: it records its offset and slews, steps or holds (R176). -/
def takeTsync (s : State) (d : Nat) (rootTime : Nat) : State :=
  if (dieOf s d).region then
    let k := dieNode s d
    let off : Int := (gtimeOf s d : Int) - (rootTime + pathDelay treeFuel s k / 10 : Nat)
    let s1 := setFld s (ncbReg d 0x20) 15 0 (off % 65536).toNat
    let now := offsetOf s d
    let x := dieOf s1 d
    let s2 := if off < -20 then setDie s1 d { x with offset := now - off, slew := 0, slewFrom := s.now }
      else setDie s1 d { x with offset := now, slew := -off, slewFrom := s.now }
    if off < -20 ∨ 20 < off then
      sendReport (setBit s2 (ncbReg d 0x20) 16) k ((partOfDie s d).getD 0) d .timeFault off.natAbs
    else s2
  else s

/-! ### Meanings -/

/-- REPORT (R172). -/
def execReport (n : SigNode) (part : PartId) (id : BitVec 13) (what : ReportWhat) (count : BitVec 4) (detail : Lane) (s : State) :
    Host.Outcome State Fault Refusal :=
  .next (if (dieOf s (nodeDie (nodeKey n))).region then startReport s (nodeKey n) ⟨part, id, what, count, detail⟩ else s)

/-- RED_OR (R172, R227). -/
def execRedOr (n : SigNode) (part : PartId) (source : Contributor) (bits : Lane) (s : State) : Host.Outcome State Fault Refusal :=
  .next (let k := nodeKey n
    if mayContribute s k part.val source then addOr treeFuel s k part.val source (ownOr s k part.val source bits) else s)

/-- RED_CPSUM (R172, R227). -/
def execRedCpsum (n : SigNode) (part : PartId) (source : Contributor) (hi lo : Lane) (s : State) : Host.Outcome State Fault Refusal :=
  .next (let k := nodeKey n
    let v := ownCp s k part.val source hi lo
    if mayContribute s k part.val source then addCp treeFuel s k part.val source v.1 v.2 else s)

/-- RED_RESULT (R171): a station die keeps it in GUARD_LAST; a tile's node only passes it on. -/
def execRedResult (n : SigNode) (part : PartId) (bits hi _lo : Lane) (s : State) : Host.Outcome State Fault Refusal :=
  .next (match n with
    | .tile _ => s
    | .station k => setFld (setFld s (psbPart k.val part.val 0x28) 31 0 hi.toNat) (psbPart k.val part.val 0x28) 32 32 (bits.toNat % 2))

/-- TSYNC_TICK (R175): the root sends TSYNC, every 1 ms. In bring-up the first one, on a valid tree, ends stage 4 (Table 11.1). -/
def execTsyncTick (s0 : State) : Host.Outcome State Fault Refusal :=
  .next (
    let s1 := waitUntil s0 s0.m.power.tsyncAt
    let s := updM s1 (fun m => { m with power := { m.power with tsyncAt := s1.now + 1000000 } })
    if stageOf s = 4 ∧ fld s modStatus 1 1 = 0 ∧ bits (nodeStatus s (rootNode s)) 7 7 = 1 then setFld s modStatus 7 4 5 else s)

/-- TSYNC (R175, R176). -/
def execTsync (d : DieId) (rootTime : Word) (s : State) : Host.Outcome State Fault Refusal := .next (takeTsync s d.val rootTime.toNat)

/-- ECHO (R175): half the round trip less the turnaround, in units of 0.1 ns. -/
def execEcho (d : DieId) (edge : Edge) (roundTrip turnaround : Nat) (s : State) : Host.Outcome State Fault Refusal :=
  .next (
    let e := edgeNum edge
    setFld s (ncbReg d.val 0x28) (16 * e + 15) (16 * e) ((roundTrip - turnaround) / 2))

/-- DISCOVER (R291). -/
def execDiscover (n : SigNode) (inPort : Fin 5) (prio : BitVec 2) (station : BitVec 3) (hops : BitVec 8) (s : State) :
    Host.Outcome State Fault Refusal :=
  .next (discover s (nodeKey n) inPort.val ⟨prio, station, hops⟩)

/-- TREE_QUIET_TIMER (R291). -/
def execTreeQuietTimer (n : SigNode) (s : State) : Host.Outcome State Fault Refusal := .next (treeQuiet s (nodeKey n))

/-- SIGNAL_PARITY_ERROR (R171, R174): a message arrives at a port with a bad parity, or whole and with a kind, OP or DIR that is reserved, which the
node discards and counts alike. -/
def execSignalParityError (at_ : SigPort) (w : SigWord) (s : State) : Host.Outcome State Fault Refusal :=
  .next (let k := nodeKey at_.node
    if !(dieOf s (nodeDie k)).region then s
    else if w.reserved then countDiscard s k
    else parityError s k at_.port.val w.msg)

/-- TRIG (R170, R179): from a node to a good tile. -/
def execTrig (way : SigWay) (counter : BitVec 6) (inc : BitVec 16) (s : State) : Host.Outcome State Fault Refusal :=
  .next (if sigReaches sigFuel s (nodeKey way.src) (way.t.val / 144) (way.t.val % 144) && goodTile s way.t.val then cntInc s way.t.val counter.toNat inc.toNat else s)

end Sys2Proof.Machine
end

