-- ==== Sys2Proof/Machine/Lifecycle.lean ====
section
/-!
DEFINITION. The module as a whole going down and coming up: what a module reset and M2 leave, the start of bring-up, and of a power-loss flush
(R270, R282, R288, R294, R302, R304, R305, R310, Table 11.7).

What the spec leaves open here: log entries 52, 59, 60 and 105.
-/

namespace Sys2Proof.Machine

/-! ### What survives (Table 11.7, columns Module rst, M1 and M2) -/

/-- Registers that the lamp domain and the power plate hold for S0: feeds, converters, and the Mere's voltage. -/
def lampKeys : List Nat := [s0Power 0x800, s0Power 0x810, s0Power 0x818]

/-- What of MERE_STAT the lamp domain knows: the voltage and whether the charger runs. -/
def lampWord (key : Nat) (w : Word) : Word := if key = s0Power 0x818 then w &&& (0xBFF : Word) else w

/-- The Peat of a station die through a module reset: extents, journal with the updates it still has to finish, ledger and power-loss image
stay. -/
def keptStation (x : Station) : Station :=
  { Station.reset with
    map := x.map, flash := x.flash, loose := x.loose, erased := x.erased, retired := x.retired, nandFail := x.nandFail, lost := x.lost
    journal := x.journal, ledger := x.ledger, ploss := x.ploss, updates := x.updates, retires := x.retires }

/-- A die through a module reset: its account and nothing else. -/
def keptDie (x : Die) : Die := { Die.reset with life := x.life }

/-- Memory outside the dies, which is host memory. -/
def hostCells (cells : List Host.Cell) : List Host.Cell := cells.filter (fun c => decide (8 * 2 ^ 52 ≤ c.1))

/-- The undefined ranges that host memory has. -/
def hostUndef (undef : List (Nat × Nat × Nat)) : List (Nat × Nat × Nat) := undef.filter (fun u => decide (8 * 2 ^ 52 < u.2.1))

/-- A port through a module reset: the level of its PERSTn# and what it has put on its link. -/
def keptPort (x : Port) : Port := { Port.reset with perst := x.perst, msix := x.msix, aerUr := x.aerUr }

/-- Every region off and everything reset that does not survive a module reset. -/
def wipeModule (s0 : State) : State :=
  let s := forEach (List.range 48) s0 (fun s d => if (dieOf s d).region then dieOff s d else s)
  let z := State.reset
  let s1 : State := { z with
    pending := s.pending
    vco := s.vco
    gtimeBase := s.gtimeBase
    fresh := s.fresh + 1
    regs := spMap (fun k v =>
      if lampKeys.contains k then (let w := lampWord k v; if w = regReset k then none else some w) else none) s.regs
    cells := hostCells s.cells
    undef := (0, 2 ^ 52, s.fresh) :: hostUndef s.undef
    dies := spMap (fun _ x => let y := keptDie x; if y = Die.reset then none else some y) s.dies
    stations := spMap (fun _ x => let y := keptStation x; if y = Station.reset then none else some y) s.stations
    ports := spMap (fun _ x => let y := keptPort x; if y = Port.reset then none else some y) s.ports }
  let r := s.m.reedline
  let c := s.m.census
  updM s1 (fun m => { m with
    fuses := s.m.fuses
    fencedTiles := s.m.fencedTiles
    fencedDies := s.m.fencedDies
    nss := s.m.nss
    tap := s.m.tap
    reedline := { m.reedline with sent := r.sent }
    census := { m.census with sweep := c.sweep }
    power := { s.m.power with
      regionN := 0, expect := none, fuseRead := false, fwVer := 0, pwrgd := false, pwrfail := false, lanes := [], alertCoolant := s.m.power.alertCoolant } })

/-! ### Stages (R288, Table 11.1) -/

/-- Set MOD_STATUS.STAGE. -/
def setStage (s : State) (n : Nat) : State := setFld s modStatus 7 4 n

/-- Whether bring-up works on a stage and has not failed. -/
def atStage (s : State) (n : Nat) : Bool := decide (stageOf s = n ∧ fld s modStatus 1 1 = 0 ∧ s.m.power.phase = .bringup)

/-- Key of MOD_STATE. -/
def modState : Nat := s0Health 0xF100

/-- Bring-up starts at a stage with a wake cause (R288, R310): the bank is charged, or discharged first where it reads 50 V or more (R277). -/
def beginBringup (s : State) (stage wake : Nat) : State :=
  let s1 := setFld (setStage s stage) modState 4 2 wake
  let full := decide (500 ≤ fld s1 (s0Power 0x818) 9 0)
  let s2 := setFld s1 (s0Power 0x818) 11 11 (b2n !full)
  updM s2 (fun m => { m with power := { m.power with
    phase := .bringup, mere := if full then .discharging else .charging, byOff := false, wakeAsked := false
    bootAt := s.now } })

/-- The order in which regions start (R270). -/
def regionOrder : List Nat := [40, 44, 41, 42, 43, 45, 46, 47] ++ List.range 40

/-! ### M2 and power loss (R282 to R285, R302, R304) -/

/-- Enter M2: only the lamp domain runs. -/
def enterM2 (s : State) (byOff : Bool) : State :=
  updM (wipeModule s) (fun m => { m with power := { m.power with phase := .lampOnly, byOff := byOff, pwrgd := false } })

/-- Whether a partition's resident bank is to be flushed: it is admitted and RES_SAVED for its committed step is not durable. -/
def needsFlush (s : State) (p : Nat) : Bool := decide (fld s (partReg p 0x18) 63 32 ≠ 0) && !((partOf s p).resSaved)

/-- Whether a cluster holds data to flush: a good tile of it has a KEEP range, where resident banks lie, in a partition whose bank is not saved. -/
def holdsData (s : State) (d c : Nat) : Bool :=
  (match partOfDie s d with
   | some p => needsFlush s p
   | none => false) && (clusterTiles d c).any (fun t => goodTile s t && !((keepRanges s t).isEmpty))

/-- At the trip a cluster with data to flush keeps its banks and NI on a G4 clock; every other one enters C3 (R282). -/
def tripCluster (s : State) (d c : Nat) : State :=
  if holdsData s d c then switchGear s d c 4 else if clusterState s d c = 3 then s else clusterOff s d c 3

/-- Start a power-loss flush. `trip`: the lamp comparator's (R282), where compute clocks stop and every cluster without data to flush
enters C3. -/
def beginFlush (s : State) (trip : Bool) : State :=
  let s1 := forEach ((List.range 40).filter (fun d => (dieOf s d).region)) s (fun s d => forEach (tilesOfDie s d) s charge)
  let s1a := forEach (List.range 8) s1 (fun s n => updStation s n (fun x => { x with ploss := x.ploss.bind (fun i => if i.closed then some i else none) }))
  let s2 := updM s1a (fun m => { m with power := { m.power with
    phase := .flushing, pwrfail := trip, tripAt := s.now, rolled := false, returned := false } })
  if trip then
    let s3 := alarm (setFld (updM s2 (fun m => { m with power := { m.power with mere := .discharging } })) (s0Power 0x818) 11 11 0) 0x12 none 0
    forEach ((List.range 40).filter (fun d => (dieOf s d).region)) s3 (fun s d => forEach (List.range 16) s (fun s c => tripCluster s d c))
  else s2

/-- Whether the module is powered beyond its lamp domain. -/
def powered (s : State) : Bool := decide (s.m.power.phase = .bringup ∨ s.m.power.phase = .running ∨ s.m.power.phase = .standby)

/-- A MODULE event of the supply or the Mere: the spec gives its code and value no number, so they are free. -/
def supplyEvent (s : State) : State :=
  let f := takeFree s
  moduleEvent f.1 (f.2.toNat % 64) (f.2.toNat / 64 % 2 ^ 24)

end Sys2Proof.Machine
end

