-- ==== Sys2Proof/Machine/Mere.lean ====
section
/-!
DEFINITION. The Mere's measurement and estimates (R277, R278), and the timetable (R251 to R253, R281).

What the spec leaves open here: log entries 47 and 57.
-/

namespace Sys2Proof.Machine

/-! ### The timetable (R251 to R253) -/

/-- The partitions by rank: class A by admission number, then class B. -/
def ranked (s : State) : List Nat :=
  let byAdmit (l : List Nat) : List Nat := l.foldl (fun r p =>
    r.takeWhile (fun q => decide (fld s (partReg q 0) 63 32 < fld s (partReg p 0) 63 32)) ++ [p]
      ++ r.dropWhile (fun q => decide (fld s (partReg q 0) 63 32 < fld s (partReg p 0) 63 32))) []
  byAdmit ((allParts s).filter (fun p => decide (fld s (partReg p 0) 1 1 = 0)))
    ++ byAdmit ((allParts s).filter (fun p => decide (fld s (partReg p 0) 1 1 = 1)))

/-- A partition's guarantee on a resource: its minimum (power in W, the others in percent), or its admitted Mere request. -/
def guarantee (s : State) (p r : Nat) : Nat :=
  match r with
  | 0 => fld s (partReg p 8) 31 16 * 10
  | 1 => fld s (partReg p 0x18) 63 32
  | 2 => fld s (partReg p 8) 7 0
  | 3 => fld s (partReg p 8) 15 8
  | _ => fld s (partReg p 8) 39 32

/-- Whether a partition's guarantee on a resource is withdrawn. -/
def withdrawn (s : State) (p r : Nat) : Bool := (fld s (partReg p 0x10) 7 3).testBit r

/-- Whether the guarantees of some partitions fit a capacity; for the Mere, in J, their flush fits 80% of it (R280, R281). -/
def guaranteesFit (s : State) (ps : List Nat) (r capacity : Nat) : Bool :=
  if r = 1 then
    (let rs := (ps.map (residentOf s)).filter (fun x => decide (x.1 ≠ 0))
     rs.isEmpty || flushFits rs 8 10 capacity)
  else decide ((ps.map (fun p => guarantee s p r)).foldl (fun a b => a + b) 0 ≤ capacity)

/-- Withdraw a guarantee. For the Mere the partition stops at its next step boundary, or once it is loaded, or now when it is idle (R253). -/
def withdraw (s : State) (p r : Nat) : State :=
  let k := partReg p 0x10
  let s1 := partEvent (setFld s k 7 3 (fld s k 7 3 ||| 2 ^ r)) p 0x05 r
  if r ≠ 1 then s1
  else if (partOf s1 p).invoke.isSome || decide (partState s1 p = 2) then updPart s1 p (fun x => { x with stopAt := some 1 })
  else endAdmission (stopPart s1 p 1) p

/-- Restore a guarantee; a Mere admission comes back whole. -/
def restore (s : State) (p r : Nat) : State :=
  let k := partReg p 0x10
  let s1 := partEvent (setFld s k 7 3 (fld s k 7 3 &&& (31 - 2 ^ r))) p 0x06 r
  if r ≠ 1 then s1
  else setBudget (setFld (updPart s1 p (fun x => { x with stopAt := none })) (partReg p 0x18) 63 32 (fld s1 (partReg p 0x18) 31 0))

/-- The partitions that hold a guarantee on a resource now, or would hold one. -/
def holders (s : State) (r : Nat) : List Nat :=
  (ranked s).filter (fun p => if r = 1 then decide (fld s (partReg p 0x18) 31 0 ≠ 0) else decide (guarantee s p r ≠ 0))

/-- Withdraw from the lowest rank upward until the rest fit. -/
def withdrawUntil : List Nat → State → Nat → Nat → State
  | [], s, _, _ => s
  | p :: up, s, r, capacity =>
    let rest := (holders s r).filter (fun q => !(withdrawn s q r))
    if guaranteesFit s rest r capacity then s
    else withdrawUntil up (if withdrawn s p r then s else withdraw s p r) r capacity

/-- Restore from the highest rank downward, each only if it fits. -/
def restoreFitting : List Nat → State → Nat → Nat → State
  | [], s, _, _ => s
  | p :: down, s, r, capacity =>
    let now := (holders s r).filter (fun q => !(withdrawn s q r))
    restoreFitting down
      (if withdrawn s p r && guaranteesFit s (now ++ [p]) r capacity then restore s p r else s) r capacity

/-! ### Meanings -/

/-- MERE_DISCHARGE_DONE (R277): at 48 V the charger starts. -/
def execMereDischargeDone (s : State) : Host.Outcome State Fault Refusal :=
  .next (if s.m.power.mere = .discharging ∧ s.m.power.phase ≠ .flushing then
    updM (setFld (setFld s mereStat 9 0 480) mereStat 11 11 1) (fun m => { m with power := { m.power with mere := .charging } })
  else s)

/-- MERE_MEASUREMENT (R277): the charge time from 50 to 90 V gives the capacitance, 10 A × Δt / 40 V. -/
def execMereMeasurement (chargeMs : Nat) (s : State) : Host.Outcome State Fault Refusal :=
  .next (if s.m.power.mere = .charging then
    (let c := min (chargeMs / 4) 65535
     setFld (setFld (setFld (setFld s mereCap 47 32 c) mereCap 31 0 (usableJ c)) mereStat 10 10 1) mereStat 9 0 900)
  else s)

/-- MERE_FULL_CHARGE (R278): at V_FULL charging stops and Q := c × 60 V. -/
def execMereFullCharge (s : State) : Host.Outcome State Fault Refusal :=
  .next (if s.m.power.mere = .charging then
    updM (setFld (setFld s mereStat 9 0 1000) mereStat 11 11 0) (fun m => { m with power := { m.power with
      mere := .idle, charge := ((fld s mereCap 47 32 * 60000 : Nat) : Int) } })
  else s)

/-- MERE_ESTIMATE_TICK (R278, R285): the voltage and the charge of the tick give E_V, E_Q and AVAIL_J; an empty bank stops a flush, whose image is
then ignored. -/
def execMereEstimateTick (decivolts : BitVec 10) (microcoulombs : Int) (s0 : State) : Host.Outcome State Fault Refusal :=
  .next (
    let s00 := waitUntil s0 s0.m.power.mereAt
    let s := updM s00 (fun m => { m with power := { m.power with mereAt := s00.now + 1000000 } })
    let dv := decivolts.toNat
    let q := s.m.power.charge + microcoulombs
    let c := fld s mereCap 47 32
    let ev := energyV c dv
    let eq := energyQ c q
    let s1 := setFld (updM s (fun m => { m with power := { m.power with charge := q } })) mereStat 9 0 dv
    let s2 := wr s1 (s0Power 0x828) (BitVec.ofNat 64 (ev % 2 ^ 32 + eq % 2 ^ 32 * 2 ^ 32))
    let detail (s : State) : Nat := fld s mereStat 13 13 + 2 * fld s mereStat 12 12 + fld s mereStat 63 32 % 2 ^ 16 * 2 ^ 16
    if dv ≤ 400 then
      (let s3 := setFld (setFld s2 mereStat 63 32 0) mereStat 12 12 1
       let s4 := if fld s mereStat 12 12 = 1 then s3 else alarm s3 0x05 none (detail s3)
       if s.m.power.phase = .flushing ∧ s.m.power.mere = .discharging then
         enterM2 (updM s4 (fun m => { m with power := { m.power with
           flushUs := BitVec.ofNat 32 ((s.now - s.m.power.tripAt) / 1000) } })) false
       else s4)
    else
      let s3 := setFld s2 mereStat 12 12 0
      if (max ev eq) < 10 * (max ev eq - min ev eq) then
        (let s4 := setFld (setFld s3 mereStat 63 32 (min ev eq)) mereStat 13 13 1
         let s5 := supplyEvent s4
         if fld s mereStat 13 13 = 1 then s5 else alarm s5 0x05 none (detail s5))
      else setFld s3 mereStat 63 32 ev)

end Sys2Proof.Machine
end

