-- ==== Sys2Proof/Machine/Supply.lean ====
section
/-!
DEFINITION. Feeds, converters, region regulators, sensor loops, gears and POWER messages (R261 to R269, R272, R274).

What the spec leaves open here: log entries 8, 39, 53, 54, 55 and 106.
-/

namespace Sys2Proof.Machine

/-! ### Feeds and converters (R261 to R263) -/

/-- Whether a feed of a voltage in 0.1 V is within range. -/
def feedOk (dv : Nat) : Bool := decide (460 ≤ dv ∧ dv ≤ 600)

/-- Key of MPWR_IN. -/
def mpwrIn : Nat := s0Power 0x800

/-- Whether a feed of a voltage carries load beside another: within range, or at 44 V at least with neither within range (R261, R262). -/
def carries (dv other : Nat) : Bool := feedOk dv || (!(feedOk other) && decide (440 ≤ dv))

/-- How the feeds share the load, in percent: a feed that alone carries load takes it all, else both share it. -/
def shareLoad (s : State) : State :=
  let p := s.m.power
  let a := carries p.feedA p.feedB
  let b := carries p.feedB p.feedA
  updM s (fun m => { m with power := { m.power with
    shareA := if a == b then 50 else if a then 100 else 0
    shareB := if a == b then 50 else if b then 100 else 0 } })

/-- A feed reads a voltage: MPWR_IN and the sharing follow. -/
def setFeed (s : State) (feedB : Bool) (dv : Nat) : State :=
  let had := feedOk s.m.power.feedA || feedOk s.m.power.feedB
  let s1 := updM s (fun m => { m with power :=
    let p := if feedB then { m.power with feedB := dv } else { m.power with feedA := dv }
    { p with inputAt := if feedOk dv && !had then s.now else p.inputAt } })
  let s2 := if feedB then setFld (setFld s1 mpwrIn 19 10 dv) mpwrIn 41 41 (b2n (feedOk dv))
    else setFld (setFld s1 mpwrIn 9 0 dv) mpwrIn 40 40 (b2n (feedOk dv))
  shareLoad s2

/-- A feed leaves its range: the MODULE event and the FEED alarm, and for a low one INPUT_LOW (R261, R262). -/
def feedOut (s : State) (feedB : Bool) (dv : Nat) : State :=
  if feedOk dv then s
  else
    let s1 := supplyEvent (setFeed s feedB dv)
    let s2 := alarm s1 0x01 none (fld s1 mpwrIn 41 40)
    if 440 ≤ dv ∧ dv < 460 then alarm (supplyEvent s2) 0x02 none (min s2.m.power.feedA s2.m.power.feedB) else s2

/-- The power that the feeds carry at 540 A each, in 10 W (R262). -/
def feedCap (s : State) : Nat :=
  let p := s.m.power
  let a := carries p.feedA p.feedB
  let b := carries p.feedB p.feedA
  if a == b then 2 * (540 * min p.feedA p.feedB / 100) else 540 * (if a then p.feedA else p.feedB) / 100

/-- The bus converters that work. -/
def convertersOk (s : State) : Nat := ((List.range 10).filter (fun i => bit (rd s (s0Power 0x810)) i)).length

/-- The cap that the governor applies, in 10 W: the lowest of the facility's, the feeds', the converters' and the coolant's (R262, R263, R339). -/
def effectiveCap (s : State) : Nat :=
  min (min (fld s (s0Power 0x808) 15 0) (feedCap s)) (min (if convertersOk s = 8 then 2300 else 2600) s.m.power.coolCap)

/-! ### Phases (R264, R265, Table 10.2) -/

/-- The phases of a die. -/
def phaseCount (d : Nat) : Nat := if d < 40 then 24 else 12

/-- Whether a station die's hottest sensor holds it at half rate (Table 13.10). -/
def hotHalf (s : State) (d : Nat) : Bool :=
  decide (40 ≤ d) && (List.range 8).any (fun i => decide (100 ≤ fld s (healthReg d 8) (8 * i + 7) (8 * i)))

/-- PWR_STAT.HALF of a station die: 10 phases, or 100 °C and above. -/
def setHalf (s : State) (d : Nat) : State :=
  if 40 ≤ d then setFld s (powerReg d 0) 24 24 (b2n (decide (fld s (powerReg d 0) 4 0 = 10) || hotHalf s d)) else s

/-- What the active phases mean for a die (Table 10.2). -/
def phaseOutcome (s : State) (d : Nat) : State :=
  let n := fld s (powerReg d 0) 4 0
  if d < 40 then
    if n < 18 then fenceDie (setBit s (powerReg d 0x30) 1) d 2
    else if n < 22 then slowGears (setBit (setFld s (powerReg d 0) 22 20 (gearMaxOf n)) (powerReg d 0x30) 1) d
    else s
  else if n < 10 then fenceDie (setBit s (powerReg d 0x30) 1) d 2
  else if n < 11 then setHalf (setBit s (powerReg d 0x30) 1) d
  else s

/-- A phase is disabled (R264): ILIM, PWR_STAT, PWR_PHASE, the first one in PWR_PHLOG, PHASE_FAULT, the REPORT to the owning hosts, for a station die
those of every partition, the ledger and the alarm. A
disabled or absent phase and the reserved reason change nothing. -/
def phaseFault (s : State) (d phase reason : Nat) : State :=
  if (dieOf s d).region = false ∨ phaseCount d ≤ phase ∨ bit (rd s (powerReg d 0x20)) phase = true ∨ 3 ≤ reason then s
  else
    let s1 := setBit s (powerReg d 0x20) phase
    let s2 := setPhases s1 d (activePhases s1 d)
    let rec_ := phase + reason * 32 + gtimeOf s d % 2 ^ 48 * 256 + 2 ^ 63
    let s3 := if bit (rd s2 (powerReg d 0x28)) 63 then s2 else wr s2 (powerReg d 0x28) (BitVec.ofNat 64 rec_)
    let s4 := setBit s3 (powerReg d 0x30) 0
    let s5 := forEach (if d < 40 then (partOfDie s d).toList else allParts s) s4 (fun s p => sendReport s (dieNode s d) p d .phaseFault phase)
    let x := dieOf s5 d
    let l := x.life
    let s6 := setDie s5 d { x with life := { l with faults := l.faults + 1 } }
    phaseOutcome (alarm (ledger s6 d 7 [rec_]) 0x0A none (d + phase * 64 + reason * 2 ^ 11)) d

/-! ### Gears (R264, R268) -/

/-- Set the governor's gear of a die. -/
def setDieGear (s : State) (d g : Nat) : State := setDie s d { dieOf s d with dieGear := min 4 g }

/-- Set the governor's gear of a cluster; slower takes effect at once. -/
def setGov (s : State) (d c g : Nat) : State :=
  let x := dieOf s d
  slowGears (setDie s d { x with govGear := spSet x.govGear 0 c (min 4 g) }) d

/-- Every cluster of a die steps one gear slower. -/
def stepSlower (s : State) (d : Nat) : State :=
  let fastest := ((List.range 16).map (gearOf s d)).foldl min 4
  forEach (List.range 16) (setDieGear s d (fastest + 1)) (fun s c => setGov s d c (gearOf s d c + 1))

/-- Key of CL_VCL. -/
def clVcl (d c : Nat) : Nat := clusterReg d c 8

/-- Record a cluster's lowest margin; the die's own lowest and the day's follow (R266, Table 12.2). The sensor within the cluster is not known
and its number is a free value. -/
def setMargin (s : State) (d c margin : Nat) : State :=
  let s1 := setFld s (clVcl d c) 31 16 margin
  let ms := (List.range 16).map (fun k => (fld s1 (clVcl d k) 31 16, k))
  let low := ms.foldl (fun a b => if b.1 < a.1 then b else a) (margin, c)
  let f := takeFree s1
  let h := healthReg d 0x18
  let s2 := setFld (setFld f.1 h 15 0 low.1) h 23 16 (16 * low.2 + f.2.toNat % 16)
  setFld s2 h 47 32 (min (fld s2 h 47 32) low.1)

/-- The cluster regulator's loop (R266): below target VCL rises 5 mV, more than 10 mV above it falls 5 mV; at 0.86 V and still below target
the cluster steps one gear slower. -/
def marginLoop (s : State) (d c margin : Nat) : State :=
  let tgt := fld s (powerReg d 0x18) 15 8
  let s1 := setMargin s d c margin
  let v := fld s1 (clVcl d c) 5 0
  if margin < tgt then
    (if v < 52 then setFld s1 (clVcl d c) 5 0 (v + 1) else setGov s1 d c (gearOf s1 d c + 1))
  else if tgt + 10 < margin then setFld s1 (clVcl d c) 5 0 (v - 1)
  else s1

/-- The die regulator's loop (R266): VDIE rises while the lowest headroom is below target and falls when it is more than 20 mV above. The
spec gives no step: the new VDIE is a free value on that side, within 0.70 to 0.90 V. -/
def dieLoop (s : State) (d dropout : Nat) : State :=
  let k := powerReg d 8
  let vdie := fld s k 9 0
  let on := (List.range 16).filter (fun c => decide (clusterState s d c = 0))
  let high := (on.map (fun c => 600 + 5 * fld s (clVcl d c) 5 0)).foldl max 0
  let room := vdie - high - dropout
  let tgt := fld s (powerReg d 0x18) 23 16
  let s1 := setFld s k 19 10 room
  let f := takeFree s1
  if room < tgt ∧ vdie < 900 then
    (let lo := max (vdie + 1) 700
     setFld f.1 k 9 0 (lo + f.2.toNat % (901 - lo)))
  else if tgt + 20 < room ∧ 700 < vdie then setFld f.1 k 9 0 (700 + f.2.toNat % (min vdie 901 - 700))
  else s1

/-- A droop (R267, R68): the stretched periods are counted for the cluster and its running tiles. -/
def droop (s : State) (d c periods : Nat) : State :=
  let s1 := setBit (addFld s (clPwr d c) 63 32 periods) (powerReg d 0x30) 3
  forEach (clusterTiles d c) s1 (fun s t =>
    if (tileOf s t).running then updTile (addStretch s t periods) t (fun x => { x with stallAt := x.stallAt + periods }) else s)

/-- A faster gear (R268): VCL first rises 25 mV for each gear step, and the divider switches once the margin is at its target. -/
def raiseGear (s : State) (d c margin : Nat) : State :=
  let g := gearOf s d c
  let w := wantedGear s d c
  if w < g then
    let v := fld s (clVcl d c) 5 0
    let s1 := setMargin (setFld s (clVcl d c) 5 0 (min 52 (v + 5 * (g - w)))) d c margin
    if fld s (powerReg d 0x18) 15 8 ≤ margin then switchGear s1 d c w else s1
  else s

/-! ### POWER messages (R274) -/

/-- The clusters of a mask. -/
def maskClusters (m : BitVec 16) : List Nat := (List.range 16).filter (fun c => m.getLsbD c)

/-- Whether a POWER message is well-formed for its die: its ARG not reserved, and no CLUSTERS on a station die. -/
def powerOk (d : Nat) (q : PowerMsg) : Bool :=
  let a := q.arg.toNat
  (match q.op with
   | 1 => decide (a ≤ 4)
   | 2 => decide (a = 0 ∨ a = 2 ∨ a = 3)
   | 3 => decide (a ≤ 1)
   | 4 => decide (a ≤ 4)
   | _ => false)
  && (decide (d < 40 ∨ q.op = 3) || decide (q.clusters = 0))

/-- Apply a POWER message. -/
def applyPower (s : State) (d : Nat) (q : PowerMsg) : State :=
  let a := q.arg.toNat
  match q.op with
  | 1 => forEach (maskClusters q.clusters) (if q.clusters = 0xFFFF then setDieGear s d a else s) (fun s c => setGov s d c a)
  | 2 => forEach (maskClusters q.clusters) s (fun s c =>
      if a = 0 then (if clusterState s d c = 0 then s else clusterOn s d c)
      else if spGet (dieOf s d).cstate 0 c = a then s else clusterOff s d c a)
  | 3 => if a = 1 then (if (dieOf s d).region ∨ s.m.fencedDies.contains d then s else dieOn s d)
      else if (dieOf s d).region then dieOff s d else s
  | 4 => if d < 40 then slowGears (setFld s (powerReg d 0) 22 20 a) d else s
  | _ => s

/-- A POWER message with bits [31:30] `pad` of word 1 reaches a die: it applies at T, at once for a T of 0. A bad one is discarded and counted in
the node's SIG_ERR.PARITY. -/
def powerMessage (s : State) (d : Nat) (q : PowerMsg) (pad : BitVec 2) : State :=
  if !(powerOk d q && decide (pad = 0)) then countDiscard s (dieNode s d)
  else if q.at_ ≤ s.now then applyPower s d q
  else setDie s d { dieOf s d with powerQ := (dieOf s d).powerQ ++ [q] }

/-- POWER messages whose time has come apply, in the order in which they came. -/
def duePower (s : State) (d : Nat) : State :=
  let l := (dieOf s d).powerQ
  forEach (l.filter (fun q => decide (q.at_ ≤ s.now))) (setDie s d { dieOf s d with powerQ := l.filter (fun q => decide (s.now < q.at_)) })
    (fun s q => applyPower s d q)

/-- One VCO period passes with no command: POWER messages that fall due apply, and the channels program what waits in the write buffers. -/
def tick (s : State) : State :=
  let s1 := { s with vco := s.vco + 1 }
  serveBuffers (forEach ((s1.dies.filter (fun x => x.2.powerQ.any (fun q => decide (q.at_ ≤ s1.now)))).map (fun x => x.1)) s1 duePower)

/-! ### Meanings -/

/-- FEED_OUT_OF_RANGE (R261, R262). -/
def execFeedOutOfRange (feedB : Bool) (decivolts : BitVec 10) (s : State) : Host.Outcome State Fault Refusal :=
  .next (feedOut s feedB decivolts.toNat)

/-- FEED_RETURN (R261, R285): a feed within range for 100 ms; during a flush this is kept for PLOSS_LAST. -/
def execFeedReturn (feedB : Bool) (decivolts : BitVec 10) (s : State) : Host.Outcome State Fault Refusal :=
  .next (if feedOk decivolts.toNat then
    (let s1 := setFeed s feedB decivolts.toNat
     if s1.m.power.phase = .flushing then updM s1 (fun m => { m with power := { m.power with returned := true } }) else s1)
  else s)

/-- FEED_OVERCURRENT (R276): every compute die steps one gear slower. -/
def execFeedOvercurrent (feedB : Bool) (amps : BitVec 10) (s : State) : Host.Outcome State Fault Refusal :=
  .next (
    let s1 := if feedB then setFld s mpwrIn 39 30 amps.toNat else setFld s mpwrIn 29 20 amps.toNat
    if 540 < amps.toNat then forEach ((List.range 40).filter (fun d => (dieOf s1 d).region)) s1 stepSlower else s1)

/-- BUS_CONVERTER_FAIL (R263): with 8 left the cap falls, with fewer the power-loss sequence starts. -/
def execBusConverterFail (converter : Fin 10) (s : State) : Host.Outcome State Fault Refusal :=
  .next (
    if bit (rd s (s0Power 0x810)) converter.val then
      let s1 := setFld s (s0Power 0x810) converter.val converter.val 0
      let s2 := alarm s1 0x03 none (fld s1 (s0Power 0x810) 9 0)
      if convertersOk s2 < 8 ∧ powered s2 = true then beginFlush s2 true else s2
    else s)

/-- PHASE_FAULT (R264, R265). -/
def execPhaseFault (d : DieId) (phase : Fin 24) (reason : BitVec 2) (s : State) : Host.Outcome State Fault Refusal :=
  .next (phaseFault s d.val phase.val reason.toNat)

/-- ILIM_HIT (R264). -/
def execIlimHit (d : DieId) (s : State) : Host.Outcome State Fault Refusal :=
  .next (let s1 := setBit s (powerReg d.val 0x30) 2
    if d.val < 40 then stepSlower s1 d.val else s1)

/-- CLUSTER_MARGIN_LOOP (R266). -/
def execClusterMarginLoop (d : ComputeDie) (cluster : Fin 16) (margin : BitVec 16) (s : State) : Host.Outcome State Fault Refusal :=
  .next (marginLoop s d.val cluster.val margin.toNat)

/-- DIE_REGULATOR_LOOP (R266). -/
def execDieRegulatorLoop (d : ComputeDie) (dropout : Nat) (s : State) : Host.Outcome State Fault Refusal := .next (dieLoop s d.val dropout)

/-- DROOP (R267). -/
def execDroop (d : ComputeDie) (cluster : Fin 16) (periods : Nat) (s : State) : Host.Outcome State Fault Refusal :=
  .next (droop s d.val cluster.val periods)

/-- GEAR_RAISE_SWITCH (R268). -/
def execGearRaiseSwitch (d : ComputeDie) (cluster : Fin 16) (margin : BitVec 16) (s : State) : Host.Outcome State Fault Refusal :=
  .next (raiseGear s d.val cluster.val margin.toNat)

/-- OSCILLATOR_SWITCH (R272). -/
def execOscillatorSwitch (s : State) : Host.Outcome State Fault Refusal :=
  .next (updM s (fun m => { m with power := { m.power with osc := !m.power.osc } }))

/-- POWER_GEAR (R274). -/
def execPowerGear (d : PowerTo) (clusters : BitVec 16) (arg : BitVec 4) (at_ : Word) (s : State) : Host.Outcome State Fault Refusal :=
  .next (powerMessage s d.die.val ⟨1, clusters, arg, at_.toNat⟩ d.pad)

/-- POWER_CSTATE (R274). -/
def execPowerCstate (d : PowerTo) (clusters : BitVec 16) (arg : BitVec 4) (at_ : Word) (s : State) : Host.Outcome State Fault Refusal :=
  .next (powerMessage s d.die.val ⟨2, clusters, arg, at_.toNat⟩ d.pad)

/-- POWER_REGION (R274): it ignores CLUSTERS. -/
def execPowerRegion (d : PowerTo) (arg : BitVec 4) (at_ : Word) (s : State) : Host.Outcome State Fault Refusal :=
  .next (powerMessage s d.die.val ⟨3, 0, arg, at_.toNat⟩ d.pad)

/-- POWER_GEARMAX (R274). -/
def execPowerGearmax (d : PowerTo) (clusters : BitVec 16) (arg : BitVec 4) (at_ : Word) (s : State) : Host.Outcome State Fault Refusal :=
  .next (powerMessage s d.die.val ⟨4, clusters, arg, at_.toNat⟩ d.pad)

end Sys2Proof.Machine
end

