-- ==== Sys2Proof/Machine/PowerLoss.lean ====
section
/-!
DEFINITION. The loss of input power: trip, epochs completed, flush, and the wake after it (R27, R282 to R285, R302, R304, R335).

What the spec leaves open here: log entries 59, 60, 84, 90 and 105.
-/

namespace Sys2Proof.Machine

/-! ### Epochs at the trip (R284) -/

/-- Bring every unit that missed an epoch to the state that the epoch applied. -/
def resyncAll (s : State) : State :=
  let ts := s.tiles.filterMap (fun x => if x.2.missed.isSome then some x.1 else none)
  let ds := s.dies.filterMap (fun x => if x.2.epMissed.isSome then some x.1 else none)
  forEach ds (forEach ts s resyncTile) resyncDie

/-- Whether some unit missed an epoch that others applied. -/
def someMissed (s : State) : Bool := s.tiles.any (fun x => x.2.missed.any Armed.applied) || s.dies.any (fun x => x.2.epMissed.any Armed.applied)

/-- Whether an epoch has a COMMIT whose time has come. -/
def someDue (s : State) : Bool := s.m.epochs.any (fun e => match e.apply with
  | some T => decide (T ≤ s.now)
  | none => false)

/-- Apply every epoch whose time has come. -/
def applyDue (s : State) : State :=
  let s1 := forEach (List.range 8) s (fun s p => startEpoch (endEpoch (openGates (stepSkip (stepCommit s p) p) p) p) p)
  forEach (List.range 4) (routeGen (routeGen s1 0) 1) setPlanes

/-- Complete every epoch that any unit has applied, and drop the others. -/
def rollForward (s : State) : State :=
  let made := someDue s || someMissed s
  let s1 := resyncAll (applyDue s)
  updM s1 (fun m => { m with epochs := [], power := { m.power with rolled := m.power.rolled || made } })

/-! ### The flush (R283) -/

/-- A station die's part of the flush: the SHUTDOWN records of the dies it is home to, its write buffer with the tail of its journal, and the
resident banks whose RES_SAVED is not durable, every byte of them programmed. An image that no bring-up has applied yet stays. -/
def flushStation (s : State) (n : Nat) : State :=
  let mine := (List.range 48).filter (fun d => decide (homeOf d = n) && (dieOf s d).region)
  let s1 := drainBuffer (forEach mine s (fun s d => ledgerPeriod s d 2)) n
  let saved := ((allParts s1).filter (needsFlush s1)).map (fun p => (Fin.ofNat 8 p, (partOf s1 p).committed, setOnStation (residentOf s1 p) n))
  if (stationOf s1 n).ploss.isSome then s1
  else countWear (updStation s1 n (fun x => { x with ploss := some ⟨saved, false⟩ })) n ((saved.map (fun k => k.2.2)).foldl (fun a b => a + b) 0)

/-- Whether a station die has flushed, or has no power to. -/
def flushed (s : State) (n : Nat) : Bool := !((dieOf s (40 + n)).region) || (stationOf s n).ploss.isSome

/-- The clusters whose resident blocks go to station dies Sn and its opposite have been read: they enter C3, and a region whose clusters are
all off is switched off (R283). -/
def columnsOff (s : State) (n : Nat) : State :=
  let on (s : State) : List Nat := (List.range 40).filter (fun d => (dieOf s d).region)
  let s1 := if flushed s (n % 4) && flushed s (4 + n % 4) then
      forEach ((on s).filter (fun d => decide (d % 8 / 2 = n % 4))) s (fun s d => forEach (List.range 16) s (fun s c =>
        if clusterState s d c = 3 then s else clusterOff s d c 3))
    else s
  forEach ((on s1).filter (fun d => (List.range 16).all (fun c => decide (clusterState s1 d c = 3)))) s1 dieOff

/-! ### Waking (R285, R302, R304) -/

/-- Whether the coolant lets the module wake from M2. -/
def coolEnough (s : State) : Bool := decide (s.m.power.tIn ≤ 400)

/-- Wake from M2: bring-up from stage 1. MSTATE records M2. -/
def wakeM2 (s : State) (cause : Nat) : State := setFld (beginBringup s 1 cause) modState 1 0 2

/-- Wake from M1: bring-up from stage 1. What the region that stayed on holds is kept. -/
def wakeStandby (s : State) : State :=
  setFld (beginBringup (updM s (fun m => { m with power := { m.power with
    regionN := 0, regionAt := s.now, fuseRead := false, fwVer := 0, lanes := [] } })) 1 3) modState 1 0 0

/-- Whether a feed is within range. -/
def inputOk (s : State) : Bool := feedOk s.m.power.feedA || feedOk s.m.power.feedB

/-- A low on MOD_RESET# of some length ends (R294, R335). During a flush it waits as a wake; in M2 after OFF it is one; else it resets the
module. -/
def modReset (s : State) (lowNs : Nat) : State :=
  if lowNs < 10000 then s
  else match s.m.power.phase with
    | .off => s
    | .flushing => updM s (fun m => { m with power := { m.power with wakeAsked := true } })
    | .lampOnly =>
      if s.m.power.byOff then (if coolEnough s then wakeM2 s 2 else updM s (fun m => { m with power := { m.power with wakeAsked := true, byOff := false } }))
      else s
    | _ =>
      let s1 := forEach (List.range 48) (wipeModule s) (fun s d => setFld s (dieStateReg d) 13 11 5)
      beginBringup s1 1 2

/-! ### Meanings -/

/-- LAMP_TRIP (R282): the higher feed is below 44 V. -/
def execLampTrip (s : State) : Host.Outcome State Fault Refusal :=
  .next (if powered s ∧ max s.m.power.feedA s.m.power.feedB < 440 then beginFlush s true else s)

/-- POWER_LOSS (R282, R173): the message reaches every node once the Mere carries the module; compute clocks stand still from then on at the
latest. -/
def execPowerLoss (s : State) : Host.Outcome State Fault Refusal :=
  .next (if s.m.power.phase = .flushing ∧ s.m.power.mere = .discharging then
    updM s (fun m => { m with power := { m.power with pwrfail := true } })
  else s)

/-- EPOCH_ROLLFORWARD (R284): in the first 1 ms of the flush. -/
def execEpochRollforward (s : State) : Host.Outcome State Fault Refusal :=
  .next (if s.m.power.phase = .flushing ∧ s.now ≤ s.m.power.tripAt + 1000000 then rollForward s else s)

/-- POWER_LOSS_FLUSH (R283, R316): one station die. -/
def execPowerLossFlush (stn : StationId) (s : State) : Host.Outcome State Fault Refusal :=
  .next (if s.m.power.phase = .flushing ∧ (dieOf s (40 + stn.val)).region = true then columnsOff (flushStation s stn.val) stn.val else s)

/-- FLUSH_CLOSE (R283, R335): the closing records are written once every station die has flushed; the module enters M2. -/
def execFlushClose (flushUs : Lane) (s : State) : Host.Outcome State Fault Refusal :=
  .next (if s.m.power.phase = .flushing ∧ (List.range 8).all (flushed s) then
    (let s1 := forEach (stationsOn s) s (fun s n =>
       countWear (updStation s n (fun x => { x with ploss := x.ploss.map (fun i => { i with closed := true }) })) n pageBytes)
     enterM2 (updM s1 (fun m => { m with power := { m.power with flushUs := flushUs } })) false)
  else s)

/-- The wake once input has been within range for 100 ms; BOOT_MS counts from its coming within range (Table 11.10). -/
def wakeInput (s : State) : State :=
  updM (wakeM2 (waitUntil s (s.m.power.inputAt + 100000000)) (if s.m.power.wakeAsked then 2 else 1))
    (fun m => { m with power := { m.power with bootAt := s.m.power.inputAt } })

/-- INPUT_RETURN_WAKE (R285, R302, R304): after a power loss. -/
def execInputReturnWake (s : State) : Host.Outcome State Fault Refusal :=
  .next (if s.m.power.phase = .lampOnly ∧ s.m.power.byOff = false ∧ inputOk s ∧ coolEnough s then wakeInput s else s)

/-- MOD_RESET (R294, R335). -/
def execModReset (lowNs : Nat) (s : State) : Host.Outcome State Fault Refusal := .next (modReset s lowNs)

end Sys2Proof.Machine
end

