-- ==== Sys2Proof/Machine/Census.lean ====
section
/-!
DEFINITION. The census, and the periodic records of the life ledger (R298, R312 to R316, Tables 12.3 to 12.6).

What the spec leaves open here: log entries 63, 65 and 81.
-/

namespace Sys2Proof.Machine

/-! ### The census set (Table 12.4) -/

/-- The health offsets of words 1 to 20 of a record. -/
def censusOffsets : List Nat :=
  [0x08, 0x10, 0x18, 0x20, 0x28, 0x30, 0x38, 0x40, 0x48, 0x50, 0x58, 0x60, 0x68, 0x70, 0x78, 0x80, 0x88, 0x90, 0xF000, 0x00]

/-- The dies whose region is on. -/
def poweredDies (s : State) : List Nat := (List.range 48).filter (fun d => (dieOf s d).region)

/-- Whether a die has answered for every page of the census set. -/
def answeredAll (s : State) (d : Nat) : Bool :=
  censusOffsets.all (fun o => (dieOf s d).answered.any (fun a => decide (a.1 = o / 8)))

/-- A die notes the sweep it has answered: HB_SWEEP. -/
def noteSweep (s : State) (d seq : Nat) : State :=
  wr s (healthReg d 0x98) (BitVec.ofNat 64 (seq % 2 ^ 16 + gtimeOf s d % 2 ^ 48 * 2 ^ 16))

/-- The signal box takes the word of a page from a die. -/
def takePage (s : State) (d page : Nat) (w : Word) : State :=
  let x := dieOf s d
  setDie s d { x with
    answered := x.answered.filter (fun a => decide (a.1 ≠ page)) ++ [(page, w)]
    readAt := (s.now - s.m.census.startAt) / 1000 }

/-! ### The sweep (R313) -/

/-- A sweep starts at the next multiple of 10 ms that has none yet. -/
def startSweep (s0 : State) : State :=
  let c := s0.m.census
  let due := max (ceilDiv s0.now 10000000 * 10000000) (if c.sweep = 0 then 0 else c.startAt + 10000000)
  let s1 := waitUntil s0 due
  let s2 := forEach ((s1.dies.filter (fun x => !(x.2.answered.isEmpty))).map (fun x => x.1)) s1 (fun s d =>
    setDie s d { dieOf s d with answered := [] })
  updM s2 (fun m => { m with census := { m.census with
    sweep := c.sweep + 1, startAt := due, active := true, breakA := none, breakB := none, cutOff := [] } })

/-! ### The maintenance chain (R314, Table 12.3) -/

/-- The die at a position. -/
def chainDie (pos : Nat) : Nat :=
  if pos = 0 then 40
  else if pos ≤ 40 then
    (let k := pos - 1
     if k / 8 % 2 = 0 then k else k / 8 * 8 + (7 - k % 8))
  else if pos ≤ 44 then 47 - (pos - 41)
  else 43 - (pos - 45)

/-- The position of the signal box. -/
def boxPos (s : State) : Nat := if s.m.sboxS4 then 44 else 0

/-- Whether no link on the way to the position `i` places on is broken, clockwise or counterclockwise. -/
def pathWhole (broken : List (Fin 48)) (b : Nat) (clockwise : Bool) (i : Nat) : Bool :=
  broken.all (fun k =>
    let off := (k.val + 48 - b) % 48
    if clockwise then decide (i ≤ off) else decide (off < i))

/-- Read a die over the chain: every page, REACH 1 and a REPORT. -/
def chainRead (s : State) (d : Nat) : State :=
  let s1 := noteSweep s d s.m.census.sweep
  let s2 := forEach censusOffsets s1 (fun s o => takePage s d (o / 8) (regView s (healthReg d o)))
  let s3 := setDie s2 d { dieOf s2 d with reach := 1 }
  sendReport s3 (rootNode s3) ((partOfDie s3 d).getD 0) d .censusReach 0

/-- Read dies in one direction, by their places from the signal box, up to the first that does not answer; the place of that one. -/
def readChain (s0 : State) (answers : Nat → Bool) : List Nat → State → State × Option Nat
  | [], s => (s, none)
  | i :: is, s =>
    let d := chainDie ((boxPos s0 + i) % 48)
    if answers i then readChain s0 answers is (chainRead s d) else (s, some i)

/-- A link is marked broken: the alarm goes out once, until a sweep passes the link again. -/
def markBreak (s : State) (link : Nat) : State :=
  if s.m.census.alarmed.contains link then s
  else alarm (updM s (fun m => { m with census := { m.census with alarmed := m.census.alarmed ++ [link] } })) 0x0D none link

/-- A sweep has passed the links of the places below `i` clockwise, or from `i` on counterclockwise. -/
def passLinks (s : State) (clockwise : Bool) (i : Nat) : State :=
  let b := boxPos s
  updM s (fun m => { m with census := { m.census with alarmed := m.census.alarmed.filter (fun k =>
    let off := (k + 48 - b) % 48
    !(if clockwise then decide (off < i) else decide (i ≤ off))) } })

/-- Phase 2: the dies that have not answered completely are read clockwise, and after a break, which takes 10 µs to find, counterclockwise. -/
def chainPhase (s0 : State) (broken : List (Fin 48)) (silent : List DieId) : State :=
  let s := waitUntil s0 (s0.m.census.startAt + 6000000)
  let b := boxPos s
  let live (i : Nat) : Bool := decide (i = 0) || !(silent.any (fun d => decide (d.val = chainDie ((b + i) % 48))))
  let need := (List.range 48).filter (fun i =>
    let d := chainDie ((b + i) % 48)
    (dieOf s d).region && !(answeredAll s d))
  let cut := need.filter (fun i => !(decide (i = 0)) && !(pathWhole broken b true i) && !(pathWhole broken b false i))
  let a := readChain s (fun i => live i && pathWhole broken b true i) need s
  let s1 := updM a.1 (fun m => { m with census := { m.census with cutOff := cut.map (fun i => chainDie ((b + i) % 48)) } })
  match a.2 with
  | none => passLinks s1 true (need.getLastD 0)
  | some i =>
    let linkA := (b + i + 47) % 48
    let s2 := markBreak (passLinks (updM (waitUntil s1 (s1.now + 10000)) (fun m => { m with census := { m.census with breakA := some linkA } })) true
      ((need.filter (fun j => decide (j < i))).getLastD 0)) linkA
    let rest := (need.filter (fun j => decide (i ≤ j))).reverse
    let c := readChain s (fun j => live j && pathWhole broken b false j) rest s2
    match c.2 with
    | none => passLinks c.1 false (rest.getLastD 48)
    | some j =>
      let linkB := (b + j) % 48
      markBreak (passLinks (updM c.1 (fun m => { m with census := { m.census with breakB := some linkB } })) false
        ((rest.filter (fun k => decide (j < k))).getLastD 48)) linkB

/-! ### The snapshot (R315) -/

/-- REACH of a die at the end of a sweep. -/
def reachOf (s : State) (d : Nat) : Nat :=
  let x := dieOf s d
  if !x.region then 3 else if answeredAll s d then (if x.reach = 1 then 1 else 0) else 2

/-- The record of a die; one that was not reached keeps its last values. -/
def censusRecord (s : State) (d : Nat) : List Word :=
  let r := reachOf s d
  let old := spGet s.m.census.records (List.replicate 32 0) d
  let part := partOfDie s d
  let good := if d < 40 then (goodTiles s d).length else 0
  let us := if r ≤ 1 then (dieOf s d).readAt else bits (old.getD 0 0) 63 32
  let w0 := d + r * 2 ^ 6 + b2n (s.m.fencedDies.contains d) * 2 ^ 8
    + (match part with | some p => 2 ^ 9 + p * 2 ^ 10 | none => 0) + good * 2 ^ 13 + us % 2 ^ 32 * 2 ^ 32
  let body := if r ≤ 1 then censusOffsets.map (fun o => (((dieOf s d).answered.find? (fun a => decide (a.1 = o / 8))).map (fun a => a.2)).getD 0)
    else (old.drop 1).take 20
  BitVec.ofNat 64 w0 :: body ++ List.replicate 11 0

/-- The snapshot header (Table 12.5). -/
def censusHeader (s : State) : List Word :=
  let c := s.m.census
  let brk (b : Option Nat) (lo : Nat) : Nat := match b with
    | some k => (k + 64) * 2 ^ lo
    | none => 0
  let lost := ((List.range 48).filter (fun d => decide (reachOf s d = 2))).length
  [BitVec.ofNat 64 c.sweep, BitVec.ofNat 64 c.sweep, BitVec.ofNat 64 c.startAt,
   BitVec.ofNat 64 (brk c.breakA 0 + brk c.breakB 7 + b2n s.m.sboxS4 * 2 ^ 14 + lost * 2 ^ 15),
   BitVec.ofNat 64 (bits (rd s modStatus) 7 0 + fld s modState 1 0 * 2 ^ 8),
   rd s (s0Power 0x800), rd s (s0Power 0x808), rd s (s0Power 0x818)]

/-- Write the records and header into the sweep's buffer. -/
def publish (s : State) : State :=
  let recs := (List.range 48).map (fun d => (d, censusRecord s d))
  let head := censusHeader s
  let words := head ++ recs.flatMap (fun r => r.2)
  updM s (fun m => { m with census := { m.census with
    active := false
    records := recs
    header := head
    snapshot := spPut m.census.snapshot (m.census.sweep % 2) words } })

/-- A die's count of sweeps without an answer: after the second its logic is reset where the chain reaches it, else, or without an answer
after the reset, it is fenced (R313). -/
def countMissed (s : State) (d r : Nat) : State :=
  let x := dieOf s d
  let n := if r = 2 then x.missed + 1 else 0
  let s1 := setDie s d { x with reach := r, missed := n }
  if n = 2 then (if s.m.census.cutOff.contains d then fenceDie s1 d 6 else drainDie s1 d)
  else if 2 < n then fenceDie s1 d 6
  else s1

/-- A tile whose EPOCH_SEQ differs from its partition's is treated as having missed an epoch (R298): its cluster is reset and it is brought to the
partition's record. -/
def checkEpochs (s : State) (p : Nat) : State :=
  let ts := tilesOfPart s p
  let want := (partOf s p).applied
  let odd := ts.filter (fun t => decide ((tileOf s t).epSeq ≠ want) && (dieOf s (t / 144)).region)
  let like := (ts.find? (fun t => decide ((tileOf s t).epSeq = want))).map (fun t => (tileOf s t).epLast)
  let last := like.getD (lastWord 3 (partOf s p).committed)
  let mark (s : State) (t : Nat) : State :=
    if (tileOf s t).missed.any Armed.applied then s
    else updTile s t (fun x => { x with
      missed := some ⟨Fin.ofNat 8 p, 0, BitVec.ofNat 32 (bits last 1 0 + 256), BitVec.ofNat 32 (bits last 63 32), s.now, none⟩ })
  forEach (odd.map (fun t => (t / 144, clusterOf (t % 144)))).eraseDups (forEach odd s mark) (fun s c => drainCluster s c.1 c.2)

/-! ### The test connector's reach (R337) -/

/-- Serve an MCHAIN access: refused for a write while a partition runs or loads, and for a read of a running partition's die. It does not
complete at a position or die that does not answer, and reads 0 where only the administration port may (R328). -/
def serveMchain (s : State) (dr : BitVec 96) : State :=
  let w := dr.toNat
  let pos := w % 64
  let off := w / 512 % 2 ^ 23
  let d := chainDie pos
  let key := healthReg d off
  let data := w / 2 ^ 32 % 2 ^ 64
  let answer (s : State) (flags data : Nat) : State := updM s (fun m => { m with tap := { m.tap with
    mchain := none, answer := BitVec.ofNat 96 (w % 128 + flags + off * 512 + data * 2 ^ 32) } })
  let running (p : Nat) : Bool := decide (partState s p = 4)
  if w.testBit 6 then
    if (allParts s).any (fun p => running p || decide (partState s p = 2)) then answer s 256 data
    else if 48 ≤ pos ∨ off % 8 ≠ 0 ∨ 0x10000 ≤ off ∨ (dieOf s d).region = false then answer s 0 data
    else answer (writeReg s false key (BitVec.ofNat 64 data)) 128 data
  else
    let f := takeFree s
    if decide (pos < 48) && (match partOfDie s d with
      | some p => running p
      | none => false) then answer f.1 256 f.2.toNat
    else if 48 ≤ pos ∨ off % 8 ≠ 0 ∨ 0x10000 ≤ off ∨ (dieOf s d).region = false then answer f.1 0 f.2.toNat
    else if adminOnly key then answer s 128 0
    else
      let r := readRegAt s key
      answer r.1 128 r.2.toNat

/-- The signal box serves a pending access between sweeps. -/
def pollMchain (s : State) : State :=
  match s.m.tap.mchain with
  | some dr => if powered s && !(s.m.census.active) && (dieOf s (if s.m.sboxS4 then 44 else 40)).region then serveMchain s dr else s
  | none => s

/-- Update-DR under MCHAIN starts an access; until it is served the next Capture-DR finds neither DONE nor REFUSED. -/
def startMchain (s : State) (dr : BitVec 96) : State :=
  pollMchain (updM s (fun m => { m with tap := { m.tap with
    mchain := some dr, answer := dr &&& ~~~(0x180 : BitVec 96) } }))

/-- CENSUS_PUBLISH. -/
def endSweep (s0 : State) : State :=
  let s := publish (waitUntil s0 (s0.m.census.startAt + 6000000))
  let s1 := forEach (List.range 48) s (fun t d => countMissed t d (reachOf s d))
  pollMchain (forEach (allParts s1) s1 checkEpochs)

/-! ### The ledger (R312, R316) -/

/-- The HOURLY record of a die at the next full hour. -/
def hourly (s0 : State) (d : Nat) : State :=
  if (dieOf s0 d).region then
    let due := max (dieOf s0 d).life.hourAt (ceilDiv s0.now 3600000000000 * 3600000000000)
    let s := ledgerPeriod (waitUntil s0 due) d 1
    let x := dieOf s d
    let l := x.life
    setDie s d { x with life := { l with hourAt := due + 3600000000000 } }
  else s0

/-- The day's lowest margin of a die goes to its account, and DAY_MIN begins anew. -/
def dayEnd (s : State) (d : Nat) : State :=
  let m := fld s (healthReg d 0x18) 47 32
  let x := dieOf s d
  let l := x.life
  setFld (setDie s d { x with life := { l with dayMin := m, margin := min l.margin m } }) (healthReg d 0x18) 47 32 0xFFFF

/-! ### Meanings -/

/-- CENSUS_REQ (R170, R312, R313), from the signal box: the health block answers, and notes the sweep. The answer is CENSUS_DATA. -/
def execCensusReq (d : DieId) (_page seq : BitVec 16) (s : State) : Host.Outcome State Fault Refusal :=
  .next (if sigReaches sigFuel s (rootNode s) d.val 255 then noteSweep s d.val seq.toNat else s)

/-- CENSUS_DATA (R313): the signal box takes the answer to a page of its census set in the running sweep. -/
def execCensusData (d : DieId) (page : BitVec 16) (seq : BitVec 10) (data : Word) (s : State) : Host.Outcome State Fault Refusal :=
  .next (if s.m.census.active ∧ seq.toNat = s.m.census.sweep % 1024 ∧ censusOffsets.any (fun o => decide (o / 8 = page.toNat)) then
    (let s1 := takePage s d.val page.toNat data
     setDie s1 d.val { dieOf s1 d.val with reach := 0 })
  else s)

/-- CENSUS_SWEEP_START (R313). -/
def execCensusSweepStart (s : State) : Host.Outcome State Fault Refusal := .next (if powered s then startSweep s else s)

/-- CENSUS_CHAIN_PHASE (R314): `broken` are the links that carry nothing, `silent` the dies that do not answer on the chain. -/
def execCensusChainPhase (broken : List (Fin 48)) (silent : List DieId) (s : State) : Host.Outcome State Fault Refusal :=
  .next (if s.m.census.active then chainPhase s broken silent else s)

/-- CENSUS_PUBLISH (R313, R315). -/
def execCensusPublish (s : State) : Host.Outcome State Fault Refusal := .next (if s.m.census.active then endSweep s else s)

/-- LEDGER_HOURLY (R316). -/
def execLedgerHourly (d : DieId) (s : State) : Host.Outcome State Fault Refusal := .next (hourly s d.val)

/-- LEDGER_DAY_BOUNDARY (R312). -/
def execLedgerDayBoundary (s : State) : Host.Outcome State Fault Refusal :=
  .next (
    let due := max s.m.power.dayAt (ceilDiv s.now 86400000000000 * 86400000000000)
    let s1 := waitUntil s due
    updM (forEach (poweredDies s1) s1 dayEnd) (fun m => { m with power := { m.power with dayAt := due + 86400000000000 } }))

end Sys2Proof.Machine
end

