-- ==== Sys2Proof/Machine/Governor.lean ====
section
/-!
DEFINITION. The power governor, thermal gears and coolant supervision (R248, R249, R275, R276, R338 to R341, Tables 13.10 and 13.11).

Powers are in W; shares are rounded down.

What the spec leaves open here: log entries 52, 53, 55, 57, 61, 62, 85, 88 and 89.
-/

namespace Sys2Proof.Machine

/-! ### Allowances (R249, R275) -/

/-- One partition in a tick: its number, its weight, what it has so far and what it asks for. -/
structure PowerShare where
  part   : Nat
  weight : Nat
  has    : Nat
  demand : Nat
deriving DecidableEq, Repr

/-- Share a rest by weight: a share is capped at what its partition still asks for, and the surplus of a capped one goes to the others. -/
def waterFill : Nat → Nat → List PowerShare → List PowerShare → List PowerShare
  | 0, _, full, l => full ++ l
  | fuel + 1, rest, full, l =>
    let w := (l.map (fun x => x.weight)).foldl (fun a b => a + b) 0
    if w = 0 then full ++ l
    else
      let capped (x : PowerShare) : Bool := decide ((x.demand - x.has) * w ≤ rest * x.weight)
      let c := l.filter capped
      if c.isEmpty then full ++ l.map (fun x => { x with has := x.has + rest * x.weight / w })
      else
        let used := (c.map (fun x => x.demand - x.has)).foldl (fun a b => a + b) 0
        waterFill fuel (rest - used) (full ++ c.map (fun x => { x with has := max x.has x.demand })) (l.filter (fun x => !(capped x)))

/-- Whether a partition has work for the governor: it runs or loads. -/
def hasWork (s : State) (p : Nat) : Bool := decide (partState s p = 4 ∨ partState s p = 2)

/-- The allowances of a tick. -/
def allowances (s : State) (pool : Nat) (demand : List Nat) : List PowerShare :=
  let ps := (ranked s).filter (hasWork s)
  let mins := ps.map (fun p => (p, if withdrawn s p 0 then 0 else guarantee s p 0))
  let g := (mins.map (fun x => x.2)).foldl (fun a b => a + b) 0
  let l := mins.map (fun x => (⟨x.1, fld s (partReg x.1 0) 29 22, if pool < g then x.2 * pool / g else x.2, demand.getD x.1 0⟩ : PowerShare))
  waterFill (l.length + 1) (pool - g) [] l

/-- The governor's gear of a die. -/
def governorGear (s : State) (d : Nat) : Nat := (dieOf s d).dieGear

/-- Whether every cluster of a die that runs is at G4, whatever holds it there (R268, R276). -/
def dieSlowest (s : State) (d : Nat) : Bool := (List.range 16).all (fun c => decide (clusterState s d c ≠ 0 ∨ gearOf s d c = 4))

/-- The governor moves a die from one gear to the next: a cluster that has stepped slower by itself moves one gear with it (R266, R275). -/
def moveGear (s : State) (d g h : Nat) : State :=
  if h = g then s
  else forEach (List.range 16) (setDieGear s d h) (fun s c =>
    let k := spGet (dieOf s d).govGear 0 c
    setGov s d c (if g < h then max k h else max h (k - 1)))

/-- The gear of a die after a tick: one slower above its allowance, one faster where 1.15 times the power at the faster gear stays below it. -/
def nextGear (g power has dies : Nat) : Nat :=
  if has < power * dies then min (g + 1) 4
  else if 0 < g ∧ power * gearDiv g * 115 * dies < has * gearDiv (g - 1) * 100 then g - 1
  else g

/-- Record a die's power of the last 1 ms: P_AVG and E_J. -/
def recordPower (s : State) (d w : Nat) : State :=
  let mj := (dieOf s d).milliJ + w
  let s1 := setDie s d { dieOf s d with milliJ := mj % 1000 }
  let k := powerReg d 0x10
  addFld (setFld s1 k 31 0 w) k 63 32 (mj / 1000)

/-- A tick of the governor with the dies' powers, the power outside the compute dies and the partitions' demands. -/
def governorTick (s : State) (pDie : List Nat) (pOutside : Nat) (demand : List Nat) : State :=
  let cap := effectiveCap s * 10
  let pool := cap - pOutside
  let shares := allowances s pool demand
  let mod := ((List.range 40).map (fun d => pDie.getD d 0)).foldl (fun a b => a + b) 0 + pOutside
  let slowest := ((allParts s).filter (fun p => decide (fld s (partReg p 0) 29 22 ≠ 0))).all (fun p =>
    (liveDies s p).all (dieSlowest s))
  let unmet := decide (cap < mod) && slowest
  let s1 := forEach ((List.range 48).filter (fun d => (dieOf s d).region)) s (fun s d => recordPower s d (pDie.getD d 0))
  let k := s0Power 0x808
  let s1 := updM s1 (fun m => { m with power := { m.power with outside := pOutside } })
  let s2 := setFld (setFld (setFld s1 k 31 16 (min 65535 (mod / 10))) k 47 32 (min 65535 (pool / 10))) k 48 48 (b2n unmet)
  let s3 := if unmet && decide (fld s k 48 48 = 0) then alarm (supplyEvent s2) 0x04 none (fld s2 k 31 16) else s2
  forEach shares s3 (fun s x =>
    let ds := liveDies s x.part
    forEach ds s (fun s d =>
      moveGear s d (governorGear s d) (nextGear (governorGear s d) (pDie.getD d 0) x.has ds.length)))

/-! ### Thermal gears (R338, Table 13.10) -/

/-- The gear of a reading in °C; 5 stands for CCLK stopped. -/
def thermalTarget (c : Nat) : Nat :=
  if c < 95 then 0 else if c < 98 then 1 else if c < 100 then 2 else if c < 102 then 3 else if c < 105 then 4 else 5

/-- The entry point of a gear. -/
def entryPoint (g : Nat) : Nat := [0, 95, 98, 100, 102, 105].getD g 105

/-- The largest of some bytes. -/
def hottest (l : List Byte) : Nat := (l.map (fun b => b.toNat)).foldl max 0

/-- Set the thermal gear of a die: what has passed is charged at the old clock, and a slower gear takes effect at once. -/
def setThermal (s : State) (d g : Nat) : State :=
  let s1 := forEach (tilesOfDie s d) s charge
  slowGears (setDie s1 d { dieOf s1 d with thermGear := g, coolSince := none }) d

/-- Tell a change to a slower gear. The number of a sensor that is a cluster's is a free value. -/
def tellThermal (s : State) (d g c : Nat) (sensors : List Byte) : State :=
  let f := takeFree s
  let sensor := ((List.range 8).find? (fun i => decide ((sensors.getD i 0).toNat = c))).getD (f.2.toNat % 8)
  let s1 := setBit f.1 (powerReg d 0x30) 4
  let s2 := if g = 5 then moduleEvent s1 0x41 (d + c * 2 ^ 16) else moduleEvent s1 0x40 (d + g * 64 + c * 2 ^ 16)
  alarm s2 0x06 none (d + sensor * 64 + c * 2 ^ 16)

/-- A compute die's sample. -/
def sampleCompute (s : State) (d c : Nat) (sensors : List Byte) : State :=
  let x := dieOf s d
  let g := x.thermGear
  let t := thermalTarget c
  if g < t then tellThermal (setThermal s d t) d t c sensors
  else if g = 5 then (if c < 100 then setThermal s d 4 else s)
  else if 0 < g ∧ c + 3 ≤ entryPoint g then
    (match x.coolSince with
     | none => setDie s d { x with coolSince := some s.now }
     | some a => if a + 1000000 ≤ s.now then setThermal s d (g - 1) else s)
  else setDie s d { x with coolSince := none }

/-- A station die's sample: half rate from 100 °C, and above 105 °C for 1 ms it is fenced. -/
def sampleStation (s : State) (d c : Nat) : State :=
  let s1 := setHalf s d
  let x := dieOf s1 d
  if 105 < c then
    (match x.hotSince with
     | none => setDie s1 d { x with hotSince := some s1.now }
     | some a => if a + 1000000 ≤ s1.now then fenceDie s1 d 1 else s1)
  else setDie s1 d { x with hotSince := none }

/-- The readings of a die: HB_TEMP, CL_PWRc.TEMP, the peak, and the range of the running hour. -/
def takeReadings (s : State) (d : Nat) (sensors clusters : List Byte) : State :=
  let temps := (List.range 8).map (fun i => sensors.getD i 0)
  let top := hottest temps
  let s1 := wr s (healthReg d 8) (BitVec.ofNat 64 (leNat temps))
  let s2 := if d < 40 then
      forEach (List.range 16) s1 (fun s c => setFld s (clPwr d c) 15 8 (clusters.getD c 0).toNat)
    else s1
  let k := healthReg d 0x10
  let at_ := ((List.range 8).find? (fun i => decide ((temps.getD i 0).toNat = top))).getD 0
  let s3 := if fld s2 k 7 0 < top then wr s2 k (BitVec.ofNat 64 (top + at_ * 256 + gtimeOf s2 d % 2 ^ 48 * 2 ^ 16)) else s2
  let x := dieOf s3 d
  let l := x.life
  setDie s3 d { x with life := { l with tLow := min l.tLow top, tHigh := max l.tHigh top } }

/-! ### Coolant (R339, R340) -/

/-- Whether the flow is measured: the 12 V bus is in regulation. -/
def flowSeen (s : State) : Bool := powered s || decide (s.m.power.phase = .flushing)

/-- The coolant's limit of the cap, in 10 W. -/
def coolantCap (tIn : Nat) (flow : Option Nat) : Nat :=
  min (2600 - 10 * (tIn - 400)) (match flow with
    | some f => min 2600 (2600 * f / 600)
    | none => 2600)

/-- A coolant event with its alarm. -/
def coolantEvent (s : State) (code value : Nat) : State := alarm (moduleEvent s code value) 0x07 none s.m.power.tIn

/-- A sample of the coolant: cap, conditions and their start, and what crosses a limit is told. Stage 0 ends once coolant flows (R341), and a WAKE that
waited for the inlet to cool takes place (R304). -/
def coolantSample (s : State) (tIn flow : Nat) : State :=
  let p := s.m.power
  let seen := flowSeen s
  let f := if seen then flow else p.flow
  let s1 := updM s (fun m => { m with power := { m.power with
    tIn := tIn
    flow := f
    coolCap := coolantCap tIn (if seen then some f else none)
    warmAt := if 450 < tIn then p.warmAt.orElse (fun _ => some s.now) else none
    slowAt := if seen ∧ f < 400 then p.slowAt.orElse (fun _ => some s.now) else none
    alertCoolant := decide (400 < tIn) || (seen && decide (f < 600)) } })
  let s2 := if p.tIn ≤ 400 ∧ 400 < tIn then coolantEvent s1 0x42 tIn else s1
  let s3 := if seen ∧ 600 ≤ p.flow ∧ f < 600 then coolantEvent s2 0x43 f else s2
  let s4 := if atStage s3 0 ∧ 0 < f then setStage s3 1 else s3
  if s4.m.power.phase = .standby ∧ s4.m.power.wakeAsked ∧ coolEnough s4 then wakeStandby s4 else s4

/-- Whether a condition has held for 10 s. -/
def heldLong (s : State) (a : Option Nat) : Bool := match a with
  | some t => decide (t + 10000000000 ≤ s.now)
  | none => false

/-- A coolant condition has held for 10 s: every running step is aborted and the module flushes from its input. In stage 0 there is
nothing to shut down. -/
def coolantShutdown (s0 : State) : State :=
  let s := waitEarliest s0 ((s0.m.power.warmAt.toList ++ s0.m.power.slowAt.toList).map (fun a => a + 10000000000))
  let warm := heldLong s s.m.power.warmAt
  let slow := heldLong s s.m.power.slowAt
  if powered s ∧ (warm ∨ slow) ∧ !(atStage s 0) then
    beginFlush (coolantEvent (forEach (allParts s) s abortStep) 0x44 (if warm then 0 else 1)) false
  else s

/-! ### The timetable (R252) -/

/-- The capacity of a resource in the units of its guarantees (R252): the governor's pool in W, the Mere's in J, and in percent the Peat channels
that work, the depots with power, and the planes that are enabled. -/
def capacityOf (s : State) (r : Nat) : Nat :=
  let on := stationsOn s
  match r with
  | 0 => effectiveCap s * 10 - s.m.power.outside
  | 1 => mereCapacity s
  | 2 => (on.map (fun n => ((List.range 16).filter (fun c => bit (rd s (psbReg n 0)) c)).length)).foldl (fun a b => a + b) 0 * 100 / 128
  | 3 => on.length * 100 / 8
  | _ => (fld s (ncbReg (boxDie s) 0) 0 0 + fld s (ncbReg (boxDie s) 0) 1 1) * 50

/-- The timetable acts on one resource (R252): it withdraws while the guarantees exceed the capacity, and restores where the capacity has risen. -/
def timetable (s : State) (r : Nat) : State :=
  let c := capacityOf s r
  let old := s.m.power.caps.getD r 0
  let s1 := updM s (fun m => { m with power := { m.power with caps := (List.range 5).map (fun q => if q = r then c else m.power.caps.getD q 0) } })
  if !(guaranteesFit s1 ((holders s1 r).filter (fun q => !(withdrawn s1 q r))) r c) then withdrawUntil (holders s1 r).reverse s1 r c
  else if old < c then restoreFitting (holders s1 r) s1 r c
  else s1

/-! ### Meanings -/

/-- GOVERNOR_TICK (R275, R276). -/
def execGovernorTick (pDie : List Nat) (pOutside : Nat) (demand : List Nat) (s0 : State) : Host.Outcome State Fault Refusal :=
  .next (
    let s1 := waitUntil s0 s0.m.power.govAt
    let s := updM s1 (fun m => { m with power := { m.power with govAt := s1.now + 1000000 } })
    if powered s then governorTick s pDie pOutside demand else s)

/-- THERMAL_SAMPLE (R338). -/
def execThermalSample (d : DieId) (sensors clusters : List Byte) (s : State) : Host.Outcome State Fault Refusal :=
  .next (if (dieOf s d.val).region then
    (let s0 := waitUntil s (dieOf s d.val).sampledAt
     let s1 := takeReadings (setDie s0 d.val { dieOf s0 d.val with sampledAt := s0.now + 10000 }) d.val sensors clusters
     let top := hottest (sensors.take 8)
     if d.val < 40 then sampleCompute s1 d.val (max top (hottest (clusters.take 16))) sensors else sampleStation s1 d.val top)
  else s)

/-- COOLANT_SAMPLE (R339). -/
def execCoolantSample (tIn flow : Nat) (s : State) : Host.Outcome State Fault Refusal :=
  .next (
    let s1 := waitUntil s s.m.power.coolAt
    coolantSample (updM s1 (fun m => { m with power := { m.power with coolAt := s1.now + 1000000 } })) tIn flow)

/-- COOLANT_SHUTDOWN (R339). -/
def execCoolantShutdown (s : State) : Host.Outcome State Fault Refusal := .next (coolantShutdown s)

/-- The module when the timetable acts: `delay` ns after the change, at most 1 ms, with the power outside the compute dies as it is then (R252). -/
def acting (s : State) (delay pOutside : Nat) : State :=
  updM (waitUntil s (s.now + delay)) (fun m => { m with power := { m.power with outside := pOutside } })

/-- TIMETABLE_ACTION (R252): the resources in the order power, Mere, Peat, depot, crossing. -/
def execTimetableAction (delay : Fin 1000001) (pOutside : Nat) (s : State) : Host.Outcome State Fault Refusal :=
  .next (forEach (List.range 5) (acting s delay.val pOutside) timetable)

end Sys2Proof.Machine
end

