-- ==== Sys2Proof/Machine/Bringup.lean ====
section
/-!
DEFINITION. Bring-up, stage by stage, and the takeover by S4 (R23, R165, R224, R270, R271, R283, R285, R288 to R293, R316, R322, Table 11.1).

What the spec leaves open here: log entries 14, 41, 59, 61, 64, 65, 85 and 89.
-/

namespace Sys2Proof.Machine

/-! ### Stages 0 to 2: input, fuses, regions -/

/-- Input power reaches the unpowered module: its feeds, its bus converters, and stage 0, which ends once coolant flows (R341). -/
def applyInput (s : State) (a b : Nat) : State :=
  if s.m.power.phase ≠ .off then s
  else
    let s1 := setFeed (setFeed s false a) true b
    if inputOk s1 then
      let s2 := beginBringup (setFld s1 (s0Power 0x810) 9 0 0x3FF) 0 0
      if 0 < s2.m.power.flow then setStage s2 1 else s2
    else s1

/-- Stage 2 ends once every region has had its turn after the fuse read. -/
def endRegions (s : State) : State := if atStage s 2 ∧ s.m.power.fuseRead ∧ s.m.power.regionN = 48 then setStage s 3 else s

/-- Mark a die in the topology field of DIE_STATE. -/
def setTopo (s : State) (d v : Nat) : State := setFld s (dieStateReg d) 10 7 v

/-- The next region of the order starts, 2 ms after the one before; compute regions wait for the fuse read, and a die without a valid record
gets no power (R270, R289). S0 in regulation raises MOD_PWRGD, and a station die claims the root (R291). -/
def nextRegion (s0 : State) : State :=
  let p := s0.m.power
  let d := regionOrder.getD p.regionN 0
  if !(atStage s0 1 || atStage s0 2) || decide (48 ≤ p.regionN) || (decide (d < 40) && !p.fuseRead) then s0
  else
    let s := waitUntil s0 p.regionAt
    let s1 := updM s (fun m => { m with power := { m.power with regionN := p.regionN + 1, regionAt := s.now + 2000000 } })
    let s2 := if p.fuseRead && (s.m.fuses.badCrc.any (fun x => decide (x.val = d))) then setTopo s1 d 3
      else
        let s3 := if (dieOf s1 d).region then s1 else regionOn s1 d
        if d < 40 then s3
        else
          let s4 := updNode s3 (5760 + (d - 40)) (fun n => { n with improved := s3.now })
          if d = 40 then updM s4 (fun m => { m with power := { m.power with pwrgd := true } }) else s4
    endRegions s2

/-- A region that is not in regulation in time, or exceeds its limit, is off and failed (R270). -/
def failRegion (s : State) (d : Nat) : State :=
  if (dieOf s d).region then
    let s1 := dieOff s d
    let s2 := setBit (setDie s1 d { dieOf s1 d with failed := true }) (powerReg d 0x30) 5
    if d = 40 then updM s2 (fun m => { m with power := { m.power with pwrgd := false } }) else s2
  else s

/-- S0 has read the fuse records: a die whose record fails its CRC is not powered (R289). -/
def readFuses (s : State) (bad : List DieId) : State :=
  if atStage s 1 ∧ (dieOf s 40).region = true then
    let s1 := updM s (fun m => { m with
      fuses := { m.fuses with badCrc := bad }
      power := { m.power with fuseRead := true } })
    let s2 := forEach bad s1 (fun s d => setTopo (if (dieOf s d.val).region then dieOff s d.val else s) d.val 3)
    endRegions (setStage s2 2)
  else s

/-! ### Stage 3: lanes (R165) -/

/-- The number of a crossing and plane: that of its compute die and edge, the lower die's between two compute dies. -/
def crossingKey (d e : Nat) (pl : Plane) : Nat :=
  let c := match exitDie d (e + 1) 0 with
    | some n => if n < 40 ∧ n < d then (n, (e + 2) % 4) else (d, e)
    | none => (d, e)
  c.1 * 8 + c.2 * 2 + planeNum pl

/-- The crossings that join two powered dies, with their planes. -/
def liveCrossings (s : State) : List Nat :=
  ((poweredDies s).filter (fun d => decide (d < 40))).flatMap (fun d => ([0, 1, 2, 3] : List Nat).flatMap (fun e =>
    match exitDie d (e + 1) 0 with
    | some n => if (dieOf s n).region ∧ (40 ≤ n ∨ d < n) then [crossingKey d e .up, crossingKey d e .down] else []
    | none => []))

/-- A crossing's lanes are tested: `failing` numbers lane l of its link i as 1056 i + l. Its links are repaired; stage 3 ends with the last
crossing. -/
def repairCrossing (s : State) (d e : Nat) (pl : Plane) (failing : List Nat) : State :=
  let here := crossingsOf d e
  let live := here.filter (fun c => (dieOf s c.1).region && (match exitDie c.1 (c.2 + 1) 0 with
    | some n => (dieOf s n).region
    | none => false))
  let one (s : State) (c : Nat × Nat) : State :=
    let s1 := forEach (List.range 12) s (fun s i =>
      repairLink s c.1 c.2 pl i ((failing.filter (fun f => decide (f / 1056 = i))).map (fun f => f % 1056)))
    let s2 := refreshCrossing s1 c.1 c.2 pl
    updM s2 (fun m => { m with power := { m.power with
      lanes := if m.power.lanes.contains (crossingKey c.1 c.2 pl) then m.power.lanes else m.power.lanes ++ [crossingKey c.1 c.2 pl] } })
  let s1 := forEach live s one
  if atStage s1 3 ∧ (liveCrossings s1).all (fun k => s1.m.power.lanes.contains k) then setStage s1 4 else s1

/-! ### Stage 5: the Peat (R206, R224, R283, R285, R316) -/

/-- The last record of some types of a die's ledger, as the read at bring-up finds it: a record that fails ends the read (R316). -/
def lastRecord (s : State) (d : Nat) (types : List Nat) : Option LedgerRec :=
  ((ledgerOf s d).takeWhile LedgerRec.sound).reverse.find? (fun r => types.contains (bits (r.words.getD 0 0) 3 0))

/-- Load the lifetime totals of a die from its last record; a total is never lowered by it (log 14). -/
def loadTotals (s : State) (d : Nat) : State :=
  match lastRecord s d [1, 2, 3] with
  | none => s
  | some r =>
    let w (i : Nat) : Word := r.words.getD i 0
    let x := dieOf s d
    let l := x.life
    let on := match l.onAt with
      | some a => s.now - a
      | none => 0
    setDie s d { x with life := { l with
      powered := max l.powered (bits (w 2) 31 0 * 60000000000 - on)
      cycles := max l.cycles (bits (w 2) 47 32)
      peak := max l.peak (bits (w 2) 63 56)
      margin := min l.margin (bits (w 3) 31 16)
      ue := max l.ue (bits (w 3) 63 32 - fld s (healthReg d 0x40) 63 48)
      ce := max l.ce ((w 4).toNat - fld s (healthReg d 0x40) 47 0)
      crc := max l.crc (bits (w 5) 31 0 - linkCrc s d)
      faults := max l.faults (bits (w 5) 55 48) } }

/-- Read the ledger of a die (R316): a record whose CRC fails in both copies ends the read and raises LEDGER. -/
def readLedger (s : State) (d : Nat) : State :=
  let s1 := loadTotals s d
  if (ledgerOf s d).all LedgerRec.sound then s1 else alarm s1 0x13 none d

/-- A station die's channels and counts at power-up: usable channels, spare extents, and PEAT_WEAR from the ledger. -/
def openChannels (s : State) (n : Nat) : State :=
  let x := stationOf s n
  let ok := (List.range 16).map (fun c => decide ((x.nandFail.filter (fun f => decide (f.1.val = c))).length < 16))
  let gone := x.retired.length
  let wear := match lastRecord s (40 + n) [1, 2, 3] with
    | some r => if (rd s (psbReg n 8)).toNat < (r.words.getD 6 0).toNat then r.words.getD 6 0 else rd s (psbReg n 8)
    | none => rd s (psbReg n 8)
  let s1 := wr (setFld s (psbReg n 0) 15 0 (bitsOf ok)) (psbReg n 0x10) (BitVec.ofNat 64 (20822 - gone + gone * 2 ^ 32))
  let s2 := wr s1 (psbReg n 8) wear
  let pct := moduleWear s2 * 100 / ratedWear
  forEach (List.range 8) s2 (fun s k => setFld s (psbReg k 0x38) 7 0 (min 255 pct))

/-- The saved bank of a partition becomes its K version of a step. Which of its bytes lie where is Speub's, so they are free values. -/
def applyBank (s0 : State) (n p step bytes : Nat) : State :=
  let s := countWear s0 n bytes
  let s1 := forEach (classEntries s n p .k) s (fun s e =>
    match e.versions.find? (fun v => decide (v.step = step)) with
    | some v => updStation { s with fresh := s.fresh + 1 } n (fun x => { x with loose := spPut x.loose v.phys s.fresh })
    | none =>
      let r := addVersion s n e step
      match r.2 with
      | some k => updStation { r.1 with fresh := r.1.fresh + 1 } n (fun x => { x with loose := spPut x.loose k r.1.fresh })
      | none => r.1)
  journal s1 n (journalRec 7 p step 0 0)

/-- A power-loss image is applied and PLOSS_LAST loaded; one without its closing record is ignored and reported (R285). -/
def applyImage (s : State) (n : Nat) : State :=
  match (stationOf s n).ploss with
  | none => s
  | some i =>
    let p := s.m.power
    let last := p.flushUs.toNat + b2n i.closed * 2 ^ 32 + b2n p.rolled * 2 ^ 33 + b2n p.returned * 2 ^ 34
    let s1 := updStation (wr s (s0Power 0x838) (BitVec.ofNat 64 last)) n (fun x => { x with ploss := none })
    if i.closed then forEach i.saved s1 (fun s k => applyBank s n k.1.val k.2.1 k.2.2) else supplyEvent s1

/-- The last committed step of a partition number in a station die's journal. -/
def journalStep (s : State) (n p : Nat) : Nat :=
  ((soundJournal (stationOf s n)).filter (fun r => decide (bits r.w0 3 0 = 1 ∧ bits r.w0 6 4 = p))).foldl (fun a r => max a (bits r.w0 63 32)) 0

/-- The step whose W versions the latest VISIBLE record of a partition number makes visible (R224). -/
def visibleStep (s : State) (n p : Nat) : Option Nat :=
  (((soundJournal (stationOf s n)).filter (fun r => decide (bits r.w0 3 0 = 6 ∧ bits r.w0 6 4 = p))).getLast?).map (fun r => bits r.w0 63 32)

/-- Whether the journal holds EXT_DONE of an extent for a step. -/
def extDone (s : State) (n p step : Nat) (e : ExtEntry) : Bool :=
  (soundJournal (stationOf s n)).any (fun r => decide (bits r.w0 3 0 = 4 ∧ bits r.w0 6 4 = p ∧ bits r.w0 63 32 = step % 2 ^ 32
    ∧ bits r.w1 18 0 = e.ext.toNat ∧ bits r.w1 22 19 = e.nsid.toNat))

/-- Replay for one partition number (R224), up to the first record with a failing CRC: the W versions older than the one before the visible one
are freed; the updates of committed steps resume after their last EXT_DONE, what they wrote and did not journal
is freed, and so are G and in-step R of the step that was lost. -/
def replay (s : State) (n p : Nat) : State :=
  let ended (k : Nat) : Bool := (soundJournal (stationOf s n)).any (fun r =>
    decide (bits r.w0 3 0 = 5 ∧ bits r.w0 6 4 = p ∧ bits r.w0 63 32 = k % 2 ^ 32))
  let jobs := (stationOf s n).updates.filter (fun j => decide (j.part.val = p ∧ j.step ≤ journalStep s n p) && !(ended j.step))
  let one (s : State) (j : UpdateJob) : State :=
    let ws := classEntries s n p .w
    let undone := (ws ++ classEntries s n p .s).filter (fun e => !(extDone s n p j.step e))
    let done := (ws.takeWhile (extDone s n p j.step)).length
    putJob (forEach undone s (fun s e =>
        if e.versions.any (fun v => decide (v.step = j.step)) then keepVersions s n e (fun v => decide (v.step ≠ j.step)) else s))
      n { j with blocks := done * (paramsPerExtent / 32) }
  let c := journalStep s n p
  let s0 := match visibleStep s n p with
    | some v => trimVisible s n p v
    | none => s
  let s1 := forEach jobs s0 one
  forEach (classEntries s1 n p .g ++ classEntries s1 n p .r) s1 (fun s e =>
    if e.versions.any (fun v => decide (c < v.step)) then keepVersions s n e (fun v => decide (v.step ≤ c)) else s)

/-- The fences that the ledger records are loaded: a fenced die has no power (R307, R316). -/
def loadFences (s : State) (n : Nat) : State :=
  forEach (s.m.fencedDies.filter (fun d => decide (homeOf d = n))) s (fun s d =>
    let s1 := if (dieOf s d).region then dieOff s d else s
    let why := match lastRecord s d [5] with
      | some r => bits (r.words.getD 2 0) 3 0
      | none => 0
    setFld (setBit s1 (dieStateReg d) 2) (dieStateReg d) 6 3 why)

/-- Bring up the Peat of a station die: NAND dies outside the factory record have failed (R206, R208), the power-loss image is applied and the journal
replayed. The stage ends with the last station die. -/
def peatUp (s : State) (n : Nat) (foreign : List (Fin 16 × Fin 16)) : State :=
  if atStage s 5 ∧ (dieOf s (40 + n)).region = true then
    let s0 := forEach foreign (openChannels s n) (fun s f => failNand s n f.1 f.2)
    let s1 := forEach (List.range 8) (applyImage s0 n) (fun s p => replay s n p)
    let read := forEach ((List.range 48).filter (fun d => decide (homeOf d = n))) (loadFences s1 n) readLedger
    let s2 := updStation read n (fun x => { x with ready := true })
    if (stationsOn s2).all (fun k => (stationOf s2 k).ready) then setStage s2 6 else s2
  else s

/-! ### Stage 6: topology (R292) -/

/-- The dies of the fuse-derived view. -/
def fuseDies (s : State) : List Nat :=
  (List.range 48).filter (fun d => !(s.m.fuses.badCrc.any (fun x => decide (x.val = d))) && !(s.m.fencedDies.contains d))

/-- Whether some crossing between two dies of a view cannot be used on a plane. -/
def crossingMissing (s : State) (ds : List Nat) (d : Nat) : Bool :=
  ([0, 1, 2, 3] : List Nat).any (fun e => (crossingsOf d e).any (fun c => match exitDie c.1 (c.2 + 1) 0 with
    | some n => ds.contains c.1 && ds.contains n && !(bit (rd s (ncbReg c.1 0x10)) (2 * c.2) && bit (rd s (ncbReg c.1 0x10)) (2 * c.2 + 1))
    | none => false))

/-- Whether an expectation's grade, hash and fenced set agree with the module, the given dies counted as fenced too. -/
def expectFits (s : State) (x : Byte × List Byte × Nat) (also : List Nat) : Bool :=
  let mask := bitsOf ((List.range 48).map (fun d => s.m.fencedDies.contains d || also.contains d))
  decide (x.1 = s.m.fuses.grade) && decide (x.2.1 = mapHash s (maskDies x.2.2)) && decide (x.2.2 = mask)

/-- The dies that DIE_STATE.TOPO holds as missing. -/
def missingDies (s : State) : List Nat :=
  (List.range 48).filter (fun d => let v := fld s (dieStateReg d) 10 7; decide (1 ≤ v ∧ v ≤ 4) && !(s.m.fencedDies.contains d))

/-- The check fails: the dies concerned are marked and bring-up holds. -/
def holdTopology (s : State) (ds : List (Nat × Nat)) : State :=
  let s1 := bootFail (forEach ds s (fun s x => setTopo s x.1 x.2))
  match ds with
  | x :: _ => alarm s1 0x0C none (x.1 + x.2 * 64)
  | [] => s1

/-- The check passes: stage 7. -/
def passTopology (s : State) : State := setStage (setFld s modStatus 1 1 0) 7

/-- Fence the dies that an expectation names as fenced and that are missing; TOPO 6. -/
def accountFor (s : State) (ds : List Nat) : State :=
  passTopology (forEach ds s (fun s d =>
    let why := if s.m.fuses.badCrc.any (fun x => decide (x.val = d)) then 9 else 10
    setTopo (fenceDie s d why) d 6))

/-- The first die in which an expectation's fenced set differs; a free value where only the grade or the hash does. -/
def firstDiffering (s : State) (mask : Nat) : Nat :=
  ((List.range 48).find? (fun d => mask.testBit d != s.m.fencedDies.contains d)).getD ((Config.freeWord s.fresh).toNat % 48)

/-- The three views are compared (R292). -/
def checkTopology (s : State) (silent : List Nat) : State :=
  if !(atStage s 6) then s
  else
    let ds := fuseDies s
    let lost := ds.filter (fun d => !((dieOf s d).region) || silent.contains d)
    let there := ds.filter (fun d => !(lost.contains d))
    let bad := lost.map (fun d => (d, 1)) ++ ((there.filter (crossingMissing s there)).map (fun d => (d, 4)))
    if bad.isEmpty then
      (match s.m.power.expect with
       | none => passTopology s
       | some x => if expectFits s x [] then passTopology s
           else holdTopology { s with fresh := s.fresh + 1 } [(firstDiffering s x.2.2, 5)])
    else
      let s1 := holdTopology s bad
      match s.m.power.expect with
      | some x => if expectFits s x lost && decide (lost.length = bad.length) then accountFor s1 lost else s1
      | none => s1

/-- An expectation arrives (R292, R323): 0 AGREE, 1 ACCOUNTED, 2 DIFFERS with the first differing die. -/
def takeExpect (s : State) (x : Byte × List Byte × Nat) : State × Nat × Nat :=
  let s1 := updM (setBit s modState 5) (fun m => { m with power := { m.power with expect := some x } })
  let held := decide (stageOf s = 6) && bit (rd s modStatus) 1
  let lost := missingDies s1
  if held ∧ !(lost.isEmpty) ∧ expectFits s1 x lost then (accountFor (setBit s1 modState 6) lost, 1, 0)
  else if expectFits s1 x [] then
    let s2 := setBit s1 modState 6
    (if held ∧ lost.isEmpty then
      passTopology (forEach (List.range 48) s2 (fun s d => if fld s (dieStateReg d) 10 7 = 5 then setTopo s d 0 else s))
     else s2, 0, 0)
  else
    let s2 := { setFld s1 modState 6 6 0 with fresh := s1.fresh + 1 }
    (if stageOf s = 9 then supplyEvent s2 else s2, 2, firstDiffering s1 x.2.2)

/-! ### Stages 7 to 9 (R293) -/

/-- The firmware is loaded from the first copy that is whole. -/
def loadFirmware (s : State) (copyOk : List Bool) (version : Word) : State :=
  if !(atStage s 7) then s
  else if copyOk.take 2 |>.any id then
    setStage (updM s (fun m => { m with power := { m.power with fwVer := version } })) 8
  else bootFail s

/-- MODULE_READY: every compute die is in no partition and enters D3. -/
def moduleReady (s : State) : State :=
  let s1 := forEach ((poweredDies s).filter (fun d => decide (d < 40) && (partOfDie s d).isNone)) s dieOff
  let ms := min 65535 ((s1.now - s1.m.power.bootAt) / 1000000)
  let s2 := setFld (setFld (setBit (setStage s1 9) modStatus 0) modState 31 16 ms) modState 1 0 0
  updM s2 (fun m => { m with power := { m.power with phase := .running } })

/-- Self-test of every good tile and every die: what fails is fenced, every SRAM is undefined, and the module is ready. -/
def selfTest (s : State) (tileFails : List (Nat × Nat)) (dieFails : List Nat) : State :=
  if !(atStage s 8) then s
  else
    let s0 := undefine { s with ecc := [] } 0 (2 ^ 52)
    let ts := ((poweredDies s0).filter (fun d => decide (d < 40))).flatMap (tilesOfDie s0)
    let result : Nat → Nat := fun t => match tileFails.find? (fun f => decide (f.1 = t ∧ f.2 ≠ 0)) with
      | some f => 1 + f.2 * 4
      | none => 3
    let s1 := forEach ts s0 (fun s t => setFld s (tileReg t 0x5000) 4 0 (result t))
    let s2 := forEach (ts.filter (fun t => !(result t == 3))) s1 (fun s t => fenceTile s t 0)
    moduleReady (forEach (dieFails.filter (fun d => (dieOf s2 d).region)) s2 (fun s d => fenceDie s d 8))

/-! ### Takeover (R322) -/

/-- S4 takes over once S0's region is off, failed or fenced, or S0 has missed 3 state updates (R23, R322): it switches S0's region off first. -/
def takeover (s : State) (draw missed : Nat) : State :=
  let x := dieOf s 40
  if s.m.sboxS4 ∨ (dieOf s 44).region = false ∨ (x.region && !x.failed && !(s.m.fencedDies.contains 40) && decide (missed < 3)) = true then s
  else takeOver (if x.region then dieOff s 40 else s) draw

/-! ### Meanings -/

/-- POWER_APPLIED (R288, R341): the feeds' voltages in 0.1 V. -/
def execPowerApplied (decivoltsA decivoltsB : BitVec 10) (s : State) : Host.Outcome State Fault Refusal :=
  .next (applyInput s decivoltsA.toNat decivoltsB.toNat)

/-- REGION_START (R270). -/
def execRegionStart (s : State) : Host.Outcome State Fault Refusal := .next (nextRegion s)

/-- REGION_RAMP_TIMEOUT (R270). -/
def execRegionRampTimeout (d : DieId) (s : State) : Host.Outcome State Fault Refusal := .next (failRegion s d.val)

/-- PLL_LOCK_LOSS (R271, R307). -/
def execPllLockLoss (d : DieId) (s : State) : Host.Outcome State Fault Refusal :=
  .next (if (dieOf s d.val).region then fenceDie (setDie s d.val { dieOf s d.val with failed := true }) d.val 3 else s)

/-- FUSE_READ (R289). -/
def execFuseRead (badCrc : List DieId) (s : State) : Host.Outcome State Fault Refusal := .next (readFuses s badCrc)

/-- LANE_REPAIR (R165). -/
def execLaneRepair (d : DieId) (edge : Edge) (plane : Plane) (failing : List Nat) (s : State) : Host.Outcome State Fault Refusal :=
  .next (repairCrossing s d.val (edgeNum edge) plane failing)

/-- PEAT_BRINGUP (R206, R224). -/
def execPeatBringup (b : PeatStart) (s : State) : Host.Outcome State Fault Refusal :=
  .next (peatUp s b.stn.val b.foreign)

/-- TOPOLOGY_CHECK (R292): `silent` are the dies that the census does not find. -/
def execTopologyCheck (silent : List DieId) (s : State) : Host.Outcome State Fault Refusal :=
  .next (checkTopology s (silent.map (fun d => d.val)))

/-- FIRMWARE_LOAD (R293). -/
def execFirmwareLoad (copyOk : List Bool) (version : Word) (s : State) : Host.Outcome State Fault Refusal :=
  .next (loadFirmware s copyOk version)

/-- SELFTEST (R293). -/
def execSelftest (tileFails : List (TileId × Fin 8)) (dieFails : List DieId) (s : State) : Host.Outcome State Fault Refusal :=
  .next (selfTest s (tileFails.map (fun f => (f.1.val, f.2.val))) (dieFails.map (fun d => d.val)))

/-- S4_TAKEOVER (R322). -/
def execS4Takeover (w : Watch) (s : State) : Host.Outcome State Fault Refusal := .next (takeover s w.draw.val w.missed.toNat)

end Sys2Proof.Machine
end

