-- ==== Sys2Proof/Machine/HostRegs.lean ====
section
/-!
DEFINITION. A host's accesses through its BARs, the registers with rows of their own, and clusters in C2 (R14, R45, R55, R69, R72, R86, R183,
R234, R237, R238, R240, R245, R269, R276, R280, R302, R303, R319, R326, R342, R343).

What the spec leaves open here: log entries 24, 41, 67, 68, 69, 72, 76, 103 and 104.
-/

namespace Sys2Proof.Machine

/-! ### C2 (R72, R302, R303) -/

/-- The die-level path of a packet, as the dies it enters. -/
def diesEntered (s : State) (pl : Plane) (a b : Nat) : List Nat := (walk s (genOf s a) pl b 47 a).map (fun x => x.2.2)

/-- The sources and destinations inside a die that give the paths of its packets: its good tiles and its die block, or a station die's units. -/
def endUnits (s : State) (d : Nat) : List Nat := if d < 40 then goodTiles s d ++ [255] else [0, 1, 2, 3]

/-- A packet of a path from one unit to another. -/
def probe (s : State) (pl : Plane) (a ua b ub : Nat) : Packet :=
  { request a ua 0 0 0 0 [] with
    plane := pl, tgen := (dieOf s a).genCur, dstDie := BitVec.ofNat 6 b, dstTile := BitVec.ofNat 8 ub }

/-- Whether an installed route of a partition passes through the routers of a cluster of a die that is not its own (R303). -/
def transits (s : State) (q d c : Nat) : Bool :=
  let own := diesOfPart s q
  let ends := own ++ (List.range 8).map (fun n => 40 + n)
  ends.any (fun a => ends.any (fun b => (a != b) && (decide (a < 40) || decide (b < 40)) && [Plane.up, Plane.down].any (fun pl =>
    (diesEntered s pl a b).contains d && (endUnits s a).any (fun ua => (endUnits s b).any (fun ub =>
      (pathOf s (probe s pl a ua b ub)).any (fun t => decide (t / 144 = d ∧ clusterOf (t % 144) = c)))))))

/-- A cluster of a partition that has been IDLE or EMPTY for 10 ms enters C2, unless its routers carry another partition's traffic. -/
def enterC2 (s0 : State) (d c : Nat) : State :=
  match partOfDie s0 d with
  | none => s0
  | some p =>
    let asked := decide (partState s0 p = 1 ∨ partState s0 p = 3) && decide (clusterState s0 d c = 0) && (dieOf s0 d).region
    if asked && (clusterTiles d c).all (tileQuiet s0) && ((allParts s0).filter (fun q => decide (q ≠ p))).all (fun q => !(transits s0 q d c)) then
      clusterOff (waitUntil s0 ((dieOf s0 d).idleAt + 10000000)) d c 2
    else s0

/-- An access wakes a cluster from C2. -/
def wakeCluster (s : State) (d c : Nat) : State := if spGet (dieOf s d).cstate 0 c = 2 then clusterOn s d c else s

/-- A write that reaches a tile: it wakes the tile's cluster from C2, and in C3 there is nothing that takes it (R72). -/
def intoTile (s : State) (t : Nat) (f : State → State) : State :=
  let c := clusterOf (t % 144)
  if clusterState s (t / 144) c = 3 then s else f (wakeT1 (wakeCluster s (t / 144) c) t)

/-- The health block answers a read of a cluster's registers in C2 or C3; the cluster sleeps on. -/
def readAsleep (s : State) (d c off : Nat) : State :=
  if 2 ≤ clusterState s d c then setDie s d { dieOf s d with clAnswer := some (regView s (clusterReg d c off)) } else s

/-! ### BAR2 (R237, R343) -/

/-- The address that a BAR2 offset reaches. -/
def barAddr (off : Nat) : Option Nat :=
  let d := off / 2 ^ 31 % 64
  if d < 40 then some off else if d < 48 then some (2 ^ 52 + off) else none

/-- Whether an address lies in register space (R343). -/
def inRegSpace (a n : Nat) : Bool :=
  if a / 2 ^ 52 = 0 then decide (dgaIndex a = 255) || decide (regionOf (a % 2 ^ 23) n = some .reg)
  else decide (a / 2 ^ 52 = 1) && stationRegMapped (a % 2 ^ 31) n

/-- Whether `n` bytes lie inside a partition's own block of a PSB. -/
def inOwnPsb (p a n : Nat) : Bool :=
  let off := a % 2 ^ 31
  decide (0x100 + 0x40 * p ≤ off ∧ off + n ≤ 0x140 + 0x40 * p)

/-- Whether a port refuses an access: an unmapped offset, broken register words, a die outside its partition, a fused tile, or a station register
that is not its own while it is not the administration port. -/
def barRefused (s : State) (port a n : Nat) : Bool :=
  let own := boundPart s port
  !(dgaMapped a n) || (inRegSpace a n && !(wholeWords (a % 8) n)) ||
    (if a / 2 ^ 52 = 0 then
      !(match own with | some p => partHolds s p (dgaDie a) | none => false)
        || (decide (dgaIndex a < 144) && s.m.fuses.fused.contains (dgaTile a))
     else stationRegMapped (a % 2 ^ 31) n && !(decide (adminPort s = port))
        && !(match own with | some p => inOwnPsb p a n | none => false))

/-- How an access inside the engine ends: done, answered by a NAK, or still waiting for an accumulator bank that the TE holds. -/
inductive Served (α : Type) where
  | done (s : State) (v : α)
  | nak (s : State)
  | wait

/-- Whether the engine answers an access with a NAK on its way: a closed die, or no route from the port's station die. -/
def barClosed (s : State) (port a : Nat) : Bool :=
  dieClosed s (dgaDie a) || (decide (dgaDie a < 40) && (planeFor s (40 + port) (dgaDie a) .up).isNone)

/-- Read inside the engine. -/
def engineRead (s : State) (port a n : Nat) : Served (List Byte) :=
  let regs (s : State) : Served (List Byte) := let r := readRegs s a (n / 8); .done r.1 r.2
  if barClosed s port a then .nak s
  else if inRegSpace a n && !(decide (a / 2 ^ 52 = 0 ∧ dgaIndex a < 144)) then regs s
  else if a / 2 ^ 52 ≠ 0 then .nak s
  else
    let t := dgaTile a
    let off := a % 2 ^ 23
    let c := clusterOf (t % 144)
    if 0x7F8000 ≤ off then regs s
    else if clusterState s (t / 144) c = 3 then .nak s
    else
      let s1 := wakeCluster s (t / 144) c
      match regionOf off n with
      | none => .nak s1
      | some .reg => regs s1
      | some r =>
        if r = .acc ∧ accHeld s1 t off = true then .wait
        else
          let x := tileRead s1 t none r off n
          if x.2.2 then .nak x.1 else .done x.1 x.2.1

/-- Write inside the engine (R45, R57). -/
def engineWrite (s : State) (port a : Nat) (bs : List Byte) : Served Unit :=
  let n := bs.length
  let regs (s : State) : Served Unit := .done (writeRegs s (decide (adminPort s = port)) a (leWords (n / 8) bs)) ()
  if barClosed s port a then .nak s
  else if inRegSpace a n && !(decide (a / 2 ^ 52 = 0 ∧ dgaIndex a < 144)) then regs s
  else if a / 2 ^ 52 ≠ 0 then .nak s
  else
    let t := dgaTile a
    let off := a % 2 ^ 23
    let c := clusterOf (t % 144)
    if clusterState s (t / 144) c = 3 then .nak s
    else
      let s1 := wakeCluster s (t / 144) c
      match regionOf off n with
      | none => .nak s1
      | some .reg => regs s1
      | some .ist => if (istoreCtxs off n).all (istoreOpen s1 t) then .done (tileWrite s1 t none .ist off bs) () else .nak (tileEvent s1 t 0x40)
      | some r =>
        if keepBlocks s1 t off n then .nak (tileEvent s1 t 0x20)
        else if r = .acc ∧ accHeld s1 t off = true then .wait
        else .done (tileWrite s1 t none r off bs) ()

/-- Keep a port's last read answer. -/
def setAnswer (s : State) (port : Nat) (r : ReadAnswer) : State := updPort s port (fun x => { x with answer := some r })

/-- A read through BAR2: refused with Unsupported Request and an advisory error under AER, completed with data, or with Completer Abort. -/
def barRead (s : State) (port a n : Nat) : State :=
  if barRefused s port a n then updPort (setAnswer s port .unsupported) port (fun x => { x with aerUr := x.aerUr + 1 })
  else match engineRead s port a n with
    | .done s1 bs => setAnswer s1 port (.data bs)
    | .nak s1 => setAnswer s1 port .abort
    | .wait => s

/-- Key of PORT_ERR. -/
def portErr (n : Nat) : Nat := portReg n 0x18

/-- A write through BAR2: refused and counted in BAR2_REF, done, or counted in BAR2_NAK. -/
def barWrite (s : State) (port a : Nat) (bs : List Byte) : State :=
  if barRefused s port a bs.length then addFld s (portErr port) 47 32 1
  else match engineWrite s port a bs with
    | .done s1 _ => s1
    | .nak s1 => addFld s1 (portErr port) 31 16 1
    | .wait => s

/-! ### BAR0 (R238 to R240, R245, R315) -/

/-- Hand administration to another port; only the administration port may, and its handover goes before one by Reedline in the same UCLK
cycle (R245). -/
def giveAdmin (s : State) (port dst : Nat) : State :=
  let held := match s.ticks.handed with
    | some (p, false) => p
    | _ => adminPort s
  if held = port then setFld { s with tick := { s.ticks with handed := some (port, true) } } (moduleReg 0) 2 0 dst else s

/-- A write of PART_WDOG from a bound port: every bound port shows the value, and it goes into TILE_WDOG.LIMIT of every tile. -/
def setWdog (s : State) (port : Nat) (v : Word) : State :=
  match boundPart s port with
  | none => s
  | some p =>
    let s1 := forEach (boundPorts s p) s (fun s n => storeReg s (portReg n 0x28) v)
    forEach (tilesOfPart s p) s1 (fun s t => setFld (wakeT1 s t) (tileReg t 0x208) 35 0 (fld s1 (portReg port 0x28) 35 0))

/-- Keys of a queue's registers. -/
def qBase (n q : Nat) : Nat := portReg n (0x1000 + 0x40 * q)
/-- QCFG_SIZE. -/
def qSize (n q : Nat) : Nat := portReg n (0x1010 + 0x40 * q)
/-- QCFG_STAT. -/
def qStat (n q : Nat) : Nat := portReg n (0x1018 + 0x40 * q)

/-- Whether a queue pair is enabled. -/
def qEnabled (s : State) (n q : Nat) : Bool := bit (rd s (qSize n q)) 40

/-- Stop a queue with a reason (Table 9.6). -/
def qFault (s : State) (n q reason : Nat) : State :=
  updPort (setFld (setBit s (qStat n q) 32) (qStat n q) 35 33 reason) n (fun x => { x with stopped := q :: x.stopped.filter (fun k => decide (k ≠ q)) })

/-- Count a doorbell or queue register error. -/
def dbErr (s : State) (n : Nat) : State := addFld s (portErr n) 63 48 1

/-- A write of QCFG_SIZE: size fields change only while EN is 0; setting EN clears the indices and starts the phase at 1; a size of 0 stops the
queue. Once FAULT is cleared, a clear EN lets a stopped queue start again (R240). -/
def writeSize (s : State) (n q : Nat) (v : Word) : State :=
  let k := qSize n q
  let old := rd s k
  let on := bit old 40
  let sized := decide (bits v 11 0 = bits old 11 0 ∧ bits v 27 16 = bits old 27 16)
  let v1 := if on then putBits (putBits v 11 0 (bits old 11 0)) 27 16 (bits old 27 16) else v
  let s1 := if on && !sized then dbErr s n else s
  let s2 := updPort (storeReg s1 k v1) n (fun x =>
    if !(bit v 40) && !(bit (rd s (qStat n q)) 32) then { x with stopped := x.stopped.filter (fun k => decide (k ≠ q)) } else x)
  if !on && bit v 40 then
    let s3 := setFld (setFld s2 (qStat n q) 11 0 0) (qStat n q) 27 16 0
    let s4 := updPort s3 n (fun x => { x with sqTail := spDel x.sqTail q, cqHead := spDel x.cqHead q, phase := spSet x.phase false q true })
    if bits v1 11 0 = 0 ∨ bits v1 27 16 = 0 then qFault s4 n q 1 else s4
  else s2

/-- A write of a queue's base address: discarded and counted while EN is 1. -/
def writeBase (s : State) (n off : Nat) (v : Word) : State :=
  if qEnabled s n ((off - 0x1000) / 0x40) then dbErr s n else storeReg s (portReg n off) v

/-- A doorbell value against a queue's size: `none` where it stops the queue. -/
def doorbell (s : State) (n q lo hi : Nat) (v : Nat) : State × Option Nat :=
  let i := v % 4096
  if !(qEnabled s n q) then
    (let f := takeFree (dbErr s n)
     (qFault f.1 n q (f.2.toNat % 8), none))
  else if fld s (qSize n q) hi lo < i then (qFault (dbErr s n) n q 0, none)
  else (s, some i)

/-- A write of an SQ tail doorbell. -/
def ringTail (s : State) (n q v : Nat) : State :=
  let r := doorbell s n q 0 11 v
  match r.2 with
  | some i => updPort r.1 n (fun x => { x with sqTail := spSet x.sqTail 0 q i })
  | none => r.1

/-- A write of a CQ head doorbell. -/
def ringHead (s : State) (n q v : Nat) : State :=
  let r := doorbell s n q 16 27 v
  match r.2 with
  | some i => updPort r.1 n (fun x => { x with cqHead := spSet x.cqHead 0 q i })
  | none => r.1

/-! ### MSI-X, BAR4 and the configuration space (R231, R234, R239) -/

/-- Key of the word of an MSI-X vector that holds its data and its mask bit. -/
def msixCtl (n v : Nat) : Nat := portReg n (0x2080008 + 0x10 * v)
/-- Key of the pending bits. -/
def msixPending (n : Nat) : Nat := portReg n 0x2090000

/-- Raise an interrupt: a masked vector stays pending. -/
def raiseMsix (s : State) (n v : Nat) : State :=
  if bit (rd s (msixCtl n v)) 32 then setFld s (msixPending n) v v 1
  else updPort s n (fun x => { x with msix := x.msix ++ [BitVec.ofNat 6 v] })

/-- Send an interrupt that is pending once its vector is no longer masked. -/
def sendPending (s : State) (n v : Nat) : State :=
  if bit (rd s (msixPending n)) v && !(bit (rd s (msixCtl n v)) 32) then raiseMsix (setFld s (msixPending n) v v 0) n v else s

/-- A write to BAR4: a doorbell, or a word of the MSI-X table. -/
def bar4Write (s : State) (n off : Nat) (v : Word) : State :=
  if off < 0x10000 then
    (if off % 0x1000 = 0 then ringTail s n (off / 0x1000) v.toNat
     else if off % 0x1000 = 0x800 then ringHead s n (off / 0x1000) v.toNat
     else s)
  else if off < 0x80400 then sendPending (storeReg s (portReg n (0x2000000 + off)) v) n ((off - 0x80000) / 16)
  else s

/-- A word of the configuration space: the identifiers and the class code, the base address registers, and what the spec leaves open. -/
def cfgRead (s : State) (n off : Nat) : Word :=
  let w := Config.configWord off
  if off = 0 then putBits w 31 16 0x4840
  else if off = 8 then putBits w 31 8 0x120000
  else if off = 0x28 then putBits w 63 48 s.m.fuses.grade.toNat
  else if 0x10 ≤ off ∧ off < 0x28 then rd s (portReg n (0x3000000 + off))
  else w

/-- A write to the configuration space takes the base address registers. -/
def cfgWrite (s : State) (n off : Nat) (v : Word) : State :=
  if (portOf s n).linkUp ∧ 0x10 ≤ off ∧ off < 0x28 ∧ off % 8 = 0 then storeReg s (portReg n (0x3000000 + off)) v else s

/-- A write to BAR0. -/
def bar0Write (s : State) (port off : Nat) (v : Word) : State :=
  if off = 0x20 then (if bit v 3 then giveAdmin s port (bits v 2 0) else s)
  else if off = 0x28 then setWdog s port v
  else if 0x1000 ≤ off ∧ off < 0x1400 ∧ off % 0x40 = 0x10 then writeSize s port ((off - 0x1000) / 0x40) v
  else if 0x1000 ≤ off ∧ off < 0x1400 ∧ (off % 0x40 = 0 ∨ off % 0x40 = 8) then writeBase s port off v
  else if off < 0x1000000 then storeReg s (portReg port off) v
  else s

/-- A word of the telemetry pages: the two snapshot buffers (R315). -/
def telemetry (s : State) (off : Nat) : Word := (spGet s.m.census.snapshot [] (off / 0x10000)).getD (off % 0x10000 / 8) 0

/-- A read of a word of BAR0. -/
def bar0Read (s : State) (port off : Nat) : State × Word :=
  if off < 0x1000000 then readRegAt s (portReg port off)
  else (s, if off < 0x1020000 ∧ off % 8 = 0 then telemetry s (off - 0x1000000) else 0)

/-! ### Registers by address -/

/-- Write one register as a host reaches it. -/
def writeAddr (s : State) (r : RegAddr) (v : Word) : State :=
  match r with
  | .dga port a => if inRegSpace a.toNat 8 then barWrite s port.val a.toNat (leBytes 8 v.toNat) else s
  | .bar0 port off => bar0Write s port.val off.toNat v
  | .bar4 port off => bar4Write s port.val off.toNat v
  | .cfg port off => cfgWrite s port.val off.toNat v

/-- Read one register as a host reaches it; the port keeps the value. -/
def readAddr (s : State) (r : RegAddr) : State :=
  match r with
  | .dga port a =>
    if inRegSpace a.toNat 8 then
      let s1 := barRead s port.val a.toNat 8
      updPort s1 port.val (fun x => match x.answer with
        | some (.data bs) => { x with regRead := BitVec.ofNat 64 (leNat bs) }
        | _ => x)
    else s
  | .bar0 port off =>
    let x := bar0Read s port.val off.toNat
    updPort x.1 port.val (fun y => { y with regRead := x.2 })
  | .bar4 port off => updPort s port.val (fun y => { y with
      regRead := if off.toNat < 0x80000 then 0 else rd s (portReg port.val (0x2000000 + off.toNat)) })
  | .cfg port off => updPort s port.val (fun y => if y.linkUp then { y with regRead := cfgRead s port.val off.toNat } else y)

/-- A write of RL_CTL with the draw of its listening time; only the administration port's (R319, R328). -/
def writeNodeId (s : State) (port : Nat) (v : Word) (draw : Nat) : State :=
  if adminPort s = port then restartSelection (storeReg s (s0Health 0xF200) v) draw else s

/-! ### Meanings -/

/-- BAR2_READ (R237). -/
def execBar2Read (port : PortId) (offset : BitVec 37) (len : Nat) (s : State) : Host.Outcome State Fault Refusal :=
  .next (match barAddr offset.toNat with
    | some a => barRead s port.val a len
    | none => updPort (setAnswer s port.val .unsupported) port.val (fun x => { x with aerUr := x.aerUr + 1 }))

/-- BAR2_WRITE (R237). -/
def execBar2Write (port : PortId) (offset : BitVec 37) (data : List Byte) (s : State) : Host.Outcome State Fault Refusal :=
  .next (match barAddr offset.toNat with
    | some a => barWrite s port.val a data
    | none => addFld s (portErr port.val) 47 32 1)

/-- CLUSTER_REGISTER_READ_C2 (R72). -/
def execClusterRegisterReadC2 (d : ComputeDie) (cluster : Fin 16) (offset : BitVec 8) (s : State) : Host.Outcome State Fault Refusal :=
  .next (readAsleep s d.val cluster.val offset.toNat)

/-- CLUSTER_WAKE (R303). -/
def execClusterWake (d : ComputeDie) (cluster : Fin 16) (s : State) : Host.Outcome State Fault Refusal :=
  .next (wakeCluster s d.val cluster.val)

/-- C2_ENTRY (R303). -/
def execC2Entry (d : ComputeDie) (cluster : Fin 16) (s : State) : Host.Outcome State Fault Refusal :=
  .next (enterC2 s d.val cluster.val)

/-- GIVE (R245). -/
def execGive (port dst : PortId) (s : State) : Host.Outcome State Fault Refusal := .next (giveAdmin s port.val dst.val)

/-- PART_WDOG_WRITE (R238). -/
def execPartWdogWrite (port : PortId) (value : Word) (s : State) : Host.Outcome State Fault Refusal := .next (setWdog s port.val value)

/-- SNAP (R69). -/
def execSnap (t : TileId) (s : State) : Host.Outcome State Fault Refusal := .next (intoTile s t (fun s => snapStalls s t))

/-- CLR (R69). -/
def execClr (t : TileId) (s : State) : Host.Outcome State Fault Refusal := .next (intoTile s t (fun s => clearStalls s t))

/-- RNG_SEED_WRITE (R86). -/
def execRngSeedWrite (t : TileId) (value : Word) (s : State) : Host.Outcome State Fault Refusal :=
  .next (intoTile s t (fun s => writeReg s false (tileReg t 0x840) value))

/-- TILE_KEEP_WRITE (R55). -/
def execTileKeepWrite (t : TileId) (n : Fin 4) (value : Word) (s : State) : Host.Outcome State Fault Refusal :=
  .next (intoTile s t (fun s => writeReg s false (keepReg t n) value))

/-- INSTRUCTION_STORE_WRITE (R45). -/
def execInstructionStoreWrite (t : TileId) (index : BitVec 15) (value : Word) (s : State) : Host.Outcome State Fault Refusal :=
  .next (intoTile s t (fun s => istoreWrite s t (0x700000 + 8 * index.toNat) (leBytes 8 value.toNat)))

/-- TRIGGER_ENTRY_WRITE (R183). -/
def execTriggerEntryWrite (t : TileId) (entry : BitVec 8) (word : Fin 4) (value : Word) (s : State) : Host.Outcome State Fault Refusal :=
  .next (intoTile s t (fun s => writeReg s false (trigReg t entry.toNat word) value))

/-- MPWR_CAP_WRITE (R276). -/
def execMpwrCapWrite (port : PortId) (value : Word) (s : State) : Host.Outcome State Fault Refusal :=
  .next (writeReg s (decide (adminPort s = port.val)) (s0Power 0x808) value)

/-- MERE_RESLIM_WRITE (R280). -/
def execMereReslimWrite (port : PortId) (value : Word) (s : State) : Host.Outcome State Fault Refusal :=
  .next (writeReg s (decide (adminPort s = port.val)) (s0Power 0x840) value)

/-- RL_KEY3_WRITE (R326). -/
def execRlKey3Write (port : PortId) (value : Word) (s : State) : Host.Outcome State Fault Refusal :=
  .next (writeReg s (decide (adminPort s = port.val)) (s0Health 0xF228) value)

/-- NODE_ID_WRITE (R319). -/
def execNodeIdWrite (port : PortId) (value : Word) (draw : Fin 5001) (s : State) : Host.Outcome State Fault Refusal :=
  .next (writeNodeId s port.val value draw.val)

/-- RC_COUNTER_READ (R14). -/
def execRcCounterRead (r : RegAddr) (s : State) : Host.Outcome State Fault Refusal := .next (readAddr s r)

/-- REGISTER_WRITE (R342). -/
def execRegisterWrite (r : RegAddr) (value : Word) (s : State) : Host.Outcome State Fault Refusal := .next (writeAddr s r value)

end Sys2Proof.Machine
end

