-- ==== Sys2Proof/Machine/Queues.lean ====
section
/-!
DEFINITION. Host ports: links and resets, submission and completion queues, and device accesses to host memory (R231 to R233, R239, R240, R242,
R250, R334, R335).

What the spec leaves open here: log entries 58, 69, 70, 71, 88 and 89.
-/

namespace Sys2Proof.Machine

/-! ### Links and resets (R231 to R233, R335) -/

/-- Key of PORT_LINK. -/
def portLink (n : Nat) : Nat := portReg n 0x10

/-- The link of a port goes down. -/
def linkDown (s : State) (n : Nat) : State := setFld (updPort s n (fun x => { x with linkUp := false })) (portLink n) 7 0 0

/-- A partition's INVOKE and waiting ABORTs without those of a port, whose completions are discarded. -/
def forgetPort (n : Nat) (x : Partition) : Partition :=
  { x with
    quiet := x.quiet || x.invoke.any (fun c => decide (c.port.val = n))
    abortCmds := x.abortCmds.filter (fun c => decide (c.port.val ≠ n)) }

/-- An epoch's command without one of a port. -/
def forgetOrigin (n : Nat) (o : EpochOrigin) : EpochOrigin :=
  match o with
  | .load p c => .load p (c.filter (fun c => decide (c.port.val ≠ n)))
  | .commit c => .commit (c.filter (fun c => decide (c.port.val ≠ n)))
  | o => o

/-- Whether a key is of a port's queue registers, of its MSI-X table or pending bits, or of its base address registers. -/
def ofFunction (n key : Nat) : Bool :=
  decide (portReg n 0x1000 ≤ key ∧ key < portReg n 0x1400) || decide (portReg n 0x2000000 ≤ key ∧ key < portReg n 0x4000000)

/-- Function Level Reset, hot reset or PERST# of a port (R233): its queues are disabled, its uncompleted commands are discarded, its BAR and
queue registers return to reset. -/
def resetPort (s : State) (n : Nat) : State :=
  let s1 := { s with regs := s.regs.filter (fun r => !(ofFunction n r.1)), tick := s.tick.without (ofFunction n) }
  let s2 := updPort s1 n (fun x => { x with
    sqTail := [], cqHead := [], phase := [], stopped := [], turn := 0, fetched := [], done := [], waiting := [] })
  let s3 := forEach (List.range 8) s2 (fun s p => updPart s p (forgetPort n))
  updM s3 (fun m => { m with epochs := m.epochs.map (fun e => { e with origin := forgetOrigin n e.origin }) })

/-- PERSTn# changes level: low resets the port, high lets its link train. -/
def setPerst (s : State) (n : Nat) (level : Bool) : State :=
  if level then updPort s n (fun x => { x with perst := false })
  else updPort (linkDown (resetPort s n) n) n (fun x => { x with perst := true, d3 := false, pmeEn := false })

/-- Whether a link may train: PERST# is high and the port's station die is powered. -/
def mayTrain (s : State) (n : Nat) : Bool := !((portOf s n).perst) && (dieOf s (40 + n)).region

/-- A link has trained at a rate (1 to 3: 16, 32 and 64 GT/s) and width: one below 16 GT/s is held down (R231). 64 GT/s is in Flit mode, and a
port supports 4, 8 and 16 lanes. No link trains before 54 V has been there for 100 ms (R232). -/
def trainLink (s0 : State) (n rate width : Nat) (flit : Bool) : State :=
  if !(mayTrain s0 n) then s0
  else
  let s := waitUntil s0 (s0.m.power.inputAt + 100000000)
  if rate = 0 then setBit (linkDown s n) (portLink n) 8
  else if width = 4 ∨ width = 8 ∨ width = 16 then
    setFld (updPort s n (fun x => { x with linkUp := true })) (portLink n) 7 0 (rate + width * 4 + b2n (flit || decide (rate = 3)) * 128)
  else s

/-! ### Queues (R239, R240) -/

/-- Whether an SQ has a command to fetch: enabled, not stopped (R240), not empty. -/
def sqReady (s : State) (n q : Nat) : Bool :=
  qEnabled s n q && !((portOf s n).stopped.contains q) && decide (fld s (qStat n q) 11 0 ≠ spGet (portOf s n).sqTail 0 q)

/-- The opcodes of Table 9.7. -/
def knownOp (w0 : Word) : Bool := decide (bits w0 7 0 ≤ 0x0D)

/-- The command that a port reads from an entry of a submission queue. -/
def readCmd (s : State) (n q head : Nat) : HostCmd :=
  let a := hostAddr n ((rd s (qBase n q)).toNat + 64 * head)
  let w (k : Nat) : Word := readWord s (a + 8 * k)
  ⟨Fin.ofNat 8 n, Fin.ofNat 16 q, w 0, w 1, w 2, w 3, w 4, w 5, w 6, w 7⟩

/-- Fetch one command: the queues take turns, and one whose read fails stops (R240). An opcode of no command completes at once: INVALID_OPCODE, or NOT_READY
before the module is ready (R232). -/
def fetchCmd (s : State) (n : Nat) (ok : Bool) : State :=
  if !((portOf s n).linkUp) then s
  else match ((List.range 16).map (fun k => ((portOf s n).turn + k) % 16)).find? (sqReady s n) with
    | none => s
    | some q =>
      let s1 := updPort s n (fun x => { x with turn := (q + 1) % 16 })
      if !ok then qFault (addFld s1 (portErr n) 15 0 1) n q 2
      else
        let head := fld s (qStat n q) 11 0
        let c := readCmd s n q head
        let s2 := setFld s1 (qStat n q) 11 0 ((head + 1) % (fld s (qSize n q) 11 0 + 1))
        if knownOp c.w0 then updPort s2 n (fun x => { x with fetched := x.fetched ++ [c] })
        else if bit (rd s2 modStatus) 0 then failCmd s2 c 1 0 else failCmd s2 c 3 (stageOf s2)

/-- Write the oldest completion of a queue into its CQ: not while the link is down, the queue disabled or the CQ full (R240, R242). -/
def writeCompletion (s : State) (n q : Nat) : State :=
  let x := portOf s n
  let slots := fld s (qSize n q) 27 16 + 1
  let tail := fld s (qStat n q) 27 16
  let nextTail := (tail + 1) % slots
  match x.done.find? (fun c => decide (c.q.val = q)) with
  | none => s
  | some c =>
    if !(x.linkUp && qEnabled s n q) || decide (nextTail = spGet x.cqHead 0 q) then s
    else
      let phase := spGet x.phase false q
      let w1 := c.cid.toNat + q * 2 ^ 16 + fld s (qStat n q) 11 0 * 2 ^ 20 + c.status.toNat * 2 ^ 32 + c.detail.toNat * 2 ^ 40 + b2n phase * 2 ^ 48
      let a := hostAddr n ((rd s (portReg n (0x1008 + 0x40 * q))).toNat + 16 * tail)
      let s1 := writeWord (writeWord s a c.result) (a + 8) (BitVec.ofNat 64 w1)
      let s2 := setFld s1 (qStat n q) 27 16 nextTail
      let s3 := updPort s2 n (fun y => { y with
        done := y.done.erase c
        phase := spSet y.phase false q (if nextTail = 0 then !phase else phase) })
      if bit (rd s (qSize n q)) 41 then raiseMsix s3 n (fld s (qSize n q) 37 32) else s3

/-! ### Device accesses to host memory (R233) -/

/-- Whether a packet is for a port's unit of its station die. -/
def forPort (p : Packet) (n : Nat) : Bool := decide (p.dstDie.toNat = 40 + n ∧ p.dstTile.toNat = 2)

/-- A read of host memory: its data comes back, or a NAK of reason POISON, which HOST_RD_FAIL counts. -/
def hostRead (s : State) (n : Nat) (p : Packet) (r : HostReadResult) : State :=
  let failed (s : State) : State := nakPacket (addFld s (portErr n) 15 0 1) p 2
  if !(readLenOk p) then nakPacket s p 4
  else if !((portOf s n).linkUp) then failed s
  else match r with
    | .data bs => if bs.length = readLen p then readAnswer s p bs else failed s
    | _ => failed s

/-- A posted write to host memory: transmitted and acknowledged, or answered LINK while the link is down or where a link of the mesh has cut it
(R165). A poisoned one is forwarded, and what
the host then holds there is undefined. -/
def hostWrite (s : State) (n : Nat) (p : Packet) : State :=
  let a := hostAddr n p.addr.toNat
  if !((portOf s n).linkUp) || decide (p.nakr = 5) then nakPacket s p 5
  else if p.poison then ackPacket (undefine s a (a + p.data.length)) p
  else ackPacket (writeBytes s a p.data) p

/-! ### Crossings between partitions (R250) -/

/-- The directed crossings of the paths on which a partition's traffic leaves it, to a station die or between its own dies, as
(die, exit, plane). -/
def loads (s : State) (p : Nat) : List (Nat × Nat × Nat) :=
  let own := diesOfPart s p
  let path (a b : Nat) (pl : Plane) := walk s (genOf s a) pl b 47 a
  (own.flatMap (fun a => (own ++ (List.range 8).map (fun n => 40 + n)).flatMap (fun b => [Plane.up, Plane.down].flatMap (fun pl =>
    if planeOk s a b pl && !((path a b pl).all (fun x => own.contains x.2.2)) then (path a b pl).map (fun x : Nat × Nat × Nat => (x.1, x.2.1, planeNum pl))
    else [])))).eraseDups

/-- Flits per 10 µs that a crossing carries on one plane: twelve links at 1.4 GHz. -/
def xingFlits : Nat := 168000

/-- A partition's allowance on a crossing that some partitions load: its minimum share, and its weight's part of the remainder. -/
def crossingShare (s : State) (users : List Nat) (p : Nat) : Nat :=
  let least (q : Nat) : Nat := if (fld s (partReg q 0x10) 7 3).testBit 4 then 0 else fld s (partReg q 8) 39 32 * xingFlits / 100
  let weight (q : Nat) : Nat := fld s (partReg q 0) 29 22
  let rest := xingFlits - (users.map least).foldl (fun a b => a + b) 0
  let all := (users.map weight).foldl (fun a b => a + b) 0
  least p + (if all = 0 then 0 else rest * weight p / all)

/-- A partition's allowance: the least over the crossings that it shares; `none` where it shares none. -/
def partAllowance (s : State) (p : Nat) : Option Nat :=
  let ls := (allParts s).map (fun q => (q, loads s q))
  earliest ((loads s p).filterMap (fun x =>
    let users := (ls.filter (fun l => l.2.contains x)).map (fun l => l.1)
    if 1 < users.length then some (crossingShare s users p) else none))

/-- Release what a tile holds back, as far as its new allowance lasts. -/
def releaseOut (s : State) (t : Nat) : State :=
  let held := (tileOf s t).heldOut
  tileSendAll (updTile s t (fun x => { x with heldOut := [] })) t held

/-- A period of 10 µs: every tile's part is renewed and its held packets go on. -/
def renewAllowance (s0 : State) : State :=
  let s := waitUntil s0 s0.m.power.xingAt
  let s1 := updM s (fun m => { m with power := { m.power with xingAt := s.now + 10000 } })
  forEach (allParts s) s1 (fun s p =>
    let part := (partAllowance s1 p).map (fun n => n / (tilesOfPart s1 p).length)
    forEach (tilesOfPart s1 p) s (fun s t => releaseOut (updTile s t (fun x => { x with allow := part })) t))

/-! ### Meanings -/

/-- PERST (R335). `level` is the level of the pin PERSTn#. -/
def execPerst (port : PortId) (level : Bool) (s : State) : Host.Outcome State Fault Refusal := .next (setPerst s port.val level)

/-- LINK_UP (R232). -/
def execLinkUp (port : PortId) (rate : BitVec 2) (width : BitVec 5) (flit : Bool) (s : State) : Host.Outcome State Fault Refusal :=
  .next (trainLink s port.val rate.toNat width.toNat flit)

/-- PORT_LINK_DOWN (R233). -/
def execPortLinkDown (port : PortId) (s : State) : Host.Outcome State Fault Refusal := .next (linkDown s port.val)

/-- FUNCTION_LEVEL_RESET (R233). -/
def execFunctionLevelReset (port : PortId) (s : State) : Host.Outcome State Fault Refusal := .next (resetPort s port.val)

/-- D3HOT (R335): WAKEn# follows the port's power state, PME enable and queued events. -/
def execD3hot (port : PortId) (d3 pmeEn : Bool) (s : State) : Host.Outcome State Fault Refusal :=
  .next (updPort s port.val (fun x => { x with d3 := d3, pmeEn := pmeEn }))

/-- SQ_TAIL_DOORBELL (R240). -/
def execSqTailDoorbell (port : PortId) (q : Fin 16) (value : Lane) (s : State) : Host.Outcome State Fault Refusal :=
  .next (ringTail s port.val q.val value.toNat)

/-- CQ_HEAD_DOORBELL (R240). -/
def execCqHeadDoorbell (port : PortId) (q : Fin 16) (value : Lane) (s : State) : Host.Outcome State Fault Refusal :=
  .next (ringHead s port.val q.val value.toNat)

/-- QUEUE_ENABLE (R240): a write of QCFG_SIZE. -/
def execQueueEnable (port : PortId) (q : Fin 16) (value : Word) (s : State) : Host.Outcome State Fault Refusal :=
  .next (writeSize s port.val q.val value)

/-- COMMAND_FETCH (R240). -/
def execCommandFetch (port : PortId) (readOk : Bool) (s : State) : Host.Outcome State Fault Refusal := .next (fetchCmd s port.val readOk)

/-- COMPLETION_WRITE (R242). -/
def execCompletionWrite (port : PortId) (q : Fin 16) (s : State) : Host.Outcome State Fault Refusal := .next (writeCompletion s port.val q.val)

/-- HOST_MEMORY_READ (R233). -/
def execHostMemoryRead (port : PortId) (p : Packet) (result : HostReadResult) (s : State) : Host.Outcome State Fault Refusal :=
  .next (if forPort p port.val ∧ p.type.toNat = 1 then arrive s p (fun s => hostRead s port.val p result) else stay s p)

/-- HOST_MEMORY_WRITE (R233). -/
def execHostMemoryWrite (port : PortId) (p : Packet) (s : State) : Host.Outcome State Fault Refusal :=
  .next (if forPort p port.val ∧ p.type.toNat = 0 then arrive s p (fun s => hostWrite s port.val p) else stay s p)

/-- CROSSING_ALLOWANCE (R250). -/
def execCrossingAllowance (s : State) : Host.Outcome State Fault Refusal := .next (renewAllowance s)

end Sys2Proof.Machine
end

