-- ==== Sys2Proof/Machine/Commands.lean ====
section
/-!
DEFINITION. The host commands but CONSIST_LOAD (R28, R30, R210, R232, R241 to R248, R305, R307, R308, R317, Tables 9.7 to 9.9).

What the spec leaves open here: log entries 24, 36, 57, 72, 73 and 104.
-/

namespace Sys2Proof.Machine

/-! ### Accepting a command (R232, R240, R241) -/

/-- Whether every named-nowhere bit of the operand words is 0; else the first word with one. `masks` are the bits of words 1 to 3 that Table 9.7
names. -/
def firstReserved (c : HostCmd) (masks : Nat × Nat × Nat) : Option Nat :=
  let ws := [(c.w0, 0xFFFF00FF), (c.w1, masks.1), (c.w2, masks.2.1), (c.w3, masks.2.2), (c.w4, 0), (c.w5, 0), (c.w6, 0), (c.w7, 0)]
  (List.range 8).find? (fun k => match ws[k]? with
    | some x => decide (x.1.toNat &&& x.2 ≠ x.1.toNat)
    | none => false)

/-- Whether a command is of partition scope (R243). -/
def partScope (c : HostCmd) : Bool := ([3, 5, 6, 7, 8, 9] : List Nat).contains (bits c.w0 7 0)

/-- Whether a command may start now: it is of this opcode, and none that its port fetched before it from its queue still waits to start (R240), nor
one of partition scope where it is of partition scope (R243). -/
def mayStart (s : State) (c : HostCmd) (op : Nat) : Bool :=
  let l := (portOf s c.port.val).fetched
  decide (bits c.w0 7 0 = op) &&
    (!(l.contains c) || (l.takeWhile (fun x => x != c)).all (fun x => (x.q != c.q) && !(partScope x && partScope c)))

/-- MOD_STATUS.READY. -/
def moduleReadyBit (s : State) : Bool := bit (rd s modStatus) 0

/-- A command that every port may send, and that starts only where its act has something to do: it waits where that answers none. -/
def commandOr (s : State) (c : HostCmd) (op : Nat) (masks : Nat × Nat × Nat) (early : Bool) (act : State → Option State) : State :=
  if !(mayStart s c op) then s
  else
    let s1 := updPort s c.port.val (fun x => { x with fetched := x.fetched.erase c })
    if !(early || moduleReadyBit s1) then failCmd s1 c 0x03 (stageOf s1)
    else match firstReserved c masks with
      | some k => failCmd s1 c 0x02 k
      | none => (act s1).getD s

/-- A command that every port may send. -/
def command (s : State) (c : HostCmd) (op : Nat) (masks : Nat × Nat × Nat) (early : Bool) (act : State → State) : State :=
  commandOr s c op masks early (fun s => some (act s))

/-- A command of the administration port alone. -/
def adminCommand (s : State) (c : HostCmd) (op : Nat) (masks : Nat × Nat × Nat) (act : State → State) : State :=
  command s c op masks false (fun s => if adminPort s = c.port.val then act s else failCmd s c 0x04 0)

/-- A command on the port's partition, which waits where its act answers none. -/
def partCommandOr (s : State) (c : HostCmd) (op : Nat) (masks : Nat × Nat × Nat) (act : State → Nat → Option State) : State :=
  commandOr s c op masks false (fun s => match boundPart s c.port.val with
    | some p => act s p
    | none => some (failCmd s c 0x05 0))

/-- A command on the port's partition. -/
def partCommand (s : State) (c : HostCmd) (op : Nat) (masks : Nat × Nat × Nat) (act : State → Nat → State) : State :=
  partCommandOr s c op masks (fun s p => some (act s p))

/-- PART_BUSY with the partition's state. -/
def busy (s : State) (c : HostCmd) (p : Nat) : State := failCmd s c 0x06 (partState s p)

/-! ### IDENTIFY (R317) -/

/-- The module identity page (Table 12.7). -/
def identityPage (s : State) : List Byte :=
  let good := ((List.range 5760).filter (goodTile s)).length
  let f := s.m.fuses
  leBytes 2 1 ++ [f.grade, 0] ++ leBytes 2 good ++ leBytes 2 (5760 - f.fused.eraseDups.length) ++ f.moduleId ++ f.mac ++ [0, 0]
    ++ leBytes 8 (fencedMask s) ++ mapHash s [] ++ leBytes 8 s.m.power.fwVer.toNat ++ defectMap s []
    ++ tileMap (fun t => !(f.fused.contains t)) ++ List.replicate 2576 0

/-- Write the page to a 4 KiB buffer of the host. -/
def identify (s : State) (c : HostCmd) : State :=
  if c.w1.toNat % 4096 ≠ 0 ∨ 2 ^ 52 ≤ c.w1.toNat then failCmd s c 0x02 1
  else if !((portOf s c.port.val).linkUp) then failCmd s c 0x12 5
  else complete (writeBytes s (hostAddr c.port.val c.w1.toNat) (identityPage s)) c 0 0 0

/-! ### Partitions (R246, R247) -/

/-- The dies of the rectangle in words 1 of PART_CREATE. -/
def shapeDies (w1 : Word) : List Nat :=
  (List.range 40).filter (fun d => decide (bits w1 5 3 ≤ d % 8 ∧ d % 8 ≤ bits w1 8 6 ∧ bits w1 11 9 ≤ d / 8 ∧ d / 8 ≤ bits w1 14 12))

/-- What a minimums word asks of a resource. -/
def askedMin (w2 : Word) (r : Nat) : Nat :=
  match r with
  | 0 => bits w2 31 16 * 10
  | 2 => bits w2 7 0
  | 3 => bits w2 15 8
  | 4 => bits w2 39 32
  | _ => 0

/-- The first resource whose class-A minimums would not fit with a partition's new ones. -/
def overfull (s : State) (p : Nat) (classB : Bool) (w2 : Word) : Option Nat :=
  let others := (allParts s).filter (fun q => decide (q ≠ p ∧ fld s (partReg q 0) 1 1 = 0))
  ([0, 2, 3, 4] : List Nat).find? (fun r =>
    !classB && decide (capacityOf s r < (others.map (fun q => guarantee s q r)).foldl (fun a b => a + b) 0 + askedMin w2 r))

/-- The checks that PART_CREATE and PART_SET share; the partition's own ports do not count as bound. -/
def partChecks (s : State) (c : HostCmd) (p : Nat) : Option (Nat × Nat) :=
  let ports := bits c.w1 23 16
  let classB := bit c.w1 15
  if ports = 0 then some (0x02, 1)
  else match (List.range 8).find? (fun n => ports.testBit n && (match boundPart s n with
      | some q => decide (q ≠ p)
      | none => false)) with
    | some n => some (0x08, n)
    | none =>
      if classB ∧ c.w2 ≠ 0 then some (0x02, 2)
      else match overfull s p classB c.w2 with
        | some r => some (0x09, r)
        | none => if (List.range 8).any (fun n => decide (bits c.w3 17 0 < quotaUsed s n p)) then some (0x0A, 0) else none

/-- Class, ports, weight and minimums of a partition from a command; ports newly bound show the partition's watchdog. -/
def setPartCfg (s : State) (c : HostCmd) (p : Nat) (wdog : Nat) : State :=
  let k := partReg p 0
  let before := boundPorts s p
  let s1 := setFld (setFld (setFld s k 1 1 (bits c.w1 15 15)) k 21 14 (bits c.w1 23 16)) k 29 22 (bits c.w1 31 24)
  let s2 := updPart (wr s1 (partReg p 8) (BitVec.ofNat 64 (bits c.w2 39 0))) p (fun x => { x with quota := bits c.w3 17 0 })
  forEach ((boundPorts s2 p).filter (fun n => !(before.contains n))) s2 (fun s n => setFld s (portReg n 0x28) 35 0 wdog)

/-- PART_CREATE. -/
def createPart (s : State) (c : HostCmd) : State :=
  let p := bits c.w1 2 0
  let dies := shapeDies c.w1
  if partExists s p then busy s c p
  else if bits c.w1 8 6 < bits c.w1 5 3 ∨ bits c.w1 14 12 < bits c.w1 11 9 ∨ 4 < bits c.w1 14 12 then failCmd s c 0x02 1
  else match dies.find? (fun d => (partOfDie s d).isSome || s.m.fencedDies.contains d) with
    | some d => failCmd s c 0x07 d
    | none => match partChecks s c p with
      | some x => failCmd s c x.1 x.2
      | none =>
        let num := fld s (moduleReg 8) 31 0
        let s1 := forEach dies s dieOn
        let s2 := setFld s1 (moduleReg 8) 31 0 (num + 1)
        let s3 := wr s2 (partReg p 0) (BitVec.ofNat 64 (1 + bits c.w1 14 3 * 4 + num * 2 ^ 32))
        let s4 := setPartCfg (updPart s3 p (fun _ => Partition.reset)) c p 0x77359400
        let s5 := forEach (List.range 8) s4 (fun s n => replay s n p)
        let step := ((List.range 8).map (fun n => journalStep s5 n p)).foldl max 0
        let s6 := setPartState (wr (wr s5 (partReg p 0x10) 0) (partReg p 0x18) 0) p 1
        complete (rebuildExpect (updPart s6 p (fun x => { x with committed := step, step := step + 1 }))) c 0 0 num

/-- A partition ends: its dies go to D3 and its ports are unbound. Namespaces and journals stay (R247). -/
def endPart (s : State) (p : Nat) : State :=
  let dies := diesOfPart s p
  let s1 := dropColls s p
  let s2 := updM s1 (fun m => { m with epochs := m.epochs.filter (fun e => moduleScope e.type || decide (e.part.val ≠ p)) })
  let s3 := forEach (List.range 8) s2 (fun s n => updStation s n (fun x => { x with
    hold := x.hold.filter (fun h => decide (h.1.val ≠ p)), reads := x.reads.filter (fun r => decide (r.2.part.toNat ≠ p)) }))
  let s4 := forEach dies s3 dieOff
  let s5 := forEach [0, 8, 0x10, 0x18] s4 (fun s off => wr s (partReg p off) 0)
  rebuildExpect (setBudget (updPart s5 p (fun _ => Partition.reset)))

/-- PART_DESTROY. -/
def destroyPart (s : State) (c : HostCmd) : State :=
  let p := bits c.w1 2 0
  if !(partExists s p) then failCmd s c 0x05 0
  else if partState s p = 2 ∨ partState s p = 4 then busy s c p
  else complete (endPart s p) c 0 0 0

/-- PART_SET. -/
def changePart (s : State) (c : HostCmd) : State :=
  let p := bits c.w1 2 0
  if !(partExists s p) then failCmd s c 0x05 0
  else if bits c.w1 14 3 ≠ fld s (partReg p 0) 13 2 then failCmd s c 0x02 1
  else match partChecks s c p with
    | some x => failCmd s c x.1 x.2
    | none =>
      let wdog := match boundPorts s p with
        | n :: _ => fld s (portReg n 0x28) 35 0
        | [] => 0x77359400
      complete (setPartCfg s c p wdog) c 0 0 0

/-! ### Namespaces (R210, R212, R243, R247) -/

/-- Extents that a station die allocates to namespaces (Table 8.1). -/
def allocatable : Nat := 174762

/-- Whether `more` extents may be allocated to a partition on a station die. -/
def mayAllocate (s : State) (n p more : Nat) : Bool :=
  let all := ((List.range 8).map (fun q => quotaUsed s n q)).foldl (fun a b => a + b) 0
  decide (quotaUsed s n p + more ≤ (partOf s p).quota ∧ all + more ≤ allocatable) && (decide (more = 0) || decide (256 ≤ spareFree s n))

/-- A refusal for want of spare extents is reported (R212). -/
def reportShort (s : State) (p : Nat) : State := if (List.range 8).any (fun n => decide (spareFree s n < 256)) then peatEvent s p else s

/-- NS_CREATE. -/
def createNs (s : State) (c : HostCmd) (p : Nat) : State :=
  let ns := bits c.w1 3 0
  let n := bits c.w2 17 0
  if partState s p = 2 then busy s c p
  else if (nsOf s ns).isSome then failCmd s c 0x13 ns
  else if (List.range 8).all (fun k => mayAllocate s k p n) then
    complete (updM s (fun m => { m with nss := m.nss ++ [⟨BitVec.ofNat 4 ns, Fin.ofNat 8 p, n⟩] })) c 0 0 0
  else failCmd (reportShort s p) c 0x0A 0

/-- Free every extent of a namespace. -/
def freeNs (s : State) (ns : Nat) : State :=
  let s1 := forEach (List.range 8) s (fun s n =>
    let mine := (stationOf s n).map.filter (fun e => decide (e.nsid.toNat = ns))
    updStation (forEach mine s (fun s e => keepVersions s n e (fun _ => false))) n
      (fun x => { x with map := x.map.filter (fun e => decide (e.nsid.toNat ≠ ns)) }))
  updM s1 (fun m => { m with nss := m.nss.filter (fun x => decide (x.nsid.toNat ≠ ns)) })

/-- NS_DELETE. -/
def deleteNs (s : State) (c : HostCmd) (p : Nat) : State :=
  let ns := bits c.w1 3 0
  let named := match (partOf s p).consist with
    | some k => k.peatmap.any (fun e => decide (e.nsid.toNat = ns))
    | none => false
  if partState s p = 2 ∨ partState s p = 4 then busy s c p
  else match nsOf s ns with
    | none => failCmd s c 0x02 1
    | some x =>
      if x.part.val ≠ p then failCmd s c 0x02 1
      else if named then failCmd s c 0x13 ns
      else complete (freeNs s ns) c 0 0 0

/-! ### Invocations (R243, R296, R308) -/

/-- Whether a partition has ended a step and still drains it: what would start there waits (R243). -/
def draining (s : State) (p : Nat) : Bool := (partOf s p).aborting && decide (partState s p = 5 ∨ partState s p = 6)

/-- Whether a pair of dies of a partition has lost its routes: it stays stopped until a covering set is installed (R166). -/
def uncoveredPart (s : State) (p : Nat) : Bool := (lostParts s).contains p

/-- INVOKE: the partition is RUNNING and its START epoch is armed. -/
def invokePart (s : State) (c : HostCmd) (p : Nat) : State :=
  let st := partState s p
  let resume := bit c.w1 0
  if (st = 3 ∨ ((st = 5 ∨ st = 6) ∧ resume ∧ uncoveredPart s p = false)) ∧ (partOf s p).invoke = none then
    let s1 := updPart (wakePart s p) p (fun x => { x with
      invoke := some c, quiet := false, prior := st, resume := resume, decided := none, abortAsked := false })
    armEpoch (setPartState s1 p 4) p 4 (b2n resume) (partOf s p).committed .invoke
  else busy s c p

/-- ABORT: it completes with the invocation that it ends. -/
def abortPart (s : State) (c : HostCmd) (p : Nat) : State :=
  if partState s p = 2 then busy s c p
  else if partState s p = 4 then abortStep (updPart s p (fun x => { x with abortCmds := x.abortCmds ++ [c] })) p
  else complete s c 0 0 0

/-- ROUTE_COMMIT: validate the inactive generation and make it current (R160, R161). -/
def commitRoutes (s : State) (c : HostCmd) : State :=
  let g := 1 - boxGen s
  let v := validate s g
  let s1 := recordCheck s v
  if v.ok then armEpoch s1 0 6 g 0 (.commit (some c)) else failCmd s1 c 0x0D v.reason

/-- EVENT_WAIT. -/
def waitEvent (s : State) (c : HostCmd) : State :=
  serveWaits (updPort s c.port.val (fun x => { x with waiting := x.waiting ++ [c] })) c.port.val

/-- FENCE_DIE (R307). -/
def hostFence (s : State) (c : HostCmd) : State :=
  let d := bits c.w1 5 0
  if 40 ≤ d then failCmd s c 0x02 1 else complete (fenceDie s d 7) c 0 0 0

/-! ### COPY (R241) -/

/-- What a piece of a transfer comes to: the state and its value, or the reason of a NAK. -/
inductive Moved (α : Type) where
  | ok (s : State) (v : α)
  | bad (s : State) (nakr : Nat)

/-- Read Peat bytes through the depot cache (R213). -/
def peatFetch (s : State) (p a n : Nat) : Moved (List Byte) :=
  let k := peatStn a
  if !(peatMapped s p a n) then .bad s 3
  else match resolve s k p (entryOf s k (peatNs a) (peatExt a)) with
    | none => .ok s (physBytes (stationOf s k) none (peatOff a) n)
    | some x =>
      let pages := pagesOf (peatOff a) n
      if pages.any (fun g => (stationOf s k).lost.contains (x, g)) then .bad s 2
      else
        let bs := physBytes (stationOf s k) (some x) (peatOff a) n
        if cached (stationOf s k) x pages then .ok (addFld (touchLines s k x pages) (psbReg k 0x48) 63 0 1) bs
        else .ok (forEach pages (addFld s (psbReg k 0x50) 63 0 1) (fun s g => fillLine s k ⟨Fin.ofNat 8 p, x, g⟩)) bs

/-- Read a piece of either side of a copy. A read of host memory that fails is answered POISON and counted (R233). -/
def copyRead (s : State) (port p a n : Nat) (readOk : Bool) : Moved (List Byte) :=
  if 8 ≤ a / 2 ^ 52 then
    (if (portOf s port).linkUp && readOk then .ok s (readBytes s (hostAddr port a) n) else .bad (addFld s (portErr port) 15 0 1) 2)
  else if a / 2 ^ 52 = 2 then peatFetch s p a n
  else if !(dgaMapped a n) || (inRegSpace a n && !(wholeWords (a % 8) n)) then .bad s 3
  else match engineRead s port a n with
    | .done s1 bs => .ok s1 bs
    | .nak s1 => .bad s1 (if barClosed s1 port a then 1 else 2)
    | .wait => .bad s 2

/-- Write a piece of either side of a copy. -/
def copyWrite (s : State) (port p a : Nat) (bs : List Byte) : Moved Unit :=
  if 8 ≤ a / 2 ^ 52 then
    (if (portOf s port).linkUp then .ok (writeBytes s (hostAddr port a) bs) () else .bad s 5)
  else if a / 2 ^ 52 = 2 then (match peatStore s p a bs with
    | some s1 => .ok s1 ()
    | none => .bad (reportShort s p) 3)
  else if !(dgaMapped a bs.length) || (inRegSpace a bs.length && !(wholeWords (a % 8) bs.length)) then .bad s 3
  else match engineWrite s port a bs with
    | .done s1 _ => .ok s1 ()
    | .nak s1 => .bad s1 (if barClosed s1 port a then 1 else 3)
    | .wait => .bad s 3

/-- The bytes that a COPY moves at a time: up to the next boundary of this size on the engine's side. -/
def copyPiece : Nat := 2048

/-- Move the rest of a copy piece by piece, up to the first that fails; `failed` is the number of pieces before the one whose host read fails. -/
def copyPieces : Nat → State → Nat → Nat → Nat → Nat → Nat → Option Nat → Moved Unit
  | 0, s, _, _, _, _, _, _ => .ok s ()
  | fuel + 1, s, port, p, src, dst, n, failed =>
    if n = 0 then .ok s ()
    else
      let k := min n (copyPiece - (if 8 ≤ src / 2 ^ 52 then dst else src) % copyPiece)
      match copyRead s port p src k (decide (failed ≠ some 0)) with
      | .bad s1 r => .bad s1 r
      | .ok s1 bs => match copyWrite s1 port p dst bs with
        | .bad s2 r => .bad s2 r
        | .ok s2 _ => copyPieces fuel s2 port p (src + k) (dst + k) (n - k) (failed.map (fun f => f - 1))

/-- The tiles that a range of tile space touches, each with the offset and length of its part. -/
def tileParts (a n : Nat) : List (Nat × Nat × Nat) :=
  (List.range ((a % 2 ^ 23 + n + 2 ^ 23 - 1) / 2 ^ 23)).map (fun i =>
    let lo := if i = 0 then a else (a / 2 ^ 23 + i) * 2 ^ 23
    (lo, lo % 2 ^ 23, min (a + n) ((a / 2 ^ 23 + i + 1) * 2 ^ 23) - lo))

/-- Whether a range may be the partition's side of a COPY: its tile space, where no tile is fused (R5), its own block of a PSB, a class-D extent of
its namespaces. -/
def copySide (s : State) (p a n : Nat) : Bool :=
  if a / 2 ^ 52 = 0 then decide (a / 2 ^ 37 = 0) && (tileParts a n).all (fun x =>
    decide (dgaIndex x.1 < 144) && partHolds s p (dgaDie x.1) && !(s.m.fuses.fused.contains (dgaTile x.1)))
  else if a / 2 ^ 52 = 1 then decide (a / 2 ^ 37 % 2 ^ 15 = 0 ∧ 40 ≤ dgaDie a ∧ dgaDie a < 48) && inOwnPsb p a n
  else decide (a / 2 ^ 52 = 2) && peatMapped s p a n
    && decide ((entryOf s (peatStn a) (peatNs a) (peatExt a)).cls = .d)

/-- Whether the TE holds an accumulator bank that a range of tile space meets (R61). -/
def copyHeld (s : State) (a n : Nat) : Bool := decide (a / 2 ^ 52 = 0) && (tileParts a n).any (fun x => accHeldIn s (dgaTile x.1) x.2.1 x.2.2)

/-- COPY between host memory and the partition; it waits while the TE holds an accumulator bank of its range. -/
def copyCmd (s : State) (c : HostCmd) (p : Nat) (failed : Option Nat) : Option State :=
  let src := c.w1.toNat
  let dst := c.w2.toNat
  let n := bits c.w3 31 0
  let host (a : Nat) : Bool := decide (a / 2 ^ 52 = 8 + c.port.val ∧ a % 2 ^ 52 + n ≤ 2 ^ 52)
  if !(host src || copySide s p src n) then some (failCmd s c 0x02 1)
  else if !(host dst || copySide s p dst n) || (host src == host dst) then some (failCmd s c 0x02 2)
  else if n = 0 then some (failCmd s c 0x02 3)
  else if copyHeld s src n || copyHeld s dst n then none
  else some (match copyPieces (n / copyPiece + 2) (wakePart s p) c.port.val p src dst n failed with
    | .ok s1 _ => complete s1 c 0 0 0
    | .bad s1 r => failCmd s1 c 0x12 r)

/-! ### Meanings -/

/-- NOP_CMD (R241). -/
def execNopCmd (c : HostCmd) (s : State) : Host.Outcome State Fault Refusal :=
  .next (command s c 0x00 (0, 0, 0) true (fun s => complete s c 0 0 0))

/-- IDENTIFY (R317). -/
def execIdentify (c : HostCmd) (s : State) : Host.Outcome State Fault Refusal :=
  .next (command s c 0x01 (2 ^ 64 - 1, 0, 0) true (fun s => identify s c))

/-- PART_CREATE (R246). -/
def execPartCreate (c : HostCmd) (s : State) : Host.Outcome State Fault Refusal :=
  .next (adminCommand s c 0x02 (0xFFFFFFFF, 0xFFFFFFFFFF, 0x3FFFF) (fun s => createPart s c))

/-- PART_DESTROY (R246). -/
def execPartDestroy (c : HostCmd) (s : State) : Host.Outcome State Fault Refusal :=
  .next (adminCommand s c 0x03 (7, 0, 0) (fun s => destroyPart s c))

/-- PART_SET (R246). -/
def execPartSet (c : HostCmd) (s : State) : Host.Outcome State Fault Refusal :=
  .next (adminCommand s c 0x04 (0xFFFFFFFF, 0xFFFFFFFFFF, 0x3FFFF) (fun s => changePart s c))

/-- NS_CREATE (R247). -/
def execNsCreate (c : HostCmd) (s : State) : Host.Outcome State Fault Refusal :=
  .next (partCommand s c 0x05 (0xF, 0x3FFFF, 0) (fun s p => createNs s c p))

/-- NS_DELETE (R243). -/
def execNsDelete (c : HostCmd) (s : State) : Host.Outcome State Fault Refusal :=
  .next (partCommand s c 0x06 (0xF, 0, 0) (fun s p => deleteNs s c p))

/-- INVOKE (R241, R243). -/
def execInvoke (c : HostCmd) (s : State) : Host.Outcome State Fault Refusal :=
  .next (partCommandOr s c 0x08 (1, 0, 0) (fun s p => if draining s p then none else some (invokePart s c p)))

/-- ABORT (R243). -/
def execAbort (c : HostCmd) (s : State) : Host.Outcome State Fault Refusal :=
  .next (partCommand s c 0x09 (0, 0, 0) (fun s p => abortPart s c p))

/-- COPY (R233, R241). -/
def execCopy (k : CopyCmd) (s : State) : Host.Outcome State Fault Refusal :=
  .next (partCommandOr s k.c 0x0A (2 ^ 56 - 1, 2 ^ 56 - 1, 0xFFFFFFFF) (fun s p => copyCmd s k.c p k.failedRead))

/-- ROUTE_COMMIT (R241). -/
def execRouteCommit (c : HostCmd) (s : State) : Host.Outcome State Fault Refusal :=
  .next (adminCommand s c 0x0B (0, 0, 0) (fun s => commitRoutes s c))

/-- EVENT_WAIT (R244). -/
def execEventWait (c : HostCmd) (s : State) : Host.Outcome State Fault Refusal :=
  .next (command s c 0x0C (0, 0, 0) false (fun s => waitEvent s c))

/-- FENCE_DIE (R307). -/
def execFenceDie (c : HostCmd) (s : State) : Host.Outcome State Fault Refusal :=
  .next (adminCommand s c 0x0D (0x3F, 0, 0) (fun s => hostFence s c))

end Sys2Proof.Machine
end

