-- ==== Sys2Proof/Machine/Consist.lean ====
section
/-!
DEFINITION. CONSIST_LOAD: the consist image, its checks and how it is applied (R6, R20, R24, R30, R55, R58, R160, R161, R253 to R259, R279,
R280, R290, Tables 9.14 and 9.15).

What the spec leaves open here: log entry 74.
-/

namespace Sys2Proof.Machine

/-! ### The image (R254) -/

/-- The little-endian number of `n` bytes at an offset. -/
def field (bs : List Byte) (off n : Nat) : Nat := leNat ((bs.drop off).take n)

/-- An entry of the section directory. -/
structure Section where
  type : Nat
  crc  : Nat
  off  : Nat
  len  : Nat
deriving DecidableEq, Repr

/-- The section directory. -/
def directory (bs : List Byte) : List Section :=
  (List.range (field bs 28 2)).map (fun k =>
    let o := 128 + 24 * k
    ⟨field bs o 2, field bs (o + 4) 4, field bs (o + 8) 8, field bs (o + 16) 8⟩)

/-- The end of the directory. -/
def dirEnd (bs : List Byte) : Nat := 128 + 24 * field bs 28 2

/-- The bytes of a section. -/
def Section.bytes (x : Section) (bs : List Byte) : List Byte := (bs.drop x.off).take x.len

/-- Check 2: MAGIC, VMAJ, a nonzero CONSIST_ID, and every CRC. -/
def headerOk (bs : List Byte) : Bool :=
  decide (field bs 0 4 = 0x4C4A5743 ∧ field bs 4 2 = 1 ∧ field bs 16 8 ≠ 0 ∧ dirEnd bs ≤ bs.length)
    && decide ((crc32 (bs.take 72 ++ (bs.drop 128).take (24 * field bs 28 2))).toNat = field bs 72 4)
    && (directory bs).all (fun x => decide (x.off + x.len ≤ bs.length) && decide ((crc32 (x.bytes bs)).toNat = x.crc))

/-! ### Sections (R255, R256) -/

/-- A TILEMAP record. -/
structure TileRec where
  gtid  : Nat
  en    : Nat
  mode  : Nat
  img   : List Nat
  entry : List Nat
  trig  : Nat
  flips : Nat
  keep  : List Word
deriving DecidableEq, Repr

/-- The context images: words of each; `none` where the section does not hold them. -/
def parseImages : Nat → List Byte → Option (List (List Byte))
  | 0, _ => some []
  | n + 1, bs =>
    let words := field bs 0 8 % 8192 + 1
    if bs.length < 8 + 8 * words then none
    else match parseImages n (bs.drop (8 + 8 * words)) with
      | some l => some ((bs.drop 8).take (8 * words) :: l)
      | none => none

/-- The IMAGES section. -/
def imagesOf (bs : List Byte) : Option (List (List Byte)) := if bs.length < 4 then none else parseImages (field bs 0 4) (bs.drop 4)

/-- Bytes of a trigger-table image. -/
def trigBytes : Nat := 8192

/-- The TRIGGERS section; an absent one holds none. -/
def triggersOf (sec : Option (List Byte)) : Option (List (List Byte)) :=
  match sec with
  | none => some []
  | some bs =>
    let n := field bs 0 4
    if bs.length < 4 ∨ bs.length ≠ 4 + n * trigBytes then none
    else some ((List.range n).map (fun k => (bs.drop (4 + k * trigBytes)).take trigBytes))

/-- A TILEMAP record at an offset. -/
def tileRec (bs : List Byte) (o : Nat) : TileRec where
  gtid := field bs o 2
  en := field bs (o + 2) 1 % 16
  mode := field bs (o + 3) 1 % 32
  img := (List.range 4).map (fun n => field bs (o + 4 + 2 * n) 2)
  entry := (List.range 4).map (fun n => field bs (o + 12 + 2 * n) 2)
  trig := field bs (o + 20) 2
  flips := field bs (o + 22) 1 % 4
  keep := (List.range 4).map (fun n => BitVec.ofNat 64 (field bs (o + 24 + 8 * n) 8))

/-- The four KEEP values of a record meet R55, with TORN and INVALID 0. -/
def keepsOk (ks : List Word) : Bool :=
  ks.all (fun w => keepLegal w && decide (bits w 44 43 = 0))
    && (List.range 4).all (fun i => (List.range i).all (fun j => !(keepClash (ks.getD i 0) (ks.getD j 0))))

/-- A record names a tile, existing images and triggers, entries inside an image, and legal ranges. -/
def recOk (images triggers : Nat) (t : Nat) (r : TileRec) : Bool :=
  decide (r.gtid = t) && r.img.all (fun i => decide (i = 0xFFFF ∨ i < images)) && r.entry.all (fun e => decide (e < 8192))
    && decide (r.trig = 0xFFFF ∨ r.trig < triggers) && keepsOk r.keep

/-- The PEATMAP entries and the outlet table after them. -/
def peatEntries (bs : List Byte) : List PeatMapEntry :=
  (List.range ((bs.length - 1024) / 16)).map (fun k =>
    let a := field bs (16 * k) 8
    ⟨BitVec.ofNat 4 a, BitVec.ofNat 19 (a / 2 ^ 4), BitVec.ofNat 3 (a / 2 ^ 23), BitVec.ofNat 3 (a / 2 ^ 26), BitVec.ofNat 32 (field bs (16 * k + 8) 4)⟩)

/-- The outlet table. -/
def outletTable (bs : List Byte) : List OutletEntry :=
  (List.range 64).map (fun e =>
    let o := bs.length - 1024 + 16 * e
    let b := field bs (o + 8) 8
    ⟨BitVec.ofNat 64 (field bs o 8), BitVec.ofNat 19 b, BitVec.ofNat 3 (b / 2 ^ 19)⟩)

/-- The reserve entries. -/
def reserves (bs : List Byte) : List ReserveEntry :=
  (List.range (bs.length / 32)).map (fun k =>
    let o := 32 * k
    ⟨BitVec.ofNat 6 (field bs o 1), BitVec.ofNat 64 (field bs (o + 8) 8), BitVec.ofNat 64 (field bs (o + 16) 8), BitVec.ofNat 64 (field bs (o + 24) 8)⟩)

/-- A parsed image. -/
structure Image where
  consist  : Consist
  images   : List (List Byte)
  tilemap  : List TileRec
  routes   : List Byte
  triggers : List (List Byte)
  update   : Option (BitVec 4 × BitVec 2)
  resident : Bool
  settings : List (Nat × Word)
deriving DecidableEq, Repr

/-- The good tiles of a partition's unfenced dies, which TILEMAP covers. -/
def loadTiles (s : State) (p : Nat) : List Nat := (liveDies s p).flatMap (tilesOfDie s)

/-- Parse the sections of an image; `none` where check 6 fails. -/
def parseImage (s : State) (p : Nat) (bs : List Byte) : Option Image :=
  let dir := directory bs
  let types := dir.map (fun x => x.type)
  let sec (t : Nat) : Option (List Byte) := (dir.find? (fun x => decide (x.type = t))).map (fun x => x.bytes bs)
  let apart := (List.range dir.length).all (fun i => match dir[i]? with
    | some x => decide (x.off % 64 = 0 ∧ dirEnd bs ≤ x.off) && (List.range i).all (fun j => match dir[j]? with
      | some y => decide (x.off + x.len ≤ y.off ∨ y.off + y.len ≤ x.off)
      | none => true)
    | none => true)
  if !apart || decide (64 < dir.length) || !(types.all (fun t => decide (1 ≤ t ∧ t ≤ 9))) || types.eraseDups.length ≠ types.length then none
  else match sec 1, sec 2, sec 3, (sec 1).bind imagesOf, triggersOf (sec 4) with
    | some _, some tm, some ro, some imgs, some trs =>
      let want := loadTiles s p
      let recs := (List.range (tm.length / 64)).map (fun k => tileRec tm (64 * k))
      let pm := ((sec 5).map peatEntries).getD []
      let tabOk := decide (tm.length = 64 * want.length) && (List.zip want recs).all (fun x => recOk imgs.length trs.length x.1 x.2)
      let lens := decide (ro.length = 112 * (diesOfPart s p).length)
        && (match sec 5 with | some b => decide (1024 ≤ b.length ∧ b.length % 16 = 0) | none => true)
        && (match sec 6 with | some b => decide (1 ≤ b.length) | none => !(pm.any (fun e => decide (e.cls.toNat = 1))))
        && (match sec 7 with | some b => decide (13 ≤ b.length) | none => true)
        && (match sec 8 with | some b => decide (b.length % 32 = 0 ∧ b.length ≤ 1280) | none => true)
        && (match sec 9 with | some b => decide (b.length % 16 = 0) | none => true)
      if tabOk && lens && pm.all (fun e => decide (e.cls.toNat < 6)) then
        let up := field ((sec 6).getD []) 0 1
        let re := (sec 7).getD []
        let st := (sec 9).getD []
        some {
          consist := {
            id := BitVec.ofNat 64 (field bs 16 8)
            fenced := BitVec.ofNat 64 (field bs 32 8)
            peatmap := pm
            outlets := ((sec 5).map outletTable).getD []
            lag := BitVec.ofNat 4 up
            kernel := BitVec.ofNat 2 (up / 16)
            resident := BitVec.ofNat 64 (field re 0 8)
            mereReq := BitVec.ofNat 32 (field re 8 4)
            kns := BitVec.ofNat 4 (field re 12 1)
            reserve := ((sec 8).map reserves).getD [] }
          images := imgs
          tilemap := recs
          routes := ro
          triggers := trs
          update := (sec 6).map (fun _ => (BitVec.ofNat 4 up, BitVec.ofNat 2 (up / 16)))
          resident := (sec 7).isSome
          settings := (List.range (st.length / 16)).map (fun k => (field st (16 * k) 8, BitVec.ofNat 64 (field st (16 * k + 8) 8))) }
      else none
    | _, _, _, _, _ => none

/-! ### Checks 7 to 9 (R257) -/

/-- The logical extents of a PEATMAP entry. -/
def peatExtents (e : PeatMapEntry) : List Nat := (List.range e.count.toNat).map (fun i => e.ext.toNat + i)

/-- Physical extents that a consist's map adds on a station die under its lag. -/
def addedExtents (s : State) (n p : Nat) (c : Consist) : Nat :=
  let ext := (c.peatmap.filter (fun e => decide (e.stn.toNat = n))).flatMap (fun e => (peatExtents e).map (fun x => (e.nsid, x, e.cls)))
  let held := (ext.map (fun x => match ExtClass.ofCode x.2.2.toNat with
    | some cl => classHolds c.lag.toNat cl - 1
    | none => 0)).foldl (fun a b => a + b) 0
  let named (e : ExtEntry) : Bool := ext.any (fun x => decide (x.1 = e.nsid ∧ x.2.1 = e.ext.toNat))
  let mine := s.m.nss.filter (fun x => decide (x.part.val = p))
  let before := ((stationOf s n).map.filter (fun e => mine.any (fun x => decide (x.nsid = e.nsid)) && named e)).foldl
    (fun a e => a + (classHolds (lagOf s n p) e.cls - 1)) 0
  held - before

/-- Check 7: 0 passed, 1 CONSIST_INVALID, 2 QUOTA. -/
def peatCheck (s : State) (p : Nat) (c : Consist) : Nat :=
  let own (e : PeatMapEntry) : Option Namespace := (nsOf s e.nsid.toNat).filter (fun x => decide (x.part.val = p))
  let gHeld (o : OutletEntry) : Bool := decide (o = ⟨0, 0, 0⟩) || c.peatmap.any (fun e =>
    decide (e.cls.toNat = 4 ∧ e.stn = o.stn ∧ e.ext.toNat ≤ o.ext.toNat ∧ o.ext.toNat < e.ext.toNat + e.count.toNat))
  if !(c.peatmap.all (fun e => (own e).isSome)) || !(c.outlets.all gHeld) || decide (8 < c.lag.toNat ∨ c.kernel = 3) then 1
  else if c.peatmap.any (fun e => match own e with
      | some x => decide (x.extents < e.ext.toNat + e.count.toNat)
      | none => true) then 2
  else if (List.range 8).any (fun n => !(mayAllocate s n p (addedExtents s n p c))) then 2
  else 0

/-- A byte of a route table of a die, as its registers hold it. -/
def putRoute (s : State) (d g : Nat) (pl : Plane) (dst v : Nat) : State :=
  setFld s (routeKey d g pl (dst / 8)) (8 * (dst % 8) + 7) (8 * (dst % 8)) v

/-- The inactive generation filled with the current tables of every die and the partition's own (check 9). ROUTES holds each die's Up and Down
tables, then each station die's Up and Down entries for the partition's dies. The engine gives a station die the entries that no section writes:
LOCAL for itself and NOROUTE for other station dies (R159) and for dies that are fenced or in D3 (R161). -/
def mergeRoutes (s : State) (p g : Nat) (ro : List Byte) : State :=
  let planes := [Plane.up, Plane.down]
  let dies := diesOfPart s p
  let n := dies.length
  let byte (i : Nat) : Nat := (ro.getD i 0).toNat
  let s1 := forEach (List.range 48) s (fun s d => forEach planes s (fun s pl => forEach (List.range 6) s (fun s w =>
    wr s (routeKey d g pl w) (rd s (routeKey d (1 - g) pl w)))))
  let s2 := forEach (List.zip (List.range n) dies) s1 (fun s x => if dieClosed s x.2 then s else
    forEach planes s (fun s pl => forEach (List.range 48) s (fun s dst => putRoute s x.2 g pl dst (byte (96 * x.1 + 48 * planeNum pl + dst)))))
  forEach (List.range 8) s2 (fun s k => forEach planes s (fun s pl =>
    let s3 := forEach (List.range 8) s (fun s j => putRoute s (40 + k) g pl (40 + j) (if j = k then 0 else 7))
    let s4 := forEach ((List.range 40).filter (dieClosed s)) s3 (fun s d => putRoute s (40 + k) g pl d 7)
    forEach (List.zip (List.range n) dies) s4 (fun s x => if dieClosed s x.2 then s else
      putRoute s (40 + k) g pl x.2 (byte (96 * n + 2 * n * k + n * planeNum pl + x.1)))))

/-- The differing section of a reserve consist (R259), if any. -/
def reserveDiffers (old : Option Consist) (new : Image) : Option Nat :=
  match old with
  | none => some 5
  | some o =>
    let c := new.consist
    if o.peatmap ≠ c.peatmap ∨ o.outlets ≠ c.outlets then some 5
    else if o.lag ≠ c.lag ∨ o.kernel ≠ c.kernel then some 6
    else if o.kns ≠ c.kns then some 7
    else if o.reserve.any (fun r => decide (r.id = c.id) && c.fenced.getLsbD r.die.toNat) then none
    else some 8

/-! ### Applying (R257, R258) -/

/-- TILE_KEEPn from a record (R258): where the four registers are equal but for TORN and INVALID, content and marks stay; else each changed range
is written, its marks cleared and its content undefined. -/
def loadKeeps (s : State) (t : Nat) (ks : List Word) : State :=
  let mask : Word := 0x707FF7FF000
  let core (w : Word) : Word := w &&& mask
  let changed := (List.range 4).filter (fun n => core (rd s (keepReg t n)) != core (ks.getD n 0))
  forEach changed s (fun s n =>
    let w := core (ks.getD n 0)
    let s1 := wr s (keepReg t n) w
    if bit w 40 then undefine s1 (tileAddr t (keepBase w)) (tileAddr t (keepEnd w)) else s1)

/-- The trigger table of a tile from an image, or all zero. -/
def loadTriggers (s : State) (t : Nat) (img : Option (List Byte)) : State :=
  forEach (List.range 256) s (fun s e => forEach (List.range 4) s (fun s w =>
    storeReg s (trigReg t e w) (match img with
      | some bs => BitVec.ofNat 64 (field bs (32 * e + 8 * w) 8)
      | none => 0)))

/-- Steps 10 and 11 on one tile: it is reset, then its images, registers and trigger table are written. -/
def loadTile (s : State) (img : Image) (r : TileRec) : State :=
  let t := r.gtid
  let s1 := logReset (resyncTile (resetTile s t keptByTile) t) (t / 144) 1 (t % 144)
  let s2 := forEach ([0, 1, 2, 3] : List CtxId) s1 (fun s c => match img.images[r.img.getD c.val 0xFFFF]? with
    | some bs => tileWrite s t none .ist (istoreOff c 0) bs
    | none => s)
  let s3 := forEach (List.range 4) s2 (fun s c => storeReg s (tileReg t (0x100 + 8 * c))
    (BitVec.ofNat 64 (r.entry.getD c 0 + b2n (r.en.testBit c) * 2 ^ 32)))
  let s4 := loadKeeps (storeReg s3 (tileReg t 0x40) (BitVec.ofNat 64 r.mode)) t r.keep
  loadTriggers (setFld s4 (tileReg t 0xA0) 3 2 r.flips) t (if r.trig = 0xFFFF then none else img.triggers[r.trig]?)

/-- Record the classes of a Peat layout map on the station dies. -/
def loadPeatmap (s : State) (c : Consist) : State :=
  forEach c.peatmap s (fun s e => match ExtClass.ofCode e.cls.toNat with
    | some cl => forEach (peatExtents e) s (fun s x => setEntry s e.stn.toNat { entryOf s e.stn.toNat e.nsid.toNat x with cls := cl })
    | none => s)

/-- Step 12: UPDATE into UE_PCTL of every station die, and SETTINGS in order as host writes through BAR2. -/
def loadSettings (s : State) (port p : Nat) (img : Image) : State :=
  let s1 := match img.update with
    | some u => forEach (List.range 8) s (fun s n => setFld (setFld s (psbPart n p 0) 3 0 u.1.toNat) (psbPart n p 0) 5 4 u.2.toNat)
    | none => s
  forEach img.settings s1 (fun s x =>
    if x.1 / 2 ^ 52 ≤ 1 then barWrite s port x.1 (leBytes 8 x.2.toNat) else addFld s (portErr port) 47 32 1)

/-- The consist's Mere request is admitted, or none is asked for; a withdrawn Mere guarantee is over (R253). -/
def admitConsist (s : State) (p : Nat) (img : Image) : State :=
  let req := if img.resident then img.consist.mereReq.toNat else 0
  let s1 := wr s (partReg p 0x18) (BitVec.ofNat 64 (req + req * 2 ^ 32))
  let k := partReg p 0x10
  setBudget (setFld (updPart s1 p (fun x => { x with stopAt := none })) k 7 3 (fld s1 k 7 3 &&& 29))

/-- Steps 10 to 13. -/
def applyConsist (s : State) (c : HostCmd) (p g : Nat) (img : Image) : State :=
  let s1 := updPart (setPartState s p 2) p (fun x => { x with consist := some img.consist, resSaved := true })
  let s2 := loadPeatmap (forEach img.tilemap s1 (fun s r => loadTile s img r)) img.consist
  let s3 := admitConsist (loadSettings s2 c.port.val p img) p img
  armEpoch s3 0 6 g 0 (.load (Fin.ofNat 8 p) (some c))

/-! ### The command -/

/-- The fenced dies of a partition, as a mask. -/
def partFenced (s : State) (p : Nat) : Nat :=
  bitsOf ((List.range 40).map (fun d => partHolds s p d && s.m.fencedDies.contains d))

/-- The rectangle of a header is the partition's. -/
def rectOk (s : State) (p : Nat) (bs : List Byte) : Bool :=
  let k := partReg p 0
  decide (field bs 24 1 = fld s k 4 2 ∧ field bs 25 1 = fld s k 7 5 ∧ field bs 26 1 = fld s k 10 8 ∧ field bs 27 1 = fld s k 13 11)

/-- The inactive generation is writable: 1 ms after it stopped being current (R160). -/
def untilUnlocked (s : State) (g : Nat) : State :=
  waitUntil s (s.dies.foldl (fun a x => match x.2.stopped.find? (fun q => decide (q.1 = g)) with
    | some q => max a (q.2 + 1000000)
    | none => a) 0)

/-- Checks 2 to 9 in order, and the load where all pass. -/
def checkConsist (s : State) (c : HostCmd) (p : Nat) (bs : List Byte) : State :=
  let g := 1 - boxGen s
  if bs.length < 128 ∨ field bs 8 8 ≠ bs.length then failCmd s c 0x0B 1
  else if !(headerOk bs) then failCmd s c 0x0B 2
  else if !(rectOk s p bs) then failCmd s c 0x0B 3
  else if field bs 32 8 ≠ partFenced s p then failCmd s c 0x0B 4
  else if (bs.drop 40).take 32 ≠ mapHash s (maskDies (field bs 32 8)) then failCmd s c 0x0C 0
  else match parseImage s p bs with
    | none => failCmd s c 0x0B 6
    | some img =>
      let pc := peatCheck s p img.consist
      if pc = 1 then failCmd s c 0x0B 7
      else if pc = 2 then failCmd (reportShort s p) c 0x0A 0
      else if img.resident && !(mereAdmits s p (img.consist.resident.toNat, liveDies s p) img.consist.mereReq.toNat) then failCmd s c 0x0E 0
      else
        let s0 := untilUnlocked s g
        let s1 := mergeRoutes s0 p g img.routes
        let v := validate s1 g
        if !(v.ok) then failCmd (recordCheck s0 v) c 0x0D v.reason
        else match (if bit c.w3 0 then reserveDiffers (partOf s p).consist img else none) with
          | some k => failCmd s c 0x10 k
          | none => applyConsist (recordCheck s1 v) c p g img

/-- CONSIST_LOAD: the source is host memory through this port or Peat logical space; a read that fails ends it with DMA_ERROR. -/
def loadConsist (s : State) (c : HostCmd) (p : Nat) (readOk : Bool) : State :=
  let src := c.w1.toNat
  let n := bits c.w2 39 0
  let st := partState s p
  if st = 2 ∨ st = 4 then busy s c p
  else if src / 2 ^ 52 ≠ 8 + c.port.val ∧ src / 2 ^ 52 ≠ 2 then failCmd s c 0x02 1
  else match copyRead (wakePart s p) c.port.val p src n readOk with
    | .bad s1 r => failCmd s1 c 0x12 r
    | .ok s1 bs => checkConsist s1 c p bs

/-- CONSIST_LOAD (R243, R257). -/
def execConsistLoad (l : LoadCmd) (s : State) : Host.Outcome State Fault Refusal :=
  .next (partCommandOr s l.c 0x07 (2 ^ 56 - 1, 2 ^ 40 - 1, 1) (fun s p => if draining s p then none else some (loadConsist s l.c p l.readOk)))

end Sys2Proof.Machine
end

