-- ==== Sys2Proof/Machine/Reedline.lean ====
section
/-!
DEFINITION. Reedline: what arrives on the segment, its messages and commands, M1 and the PLCA modes (R302, R304, R318 to R327, Tables 12.9a to
12.11).

What the spec leaves open here: log entries 14, 35, 41, 60, 65, 77, 78, 79, 80 and 104.
-/

namespace Sys2Proof.Machine

/-! ### Frames (R318, R320, R321) -/

/-- Whether the PHY that drives has power: S0's, or after a takeover S4's. -/
def phyAlive (s : State) : Bool := (dieOf s (if s.m.reedline.phyS4 then 44 else 40)).region

/-- The RL_PEERn. -/
def peers (s : State) : List Word := (List.range 4).map (fun n => rd s (s0Health (0xF230 + 8 * n)))

/-- Whether a source is known, by its interface identifier (R321). -/
def knownSource (s : State) (src : Word) : Bool := (peers s).all (fun w => decide (w = 0)) || (decide (src ≠ 0) && (peers s).contains src)

/-- A frame of an unknown source is dropped and counted; the alarm goes out at most once per 10 s. -/
def dropStranger (s : State) : State :=
  let s1 := addFld s (s0Health 0xF208) 63 48 1
  let due := match s.m.reedline.strangerAt with
    | some a => decide (a + 10000000000 ≤ s.now)
    | none => true
  if due then
    alarm (updM s1 (fun m => { m with reedline := { m.reedline with strangerAt := some s.now } })) 0x10 none (fld s1 (s0Health 0xF208) 63 48)
  else s1

/-- A frame arrives: dropped where the PHY has no power or the source is unknown, else handled. -/
def onFrame (s : State) (src : Word) (act : State → State) : State :=
  if !(phyAlive s) then s else if knownSource s src then act s else dropStranger s

/-- The module's interface identifier: its MAC address by modified EUI-64. -/
def ownIid (s : State) : List Byte :=
  match s.m.fuses.mac with
  | a :: b :: c :: rest => [a ^^^ 2, b, c, 0xFF, 0xFE] ++ rest
  | l => l

/-- A link-local address with an interface identifier (bytes in network order). -/
def linkLocal (iid : List Byte) : List Byte := [0xFE, 0x80, 0, 0, 0, 0, 0, 0] ++ iid

/-- The sum of 16-bit words in network order. -/
def wordSum : List Byte → Nat
  | a :: b :: l => a.toNat * 256 + b.toNat + wordSum l
  | [a] => a.toNat * 256
  | [] => 0

/-- A sum folded to 16 bits in ones' complement. -/
def foldSum (n : Nat) : Nat :=
  let a := n % 65536 + n / 65536
  a % 65536 + a / 65536

/-- An ICMPv6 message of the module to a source: type, code 0, checksum and body (RFC 4443). -/
def icmp (s : State) (src : Word) (type : Nat) (body : List Byte) : List Byte :=
  let dst := linkLocal (leBytes 8 src.toNat).reverse
  let len := 4 + body.length
  let pseudo := linkLocal (ownIid s) ++ dst ++ (leBytes 4 len).reverse ++ [0, 0, 0, 58]
  let sum := foldSum (wordSum (pseudo ++ [BitVec.ofNat 8 type, 0, 0, 0] ++ body))
  [BitVec.ofNat 8 type, 0] ++ (leBytes 2 (65535 - sum % 65536)).reverse ++ body

/-- A neighbour advertisement: solicited, override, the module's address and its MAC (RFC 4861). -/
def advertise (s : State) (src : Word) : State :=
  reedSend s (icmp s src 136 ([0x60, 0, 0, 0] ++ linkLocal (ownIid s) ++ [2, 1] ++ s.m.fuses.mac))

/-- A neighbour solicitation: at most 10 per second of unknown sources are answered. -/
def onSolicitation (s : State) (src : Word) : State :=
  if !(phyAlive s) then s
  else if knownSource s src then advertise s src
  else
    let recent := s.m.reedline.nsAt.filter (fun a => decide (s.now < a + 1000000000))
    if recent.length < 10 then
      advertise (updM s (fun m => { m with reedline := { m.reedline with nsAt := recent ++ [s.now] } })) src
    else dropStranger s

/-! ### PLCA (R319, R320) -/

/-- Set RL_STAT.MODE. -/
def setMode (s : State) (n : Nat) : State := setFld s (s0Health 0xF208) 1 0 n

/-- Another coordinator's beacon: the module does not beacon, and says so (R319). -/
def coordConflict (s : State) : State := alarm (setBit (setMode s 0) (s0Health 0xF208) 2) 0x0F none 0

/-- A beacon arrives. -/
def onBeacon (s : State) (own : Bool) : State :=
  if !(phyAlive s) || own then s
  else
    let mode := fld s (s0Health 0xF208) 1 0
    if mode = 2 ∨ mode = 3 then coordConflict s
    else if mode = 1 ∨ s.m.reedline.fallback = true then
      setMode (updM s (fun m => { m with reedline := { m.reedline with lastBeacon := s.now, fallback := false } })) 1
    else s

/-- A follower without a beacon for 4 ms. -/
def missBeacon (s0 : State) : State :=
  if phyAlive s0 && decide (fld s0 (s0Health 0xF208) 1 0 = 1) then
    let s := waitUntil s0 (s0.m.reedline.lastBeacon + 4000000)
    updM (setMode (addFld s (s0Health 0xF208) 47 32 1) 0) (fun m => { m with reedline := { m.reedline with fallback := true } })
  else s0

/-- A candidate that has heard no beacon becomes coordinator. -/
def endListening (s0 : State) : State :=
  if phyAlive s0 && decide (fld s0 (s0Health 0xF208) 1 0 = 3) then setMode (waitUntil s0 s0.m.reedline.listenEnd) 2 else s0

/-! ### Reading a message (R323) -/

/-- The little-endian number in bytes `n` from `off` of a message. -/
def msgNat (msg : List Byte) (off n : Nat) : Nat := leNat ((msg.drop off).take n)

/-- TYPE of a message. -/
def msgType (msg : List Byte) : Nat := msgNat msg 1 1

/-- Whether a message carries a tag. -/
def msgAuth (msg : List Byte) : Bool := (msgNat msg 4 1).testBit 0

/-- Whether it is a repeat. -/
def msgRepeat (msg : List Byte) : Bool := (msgNat msg 4 1).testBit 1

/-- CTR. -/
def msgCtr (msg : List Byte) : Nat := msgNat msg 8 8

/-- The tag, if any. -/
def msgTag (msg : List Byte) : List Byte := if msgAuth msg then msg.drop (msg.length - 16) else []

/-- The message without its tag. -/
def msgPlain (msg : List Byte) : List Byte := if msgAuth msg then msg.take (msg.length - 16) else msg

/-- A field of the first word of the body. -/
def msgFld (msg : List Byte) (hi lo : Nat) : Nat := bits (BitVec.ofNat 64 (msgNat msg 16 8)) hi lo

/-- The bits of ARG that Table 12.11 names for a command, or none where the OP is not one. -/
def argBits (op : Nat) : Option Nat := ([none, some 0, some 0, some 0, some 0x7, some 0x3FFF, some 0xFFFF] : List (Option Nat)).getD op none

/-- Whether the body of a message to the module is of its type's length with its must-be-zero bits clear (Tables 12.10 and 12.11). -/
def bodyOk (msg : List Byte) : Bool :=
  let len := (msgPlain msg).length - 16
  match msgType msg with
  | 0x01 => decide (len = 0)
  | 0x90 => decide (len = 0)
  | 0x02 => decide (len = 8 ∧ msgFld msg 63 17 = 0)
  | 0x03 => decide (len = 8 ∧ msgFld msg 7 6 = 0 ∧ msgFld msg 63 48 = 0)
  | 0x20 => decide (len = 8 ∧ msgFld msg 15 8 = 0) && (match argBits (msgFld msg 7 0) with
    | some m => let a := msgFld msg 63 16; decide (a &&& m = a) && !(decide (msgFld msg 7 0 = 5) && a.testBit 13 && decide (a % 0x2000 / 64 ≠ 0))
    | none => false)
  | 0x21 => decide (len = 64 ∧ msgNat msg 33 7 = 0)
  | _ => false

/-- Whether a message is well formed. -/
def msgOk (msg : List Byte) : Bool :=
  decide (16 ≤ msg.length ∧ msg.length ≤ 1024 ∧ msgNat msg 0 1 = 1 ∧ msgNat msg 2 2 = msg.length ∧ msgNat msg 4 1 < 4 ∧ msgNat msg 5 3 = 0)
    && (!(msgAuth msg) || decide (32 ≤ msg.length)) && bodyOk msg

/-- Answer a message with a status and a body. -/
def reply (s : State) (msg : List Byte) (status : Nat) (body : List Byte) : State :=
  reedSend s (message s ((msgType msg + 0x80) % 256) false status (msgCtr msg) body)

/-- Whether a message's tag is right. -/
def tagRight (s : State) (msg : List Byte) : Bool := msgAuth msg && decide (msgTag msg = tagOf s (msgPlain msg))

/-- A message of a type arrives. One of another type is not this event's; a malformed one is answered with STATUS 1. -/
def onMessage (s : State) (src : Word) (msg : List Byte) (type : Nat) (act : State → State) : State :=
  onFrame s src (fun s => if msgType msg ≠ type then s else if msgOk msg then act s else reply s msg 1 [])

/-- A request that needs a tag always (`must`) or once a key is set; refused with NOKEY or AUTH (R323, R327). -/
def tagged (s : State) (msg : List Byte) (must : Bool) (act : State → State) : State :=
  if keySet s then (if tagRight s msg then act s else reply s msg 2 [])
  else if must then reply s msg 4 [] else act s

/-! ### Requests (R323 to R325) -/

/-- The words of the latest snapshot: header and 48 records; 0 before the first sweep. -/
def latestSnapshot (s : State) : List Word :=
  let c := s.m.census
  if c.header.isEmpty then List.replicate 1544 0 else c.header ++ (List.range 48).flatMap (spGet c.records (List.replicate 32 0))

/-- Answer a CENSUS_GET; a repeat within 20 ms of the first gets the first's snapshot. -/
def answerCensus (s : State) (src : Word) (msg : List Byte) : State :=
  let first := msgFld msg 7 0
  let count := msgFld msg 15 8
  let full := decide (msgFld msg 16 16 = 1)
  if count = 0 ∨ (if full then 3 else 16) < count ∨ 48 < first + count then reply s msg 6 []
  else
    let ctr := BitVec.ofNat 64 (msgCtr msg)
    let asks := s.m.reedline.asks.filter (fun a => decide (s.now ≤ a.2.2.1 + 20000000))
    let old := if msgRepeat msg then asks.find? (fun a => decide (a.1 = src ∧ a.2.1 = ctr)) else none
    let snap := match old with
      | some a => a.2.2.2
      | none => latestSnapshot s
    let asks1 := if old.isSome then asks else asks.filter (fun a => !(decide (a.1 = src ∧ a.2.1 = ctr))) ++ [(src, ctr, s.now, snap)]
    let recs := (List.range count).flatMap (fun i => ((snap.drop (8 + 32 * (first + i))).take (if full then 32 else 7)))
    let s1 := updM s (fun m => { m with reedline := { m.reedline with asks := asks1 } })
    reply s1 msg 0 ((snap.take 8 ++ recs).flatMap (fun w => leBytes 8 w.toNat))

/-- Answer a LEDGER_GET with the records the home station die can read. -/
def answerLedger (s : State) (msg : List Byte) : State :=
  let d := msgFld msg 5 0
  let count := msgFld msg 15 8
  if 48 ≤ d ∨ count = 0 ∨ 12 < count then reply s msg 6 []
  else
    let own := if (stationOf s (homeOf d)).ready then ledgerOf s d else []
    let got := (own.filter (fun r => decide (msgFld msg 47 16 ≤ r.number))).take count
    reply s msg 0 (leBytes 8 got.length ++ got.flatMap (fun r => r.words.flatMap (fun w => leBytes 8 w.toNat)))

/-- An ALARM_ACK ends the repetition of its alarm. One without the tag that a key asks for has no effect and is not answered. -/
def ackAlarm (s : State) (msg : List Byte) : State :=
  if keySet s && !(tagRight s msg) then s
  else updM s (fun m => { m with reedline := { m.reedline with
    alarms := m.reedline.alarms.map (fun a => if a.ctr.toNat = msgCtr msg then { a with acked := true } else a) } })

/-- The delays of the three repeats of an alarm (R324), by the sends so far. -/
def repeatDelay (sends : Nat) : Option Nat := ([none, some 100000000, some 300000000, some 700000000] : List (Option Nat)).getD sends none

/-- Repeat an alarm that no one has acknowledged. -/
def repeatAlarm (s0 : State) (ctr : Lane) : State :=
  match s0.m.reedline.alarms.find? (fun a => decide (a.ctr = ctr)) with
  | none => s0
  | some a =>
    match repeatDelay a.sends with
    | none => s0
    | some d =>
      if a.acked then s0
      else
        let s := waitUntil s0 (a.sentAt + d)
        let s1 := updM s (fun m => { m with reedline := { m.reedline with
          alarms := m.reedline.alarms.map (fun b => if b.ctr = ctr then { b with sends := b.sends + 1 } else b) } })
        reedSend s1 (alarmMessage s1 a true)

/-- An EXPECT: 3 for another module, else the comparison of R292. The first differing die is named for DIFFERS only. -/
def answerExpect (s : State) (msg : List Byte) : State :=
  let x := (BitVec.ofNat 8 (msgNat msg 32 1), (msg.drop 40).take 32, msgNat msg 72 8)
  let r := if (msg.drop 16).take 16 = s.m.fuses.moduleId then takeExpect s x else (s, 3, 0)
  let f := takeFree r.1
  let die := if r.2.1 = 2 then r.2.2 else f.2.toNat
  reply f.1 msg 0 (leBytes 8 (r.2.1 + die % 64 * 256))

/-! ### Commands (R327, Table 12.11) -/

/-- Send a cached reply again: REPEAT is set and the tag made anew. -/
def resend (s : State) (r : List Byte) : State :=
  let m := (r.take (r.length - 16)).set 4 3
  reedSend s (m ++ tagOf s m)

/-- The body of CMD_RESULT; the result word is a value that the spec does not give. -/
def resultBody (s : State) (op : Nat) : List Byte := leBytes 8 (op + (Config.freeWord s.fresh).toNat % 2 ^ 48 * 2 ^ 16)

/-- Check a CMD in the order of R327 and answer it; tells whether its effect follows. `verdict` is the status that a fresh one gets. -/
def checkCommand (s : State) (msg : List Byte) (op : Nat) (verdict : State → Nat → Nat) : State × Bool :=
  let k := s0Health 0xF258
  let f : State := { s with fresh := s.fresh + 1 }
  if !(keySet s) then (reply f msg 4 (resultBody s op), false)
  else if !(tagRight s msg) then (reply f msg 2 (resultBody s op), false)
  else if (rd s k).toNat < msgCtr msg then
    let v := verdict s (msgFld msg 63 16)
    let out := message s 0xA0 false v (msgCtr msg) (resultBody s op)
    let s1 := updM (wr f k (BitVec.ofNat 64 (msgCtr msg))) (fun m => { m with reedline := { m.reedline with
      cache := some (BitVec.ofNat 64 (msgCtr msg), msgTag msg, out) } })
    (reedSend s1 out, decide (v = 0))
  else match s.m.reedline.cache with
    | some c => if c.1.toNat = msgCtr msg ∧ c.2.1 = msgTag msg then (resend s c.2.2, false) else (reply f msg 3 (resultBody s op), false)
    | none => (reply f msg 3 (resultBody s op), false)

/-- The module with another key, RL_CMDCTR and reply cache. -/
def withKey (s : State) (o : OldKey) : State :=
  updM (wr s (s0Health 0xF258) o.ctr) (fun m => { m with reedline := { m.reedline with key := o.key, cache := o.cache } })

/-- The key, RL_CMDCTR and reply cache that stand. -/
def keyNow (s : State) : OldKey := ⟨s.m.reedline.key, rd s (s0Health 0xF258), s.m.reedline.cache⟩

/-- The key that a CMD was tagged under, where RL_KEY3 has replaced it in this UCLK cycle (R327). -/
def taggedBefore (s : State) (msg : List Byte) : Option OldKey :=
  if keySet s && tagRight s msg then none else s.ticks.oldKey.filter (fun o => tagRight (withKey s o) msg)

/-- A CMD of some OP arrives and is checked; `act` is its effect, which follows the reply. One in the UCLK cycle of a write of RL_KEY3 is checked
against the key it was tagged under; the new key applies from the next message (R327). -/
def onCommand (s0 : State) (src : Word) (msg : List Byte) (op : Nat) (verdict : State → Nat → Nat) (act : State → Nat → State) : State :=
  onMessage s0 src msg 0x20 (fun s =>
    if msgFld msg 7 0 ≠ op then s
    else
      let r := match taggedBefore s msg with
        | some o => (withKey (checkCommand (withKey s o) msg op verdict).1 (keyNow s), (checkCommand (withKey s o) msg op verdict).2)
        | none => checkCommand s msg op verdict
      if r.2 then act r.1 (msgFld msg 63 16) else r.1)

/-- Whether some partition is RUNNING or LOADING. -/
def partsBusy (s : State) : Bool := (allParts s).any (fun p => decide (partState s p = 2 ∨ partState s p = 4))

/-- Whether a register keeps its value on entry to M1: what the health and power blocks of the die that stays on and port 0 hold, and every
die's state and phase log; not the energy count (Table 11.7). `b` is that die. -/
def staysInM1 (b key : Nat) : Bool :=
  let off := if keyDie key < 40 then key % 2 ^ 23 else key % 2 ^ 31
  if key / 2 ^ 52 ≤ 1 then
    decide (0x1F000 ≤ off ∧ off < 0x1F010 ∨ off = 0x20020 ∨ off = 0x20028)
      || (decide (keyDie key = b ∨ keyDie key = 40) && decide (0x10000 ≤ off ∧ off ≠ 0x20010) && (decide (keyDie key = b)
            || decide (0x1F000 ≤ off ∧ off < 0x20000 ∨ 0x20800 ≤ off)))
      && !(decide (key / 2 ^ 52 = 0 ∧ key / 2 ^ 23 % 256 < 144))
  else decide (key / 2 ^ 52 = 3 ∧ key % 2 ^ 52 < 2 ^ 32)

/-- Enter M1 (R304): SHUTDOWN records are written (R316), every partition ends, and every region but the signal box's goes off. -/
def enterM1 (s0 : State) : State :=
  let b := if s0.m.sboxS4 then 44 else 40
  let s1 := forEach (poweredDies s0) s0 (fun s d => ledgerPeriod s d 2)
  let s2 := forEach (allParts s1) s1 endPart
  let s3 := forEach ((poweredDies s2).filter (fun d => decide (d ≠ b))) s2 dieOff
  let w := wipeModule s3
  let box := dieOf s3 b
  let s4 := setDie { w with regs := s3.regs.filter (fun r => staysInM1 b r.1) } b { box with armed := [], epSeq := 0, epLast := 0, epMissed := none }
  let s5 := if b = 40 then updPort s4 0 (fun _ => portOf s3 0) else s4
  let s6 := updM s5 (fun m => { m with
    reedline := s3.m.reedline
    census := s3.m.census
    sboxS4 := s3.m.sboxS4
    power := { s3.m.power with phase := .standby } })
  setFld (setFld (setStage s6 10) modStatus 1 0 0) modState 1 0 1

/-- STANDBY and OFF are refused while a partition runs or loads. -/
def refuseBusy (s : State) (_arg : Nat) : Nat := if partsBusy s then 5 else 0

/-- WAKE is refused outside M1. -/
def refuseAwake (s : State) (_arg : Nat) : Nat := if s.m.power.phase = .standby then 0 else 5

/-- WAKE: bring-up from stage 1, once the coolant inlet is cool enough. -/
def wakeByReedline (s : State) (_arg : Nat) : State :=
  if coolEnough s then wakeStandby s else updM s (fun m => { m with power := { m.power with wakeAsked := true } })

/-- OFF: SHUTDOWN records and M2. A flush that is under way goes on. -/
def turnOff (s : State) (_arg : Nat) : State :=
  if powered s then enterM2 (forEach (poweredDies s) s (fun s d => ledgerPeriod s d 2)) true else s

/-- Administration handed over by Reedline, unless the port that holds it hands it over in the same UCLK cycle (R245). -/
def reedAdmin (s : State) (port : Nat) : State :=
  match s.ticks.handed with
  | some (_, true) => s
  | h => setFld { s with tick := { s.ticks with handed := h.or (some (adminPort s, false)) } } (moduleReg 0) 2 0 port

/-- ADMIN is refused while the port's link is down. -/
def refuseAdmin (s : State) (arg : Nat) : Nat := if (portOf s (arg % 8)).linkUp then 0 else 5

/-- The die of a RELEASE. -/
def releasedDie (arg : Nat) : Nat := if arg.testBit 13 then arg % 64 else arg % 0x2000 / 144

/-- RELEASE of a number that names no die or tile is out of range; of a die in a partition, or a tile of one, refused. -/
def refuseRelease (s : State) (arg : Nat) : Nat :=
  if (if arg.testBit 13 then 48 else 40) ≤ releasedDie arg then 6 else if (partOfDie s (releasedDie arg)).isSome then 5 else 0

/-- RELEASE: the fence is cleared and the ledger records it. -/
def release (s : State) (arg : Nat) : State :=
  if arg.testBit 13 then
    let d := arg % 64
    if s.m.fencedDies.contains d then
      let s1 := updM s (fun m => { m with fencedDies := m.fencedDies.filter (fun x => decide (x ≠ d)) })
      let s2 := setFld (setDie s1 d { dieOf s1 d with missed := 0 }) (dieStateReg d) 6 2 0
      ledger (if fld s2 (dieStateReg d) 10 7 = 6 then setTopo s2 d 0 else s2) d 6 [0x1FFF]
    else s
  else
    let t := arg % 0x2000
    if s.m.fencedTiles.contains t then
      ledger (updM s (fun m => { m with fencedTiles := m.fencedTiles.filter (fun x => decide (x ≠ t)) })) (t / 144) 6 [t]
    else s

/-- SET_PORT takes 1,024 to 65,535. -/
def refusePort (_s : State) (arg : Nat) : Nat := if arg < 1024 then 6 else 0

/-! ### Meanings -/

/-- IDENT_GET (R317, R323). -/
def execIdentGet (src : Word) (msg : List Byte) (s : State) : Host.Outcome State Fault Refusal :=
  .next (onMessage s src msg 0x01 (fun s => reply s msg 0 ((identityPage s).take 80)))

/-- CENSUS_GET (R315, R323, R325). -/
def execCensusGet (src : Word) (msg : List Byte) (s : State) : Host.Outcome State Fault Refusal :=
  .next (onMessage s src msg 0x02 (fun s =>
    if msgFld msg 16 16 = 1 then tagged s msg true (fun s => answerCensus s src msg) else answerCensus s src msg))

/-- LEDGER_GET (R316, R323). -/
def execLedgerGet (src : Word) (msg : List Byte) (s : State) : Host.Outcome State Fault Refusal :=
  .next (onMessage s src msg 0x03 (fun s => tagged s msg true (fun s => answerLedger s msg)))

/-- ALARM_ACK (R324). -/
def execAlarmAck (src : Word) (msg : List Byte) (s : State) : Host.Outcome State Fault Refusal :=
  .next (onMessage s src msg 0x90 (fun s => ackAlarm s msg))

/-- ALARM_REPEAT (R324). -/
def execAlarmRepeat (ctr : Lane) (s : State) : Host.Outcome State Fault Refusal := .next (repeatAlarm s ctr)

/-- EXPECT (R292, R323, R327). -/
def execExpect (src : Word) (msg : List Byte) (s : State) : Host.Outcome State Fault Refusal :=
  .next (onMessage s src msg 0x21 (fun s => tagged s msg false (fun s => answerExpect s msg)))

/-- STANDBY (R302, R304). -/
def execStandby (src : Word) (msg : List Byte) (s : State) : Host.Outcome State Fault Refusal :=
  .next (onCommand s src msg 1 refuseBusy (fun s _ => if s.m.power.phase = .running ∨ s.m.power.phase = .bringup then enterM1 s else s))

/-- WAKE (R302, R304). -/
def execWake (src : Word) (msg : List Byte) (s : State) : Host.Outcome State Fault Refusal :=
  .next (onCommand s src msg 2 refuseAwake wakeByReedline)

/-- OFF (R302, R316). -/
def execOff (src : Word) (msg : List Byte) (s : State) : Host.Outcome State Fault Refusal :=
  .next (onCommand s src msg 3 refuseBusy turnOff)

/-- ADMIN (R245). -/
def execAdmin (src : Word) (msg : List Byte) (s : State) : Host.Outcome State Fault Refusal :=
  .next (onCommand s src msg 4 refuseAdmin reedAdmin)

/-- RELEASE (R290, R323). -/
def execRelease (src : Word) (msg : List Byte) (s : State) : Host.Outcome State Fault Refusal :=
  .next (onCommand s src msg 5 refuseRelease release)

/-- SET_PORT (R323). -/
def execSetPort (src : Word) (msg : List Byte) (s : State) : Host.Outcome State Fault Refusal :=
  .next (onCommand s src msg 6 refusePort (fun s arg => setFld s (s0Health 0xF200) 51 36 arg))

/-- REEDLINE_FORMAT (R323): a message that is not well formed. -/
def execReedlineFormat (src : Word) (msg : List Byte) (s : State) : Host.Outcome State Fault Refusal :=
  .next (onFrame s src (fun s => if msgOk msg then s else reply s msg 1 []))

/-- UNKNOWN_SOURCE_FRAME (R321). -/
def execUnknownSourceFrame (src : Word) (s : State) : Host.Outcome State Fault Refusal := .next (onFrame s src (fun s => s))

/-- NEIGHBOUR_SOLICITATION (R318, R321). -/
def execNeighbourSolicitation (src : Word) (s : State) : Host.Outcome State Fault Refusal := .next (onSolicitation s src)

/-- IPV6_ECHO (R318): `payload` is the request after its checksum: identifier, sequence and data. -/
def execIpv6Echo (src : Word) (payload : List Byte) (s : State) : Host.Outcome State Fault Refusal :=
  .next (onFrame s src (fun s => reedSend s (icmp s src 129 payload)))

/-- FCS_ERR (R320). -/
def execFcsErr (s : State) : Host.Outcome State Fault Refusal :=
  .next (if phyAlive s then addFld s (s0Health 0xF208) 31 16 1 else s)

/-- BEACON (R319, R320). -/
def execBeacon (own : Bool) (s : State) : Host.Outcome State Fault Refusal := .next (onBeacon s own)

/-- BEACON_MISS (R320). -/
def execBeaconMiss (s : State) : Host.Outcome State Fault Refusal := .next (missBeacon s)

/-- COORDINATOR_LISTEN_EXPIRY (R319). -/
def execCoordinatorListenExpiry (s : State) : Host.Outcome State Fault Refusal := .next (endListening s)

end Sys2Proof.Machine
end

