-- ==== Sys2Proof/Machine/Scalar.lean ====
section
/-!
DEFINITION. Scalar arithmetic and branches (R132, R133, Table 5.4 MAJ 0x01 to 0x03 and 0x08 to 0x0A).
-/

namespace Sys2Proof.Machine

/-! ### Shared operations -/

/-- A scalar operation of two registers into xd (R132, format S). -/
def aluOp (t : TileId) (w : IWord) (f : Word → Word → Word) (s : State) : State :=
  issue s t (Form.s.ok w) [w.d, w.a, w.b] (fun i s =>
    let c := issuerCtx s t i
    retire s t i (i.index + 1) (fun y => xSet y w.d (f (xGet c w.a) (xGet c w.b))))

/-- A scalar operation of a register and the sign-extended immediate into xd (R132, format I). -/
def aluImm (t : TileId) (w : IWord) (f : Word → Word → Word) (s : State) : State :=
  issue s t (Form.i.ok w) [w.d, w.a] (fun i s =>
    let c := issuerCtx s t i
    retire s t i (i.index + 1) (fun y => xSet y w.d (f (xGet c w.a) w.imm)))

/-- Whether IMM[31:6] is 0, as a shift amount must be (R132). -/
def shiftOk (w : IWord) : Bool := decide (w.extBits 31 6 = 0)

/-- A shift by IMM[5:0] (R132). -/
def shiftImm (t : TileId) (w : IWord) (f : Word → Nat → Word) (s : State) : State :=
  issue s t (Form.i.ok w && shiftOk w) [w.d, w.a] (fun i s =>
    let c := issuerCtx s t i
    retire s t i (i.index + 1) (fun y => xSet y w.d (f (xGet c w.a) (w.extBits 5 0))))

/-- LI and LIH: a value from the immediate and the old xd (R132). -/
def loadImm (t : TileId) (w : IWord) (f : Word → Word) (s : State) : State :=
  issue s t (Form.i.ok w) [w.d] (fun i s =>
    let c := issuerCtx s t i
    retire s t i (i.index + 1) (fun y => xSet y w.d (f (xGet c w.d))))

/-- A shift amount from a register: bits [5:0]. -/
def shAmt (b : Word) : Nat := b.toNat % 64

/-- The high 64 bits of the unsigned product (R132). -/
def mulHigh (a b : Word) : Word := BitVec.ofNat 64 (a.toNat * b.toNat / 2 ^ 64)

/-- 1 or 0. -/
def flag (b : Bool) : Word := if b then 1 else 0

/-- A conditional branch: to its own index plus IMM when the condition holds (R133). -/
def branch (t : TileId) (w : IWord) (f : Word → Word → Bool) (s : State) : State :=
  issue s t (Form.br.ok w) [w.a, w.b] (fun i s =>
    let c := issuerCtx s t i
    retire s t i (if f (xGet c w.a) (xGet c w.b) then i.index + w.off else i.index + 1) id)

/-- An instruction index as a register value: the index plus 1 (R133). -/
def linkIndex (i : Issuer) : Word := BitVec.ofInt 64 (i.index + 1)

/-! ### Meanings -/

/-- ADD: xs1 plus xs2, wrapping (R132). -/
def execAdd (t : TileId) (w : IWord) (s : State) : Host.Outcome State Fault Refusal := .next (aluOp t w (fun a b => a + b) s)

/-- SUB: xs1 minus xs2 (R132). -/
def execSub (t : TileId) (w : IWord) (s : State) : Host.Outcome State Fault Refusal := .next (aluOp t w (fun a b => a - b) s)

/-- AND: xs1 AND xs2 (R132). -/
def execAnd (t : TileId) (w : IWord) (s : State) : Host.Outcome State Fault Refusal := .next (aluOp t w (fun a b => a &&& b) s)

/-- OR: xs1 OR xs2 (R132). -/
def execOr (t : TileId) (w : IWord) (s : State) : Host.Outcome State Fault Refusal := .next (aluOp t w (fun a b => a ||| b) s)

/-- XOR: xs1 XOR xs2 (R132). -/
def execXor (t : TileId) (w : IWord) (s : State) : Host.Outcome State Fault Refusal := .next (aluOp t w (fun a b => a ^^^ b) s)

/-- SLL: xs1 shifted left by xs2[5:0] (R132). -/
def execSll (t : TileId) (w : IWord) (s : State) : Host.Outcome State Fault Refusal := .next (aluOp t w (fun a b => a <<< shAmt b) s)

/-- SRL: xs1 shifted right logically by xs2[5:0] (R132). -/
def execSrl (t : TileId) (w : IWord) (s : State) : Host.Outcome State Fault Refusal := .next (aluOp t w (fun a b => a >>> shAmt b) s)

/-- SRA: xs1 shifted right arithmetically by xs2[5:0] (R132). -/
def execSra (t : TileId) (w : IWord) (s : State) : Host.Outcome State Fault Refusal := .next (aluOp t w (fun a b => a.sshiftRight (shAmt b)) s)

/-- SLT: 1 when xs1 < xs2 signed (R132). -/
def execSlt (t : TileId) (w : IWord) (s : State) : Host.Outcome State Fault Refusal := .next (aluOp t w (fun a b => flag (a.slt b)) s)

/-- SLTU: 1 when xs1 < xs2 unsigned (R132). -/
def execSltu (t : TileId) (w : IWord) (s : State) : Host.Outcome State Fault Refusal := .next (aluOp t w (fun a b => flag (a.ult b)) s)

/-- MUL: the low 64 bits of the product (R132). -/
def execMul (t : TileId) (w : IWord) (s : State) : Host.Outcome State Fault Refusal := .next (aluOp t w (fun a b => a * b) s)

/-- MULHU: the high 64 bits of the unsigned product (R132). -/
def execMulhu (t : TileId) (w : IWord) (s : State) : Host.Outcome State Fault Refusal := .next (aluOp t w (mulHigh) s)

/-- MIN: the signed minimum (R132). -/
def execMin (t : TileId) (w : IWord) (s : State) : Host.Outcome State Fault Refusal := .next (aluOp t w (fun a b => if b.slt a then b else a) s)

/-- MAX: the signed maximum (R132). -/
def execMax (t : TileId) (w : IWord) (s : State) : Host.Outcome State Fault Refusal := .next (aluOp t w (fun a b => if a.slt b then b else a) s)

/-- ADDI: xs1 plus the immediate (R132). -/
def execAddi (t : TileId) (w : IWord) (s : State) : Host.Outcome State Fault Refusal := .next (aluImm t w (fun a b => a + b) s)

/-- ANDI: xs1 AND the immediate (R132). -/
def execAndi (t : TileId) (w : IWord) (s : State) : Host.Outcome State Fault Refusal := .next (aluImm t w (fun a b => a &&& b) s)

/-- ORI: xs1 OR the immediate (R132). -/
def execOri (t : TileId) (w : IWord) (s : State) : Host.Outcome State Fault Refusal := .next (aluImm t w (fun a b => a ||| b) s)

/-- XORI: xs1 XOR the immediate (R132). -/
def execXori (t : TileId) (w : IWord) (s : State) : Host.Outcome State Fault Refusal := .next (aluImm t w (fun a b => a ^^^ b) s)

/-- SLLI: xs1 shifted left by IMM[5:0] (R132). -/
def execSlli (t : TileId) (w : IWord) (s : State) : Host.Outcome State Fault Refusal := .next (shiftImm t w (fun a n => a <<< n) s)

/-- SRLI: xs1 shifted right logically by IMM[5:0] (R132). -/
def execSrli (t : TileId) (w : IWord) (s : State) : Host.Outcome State Fault Refusal := .next (shiftImm t w (fun a n => a >>> n) s)

/-- SRAI: xs1 shifted right arithmetically by IMM[5:0] (R132). -/
def execSrai (t : TileId) (w : IWord) (s : State) : Host.Outcome State Fault Refusal := .next (shiftImm t w (fun a n => a.sshiftRight n) s)

/-- SLTI: 1 when xs1 is less than the immediate, signed (R132). -/
def execSlti (t : TileId) (w : IWord) (s : State) : Host.Outcome State Fault Refusal := .next (aluImm t w (fun a b => flag (a.slt b)) s)

/-- SLTIU: 1 when xs1 is less than the immediate, unsigned (R132). -/
def execSltiu (t : TileId) (w : IWord) (s : State) : Host.Outcome State Fault Refusal := .next (aluImm t w (fun a b => flag (a.ult b)) s)

/-- LI: the sign-extended immediate (R132). -/
def execLi (t : TileId) (w : IWord) (s : State) : Host.Outcome State Fault Refusal := .next (loadImm t w (fun _ => w.imm) s)

/-- LIH: the immediate into xd[63:32], keeping xd[31:0] (R132). -/
def execLih (t : TileId) (w : IWord) (s : State) : Host.Outcome State Fault Refusal := .next (loadImm t w (fun old => w.ext ++ old.setWidth 32) s)

/-- BEQ: branch by IMM when xs1 equals xs2 (R133). -/
def execBeq (t : TileId) (w : IWord) (s : State) : Host.Outcome State Fault Refusal := .next (branch t w (fun a b => decide (a = b)) s)

/-- BNE: branch by IMM when xs1 differs from xs2 (R133). -/
def execBne (t : TileId) (w : IWord) (s : State) : Host.Outcome State Fault Refusal := .next (branch t w (fun a b => decide (a ≠ b)) s)

/-- BLT: branch by IMM when xs1 < xs2 signed (R133). -/
def execBlt (t : TileId) (w : IWord) (s : State) : Host.Outcome State Fault Refusal := .next (branch t w (fun a b => a.slt b) s)

/-- BGE: branch by IMM when xs1 ≥ xs2 signed (R133). -/
def execBge (t : TileId) (w : IWord) (s : State) : Host.Outcome State Fault Refusal := .next (branch t w (fun a b => !(a.slt b)) s)

/-- BLTU: branch by IMM when xs1 < xs2 unsigned (R133). -/
def execBltu (t : TileId) (w : IWord) (s : State) : Host.Outcome State Fault Refusal := .next (branch t w (fun a b => a.ult b) s)

/-- BGEU: branch by IMM when xs1 ≥ xs2 unsigned (R133). -/
def execBgeu (t : TileId) (w : IWord) (s : State) : Host.Outcome State Fault Refusal := .next (branch t w (fun a b => !(a.ult b)) s)

/-- JAL: the index plus 1 into xd, and a jump by IMM (R133). -/
def execJal (t : TileId) (w : IWord) (s : State) : Host.Outcome State Fault Refusal :=
  .next (issue s t (Form.jump.ok w) [w.d] (fun i s =>
    retire s t i (i.index + w.off) (fun y => xSet y w.d (linkIndex i))))

/-- JALR: a jump to (xs1 + IMM) mod 2^13, computed before xd is written with the index plus 1 (R133). -/
def execJalr (t : TileId) (w : IWord) (s : State) : Host.Outcome State Fault Refusal :=
  .next (issue s t (Form.jump.ok w) [w.d, w.a] (fun i s =>
    let c := issuerCtx s t i
    retire s t i ((xGet c w.a + w.imm).toNat % 8192 : Nat) (fun y => xSet y w.d (linkIndex i))))

end Sys2Proof.Machine
end

