-- ==== Sys2Proof/Machine/System.lean ====
section
/-!
DEFINITION. The system instructions: contexts, synchronisation, flags, epochs and system registers (R40 to R42, R70, R95, R125, R145 to R148,
Table 5.4 MAJ 0x30), and the events that end their waits.

What the spec leaves open here: log entries 6 and 20.
-/

namespace Sys2Proof.Machine

/-! ### Shared operations -/

/-- Format X with every field zero but the ones named (R122, Table 5.1). -/
def sysOk (w : IWord) (d a : Bool) : Bool := Form.x.ok w && (d || decide (w.d = 0)) && (a || decide (w.a = 0))

/-- The selected context as an issuer: a waiting instruction goes on as the one at its index. -/
def waitIssuer (s : State) (t : Nat) : Issuer := ⟨(tileOf s t).sel, (selCtx s t).pc, (tileOf s t).seq⟩

/-- A wait instruction ends: its context runs again, at the next index, with its effect on the context. -/
def endWait (s : State) (t : Nat) (i : Issuer) (f : Ctx → Ctx) : State :=
  retire s t i (i.index + 1) (fun c => { f c with st := .running, wait := none })

/-- The context is DONE and the next READY one is selected (R147). -/
def finishCtx (s : State) (t : Nat) (i : Issuer) : State :=
  selectNext (retire s t i i.index (fun c => { c with st := .done, wait := none })) t

/-- NWAIT with CONSUME subtracts the threshold (R144). -/
def consume (s : State) (t : Nat) (k : BitVec 6) (th : Lane) (on : Bool) : State :=
  if on then setFld s (cntReg t k.toNat) 31 0 (cntOf s t k.toNat - th.toNat) else s

/-- FLRD's value (R146): an engine's flags, or the OR of the five. -/
def flagValue (s : State) (t : Nat) (e : Nat) : Word :=
  BitVec.ofNat 64 (match FlagEngine.ofCode e with
    | some g => flagsOf s t g
    | none => flagsAny s t)

/-- The flags of an engine raised in the CCLK under way. -/
def raisedNow (s : State) (t : Nat) (e : FlagEngine) : Nat :=
  (s.ticks.raised.filter (fun r => decide (r.1 = flagReg t e ∧ r.2.1 / cclk s t = s.vco / cclk s t))).foldl (fun a r => a ||| r.2.2) 0

/-- FLCLR's effect (R146). A points reducer's flag raised in the same CCLK stays (R96); on the other three FLCLR has waited for what it clears (R95). -/
def clearEngine (s : State) (t : Nat) (e mask : Nat) : State :=
  match FlagEngine.ofCode e with
  | some .pru => clearFlags s t .pru (mask % 32 &&& (31 - raisedNow s t .pru % 32))
  | some .prd => clearFlags s t .prd (mask % 32 &&& (31 - raisedNow s t .prd % 32))
  | some g => clearFlags s t g mask
  | none => s

/-- What a wait instruction does when its condition holds. -/
def finishWait (s : State) (t : Nat) (i : Issuer) (w : Wait) : State :=
  match w with
  | .nwait k th c => endWait (consume s t k th c) t i id
  | .qwait _ _ _ => endWait s t i id
  | .fence _ _ => endWait s t i id
  | .endCtx => finishCtx s t i
  | .epwait _ xd => endWait s t i (fun c => xSet c xd (tileOf s t).epLast)
  | .flrd e xd _ => endWait s t i (fun c => xSet c xd (flagValue s t e.toNat))
  | .flclr e mask _ => endWait (clearEngine s t e.toNat mask.toNat) t i id

/-- A wait instruction at issue: it ends in its cycle when its condition holds, and blocks its context otherwise (R39). -/
def waitFor (s : State) (t : Nat) (i : Issuer) (w : Wait) : State :=
  if waitMet s t i.ctx w then finishWait s t i w else blockOn s t i w

/-- A waiting instruction of one of these kinds whose condition now holds goes on. -/
def resume (s : State) (t : Nat) (kind : Wait → Bool) : State :=
  match (selCtx s t).st, (selCtx s t).wait with
  | .waiting, some w =>
    if kind w && waitMet s t (tileOf s t).sel w then finishWait s t (waitIssuer s t) w else s
  | _, _ => s

/-! ### Contexts -/

/-- CTXSW (R41): the named context is selected when it is READY or WAITING; naming the issuing context does nothing. -/
def switchTo (s : State) (t : Nat) (i : Issuer) (c : CtxId) : State :=
  if c = i.ctx then retire s t i (i.index + 1) id
  else match ((tileOf s t).ctxOf c).st with
    | .ready | .waiting => selectCtx (retire s t i (i.index + 1) (fun y => { y with st := .ready })) t c
    | _ => issueFault s t i 0x06

/-- CTXYIELD (R40): the first READY context after this one, or this one goes on. -/
def yieldCtx (s : State) (t : Nat) (i : Issuer) : State :=
  match nextReady (tileOf s t) with
  | some c => selectCtx (retire s t i (i.index + 1) (fun y => { y with st := .ready })) t c
  | none => retire s t i (i.index + 1) id

/-! ### System registers (Table 5.3) -/

/-- The system register of an index; `none` where Table 5.3 lists none. -/
def sysReg (s : State) (t : Nat) (c : CtxId) (n : Nat) : Option Word :=
  match n with
  | 0 => some (BitVec.ofNat 64 c.val)
  | 2 => some (BitVec.ofNat 64 (cycleOf s t))
  | 3 => some (BitVec.ofNat 64 (gtimeOf s (t / 144)))
  | 4 => some ((tileOf s t).epSeq.setWidth 64)
  | 5 => some (tileOf s t).epLast
  | 6 => some (tileOf s t).invoc
  | _ => none

/-! ### Issue -/

/-- A system instruction that needs nothing of another unit. -/
def sysOp (t : TileId) (ok : Bool) (regs : List (BitVec 5)) (act : Issuer → State → State) (s : State) : State :=
  issue s t ok regs act

/-- FENCE: an open merge packet of every queue is sent when the mask selects the shunter (R66, R145). -/
def fenceOp (t : TileId) (w : IWord) (s : State) : State :=
  sysOp t (sysOk w false false && decide (w.extBits 31 4 = 0)) [] (fun i s =>
    let m := w.extBits 3 0
    let s1 := if (maskUnits m).contains .sh then forEach (List.range 16) s (fun s q => sendMerge s t q) else s
    waitFor s1 t i (.fence (BitVec.ofNat 4 m) (tileOf s t).seq)) s

/-- The encodings QWAIT accepts (R145). -/
def qwaitOk (w : IWord) : Bool :=
  sysOk w false false && decide (w.extBits 31 12 = 0 ∧ w.extBits 2 0 ≤ 4 ∧ w.extBits 11 7 ≤ 16)
    && decide (w.extBits 2 0 = 4 ∨ w.extBits 6 3 = 0)

/-- QWAIT: an open merge packet of the shunter queue it names is sent (R66, R145). -/
def qwaitOp (t : TileId) (w : IWord) (s : State) : State :=
  sysOp t (qwaitOk w) [] (fun i s =>
    let q := w.extBits 6 3
    let s1 := if w.extBits 2 0 = 4 then sendMerge s t q else s
    waitFor s1 t i (.qwait (BitVec.ofNat 3 (w.extBits 2 0)) (BitVec.ofNat 4 q) (BitVec.ofNat 5 (w.extBits 11 7)))) s

/-- Let time pass until the watchdog's measure exceeds LIMIT, for a tile that it measures. -/
def wakeWatchdog (s : State) (t : TileId) : State :=
  if (tileOf s t).running && decide ((selCtx s t).st = .running ∨ (selCtx s t).st = .waiting) then
    waitVco s ((tileOf s t).issuedAt + ceilDiv ((fld s (tileReg t 0x208) 35 0 + 1) * 28) 5)
  else s

/-- The watchdog (R70): a running context that has not issued for longer than LIMIT sets WDOG and reports, with the cause it charges. -/
def watchdog (t : TileId) (s : State) : State :=
  let s1 := charge (wakeWatchdog s t) t
  let x := tileOf s1 t
  let live := decide ((selCtx s1 t).st = .running ∨ (selCtx s1 t).st = .waiting)
  if x.running && live && decide (fld s1 (tileReg t 0x208) 35 0 < (s1.vco - x.issuedAt) * 5 / 28) then
    tileReport (tileEvent s1 t 0x100) t .watchdog (x.cause.at s1.now).val
  else s1

/-- T1 (R302): no issue and four empty queues for 64 CCLK. -/
def enterT1 (t : TileId) (s : State) : State :=
  let x := tileOf s t
  let idle := allUnits.all (fun u => (outstanding x u).isEmpty) && x.core.isNone
  if idle then updTile (waitVco s (x.issuedAt + 64 * cclk s t)) t (fun x => { x with t1 := true }) else s

/-! ### Meanings -/

/-- NOP (R147). -/
def execNop (t : TileId) (w : IWord) (s : State) : Host.Outcome State Fault Refusal :=
  .next (sysOp t (sysOk w false false && decide (w.ext = 0)) [] (fun i s => retire s t i (i.index + 1) id) s)

/-- END (R147). -/
def execEndCtx (t : TileId) (w : IWord) (s : State) : Host.Outcome State Fault Refusal :=
  .next (sysOp t (sysOk w false false && decide (w.ext = 0)) [] (fun i s => waitFor s t i .endCtx) s)

/-- CTXSW (R41): EXT[1:0] names the target. -/
def execCtxsw (t : TileId) (w : IWord) (s : State) : Host.Outcome State Fault Refusal :=
  .next (sysOp t (sysOk w false false && decide (w.extBits 31 2 = 0)) []
    (fun i s => switchTo s t i (Fin.ofNat 4 (w.extBits 1 0))) s)

/-- CTXYIELD (R40). -/
def execCtxyield (t : TileId) (w : IWord) (s : State) : Host.Outcome State Fault Refusal :=
  .next (sysOp t (sysOk w false false && decide (w.ext = 0)) [] (fun i s => yieldCtx s t i) s)

/-- FENCE (R145). -/
def execFence (t : TileId) (w : IWord) (s : State) : Host.Outcome State Fault Refusal := .next (fenceOp t w s)

/-- QWAIT (R145). -/
def execQwait (t : TileId) (w : IWord) (s : State) : Host.Outcome State Fault Refusal := .next (qwaitOp t w s)

/-- QUEUE_WAIT_MET (R145): the condition of a QWAIT, FENCE or END holds; FLRD and FLCLR wait for a queue as well (R95). -/
def execQueueWaitMet (t : TileId) (s : State) : Host.Outcome State Fault Refusal :=
  .next (resume s t (fun w => match w with
    | .qwait _ _ _ | .fence _ _ | .endCtx | .flrd _ _ _ | .flclr _ _ _ => true
    | _ => false))

/-- FLRD (R146). -/
def execFlrd (t : TileId) (w : IWord) (s : State) : Host.Outcome State Fault Refusal :=
  .next (sysOp t (sysOk w true false && decide (w.extBits 31 3 = 0 ∧ w.extBits 2 0 ≤ 5)) [w.d]
    (fun i s => waitFor s t i (.flrd (BitVec.ofNat 3 (w.extBits 2 0)) w.d (tileOf s t).seq)) s)

/-- FLCLR (R146). -/
def execFlclr (t : TileId) (w : IWord) (s : State) : Host.Outcome State Fault Refusal :=
  .next (sysOp t (sysOk w false false && decide (w.extBits 31 8 = 0 ∧ w.extBits 2 0 ≤ 4)) []
    (fun i s => waitFor s t i
      (.flclr (BitVec.ofNat 3 (w.extBits 2 0)) (BitVec.ofNat 5 (w.extBits 7 3)) (tileOf s t).seq)) s)

/-- EPWAIT (R148). -/
def execEpwait (t : TileId) (w : IWord) (s : State) : Host.Outcome State Fault Refusal :=
  .next (sysOp t (sysOk w true true && decide (w.ext = 0)) [w.d, w.a]
    (fun i s => waitFor s t i (.epwait (BitVec.ofNat 32 (bits (xGet (issuerCtx s t i) w.a) 31 0)) w.d)) s)

/-- EPWAIT_MET (R148). -/
def execEpwaitMet (t : TileId) (s : State) : Host.Outcome State Fault Refusal :=
  .next (resume s t (fun w => match w with
    | .epwait _ _ => true
    | _ => false))

/-- SRD (R125): an index that Table 5.3 does not list is ILLEGAL. -/
def execSrd (t : TileId) (w : IWord) (s : State) : Host.Outcome State Fault Refusal :=
  .next (sysOp t (sysOk w true false && decide (w.extBits 31 12 = 0) && (sysReg s t 0 (w.extBits 11 0)).isSome) [w.d]
    (fun i s => match sysReg s t i.ctx (w.extBits 11 0) with
      | some v => retire s t i (i.index + 1) (fun c => xSet c w.d v)
      | none => s) s)

/-- BRK: fault BREAK (R147). -/
def execBrk (t : TileId) (w : IWord) (s : State) : Host.Outcome State Fault Refusal :=
  .next (sysOp t (sysOk w false false && decide (w.ext = 0)) [] (fun i s => issueFault s t i 0x1C) s)

/-- T1_ENTRY (R302). -/
def execT1Entry (t : TileId) (s : State) : Host.Outcome State Fault Refusal := .next (enterT1 t s)

/-- TILE_WATCHDOG_EXPIRY (R70). -/
def execTileWatchdogExpiry (t : TileId) (s : State) : Host.Outcome State Fault Refusal := .next (watchdog t s)

/-- NWAIT (R144): EXT[5:0] names the counter, EXT[6] is CONSUME. -/
def execNwait (t : TileId) (w : IWord) (s : State) : Host.Outcome State Fault Refusal :=
  .next (sysOp t (Form.n.ok w && decide (w.extBits 31 7 = 0)) [w.a] (fun i s =>
    waitFor s t i (.nwait (BitVec.ofNat 6 (w.extBits 5 0))
      (BitVec.ofNat 32 (bits (xGet (issuerCtx s t i) w.a) 31 0)) (decide (w.extBits 6 6 = 1)))) s)

/-- NWAIT_MET (R144). -/
def execNwaitMet (t : TileId) (s : State) : Host.Outcome State Fault Refusal :=
  .next (resume s t (fun w => match w with
    | .nwait _ _ _ => true
    | _ => false))

end Sys2Proof.Machine
end

