-- ==== Sys2Proof/Machine/TestConn.lean ====
section
/-!
DEFINITION. The sideband pins and the test connector's TAP (R334, R335, R337, Tables 13.6 to 13.9).

What the spec leaves open here: log entry 82.
-/

namespace Sys2Proof.Machine

/-! ### Sideband pins (Table 13.6) -/

/-- What the module and its hosts drive on the pins 1 to 28 of the header; ground reads 0. MOD_RESET# is high between its lows. -/
def pinsNow (s : State) : BitVec 28 :=
  let level (i : Nat) : Bool :=
    if i < 16 then (if i % 2 = 0 then (portOf s (i / 2)).perst else !(wakeAsserted s (i / 2)))
    else if i = 16 then s.m.power.pwrgd
    else if i = 17 then !(alertAsserted s)
    else decide (i = 18)
  BitVec.ofNat 28 (bitsOf ((List.range 28).map level))

/-- The loaded instruction; the controller's reset state selects IDCODE. -/
def tapIr (s : State) : BitVec 8 := if s.m.tap.st = .reset then Config.tapCode 2 else s.m.tap.ir

/-- What the pins of the header carry: with EXTEST, the outputs carry the boundary register. -/
def pinsOut (s : State) : BitVec 28 :=
  let outs : BitVec 28 := 0x3AAAA
  if tapIr s = Config.tapCode 0 then (pinsNow s &&& ~~~outs) ||| (s.m.tap.bsr &&& outs) else pinsNow s

/-- A value by pin as the boundary register holds it by cell. -/
def byCell (pins : BitVec 28) : Nat := bitsOf ((List.range 28).map (fun i => pins.getLsbD (Config.boundaryPin i % 28)))

/-- The boundary register's cells as a value by pin; a pin of two cells takes the later one's. -/
def byPin (cells : Nat) : BitVec 28 :=
  (List.range 28).foldl (fun w i =>
    let m : BitVec 28 := 1 <<< (Config.boundaryPin i % 28)
    if cells.testBit i then w ||| m else w &&& ~~~m) 0

/-! ### The TAP controller (IEEE 1149.1) -/

/-- The state after a rising edge of TCK. -/
def tapNext (st : TapState) (tms : Bool) : TapState :=
  match st, tms with
  | .reset, true => .reset
  | .reset, false => .idle
  | .idle, true => .selDr
  | .idle, false => .idle
  | .selDr, true => .selIr
  | .selDr, false => .capDr
  | .capDr, true => .exit1Dr
  | .capDr, false => .shiftDr
  | .shiftDr, true => .exit1Dr
  | .shiftDr, false => .shiftDr
  | .exit1Dr, true => .updDr
  | .exit1Dr, false => .pauseDr
  | .pauseDr, true => .exit2Dr
  | .pauseDr, false => .pauseDr
  | .exit2Dr, true => .updDr
  | .exit2Dr, false => .shiftDr
  | .updDr, true => .selDr
  | .updDr, false => .idle
  | .selIr, true => .reset
  | .selIr, false => .capIr
  | .capIr, true => .exit1Ir
  | .capIr, false => .shiftIr
  | .shiftIr, true => .exit1Ir
  | .shiftIr, false => .shiftIr
  | .exit1Ir, true => .updIr
  | .exit1Ir, false => .pauseIr
  | .pauseIr, true => .exit2Ir
  | .pauseIr, false => .pauseIr
  | .exit2Ir, true => .updIr
  | .exit2Ir, false => .shiftIr
  | .updIr, true => .selDr
  | .updIr, false => .idle

/-- The instructions of the TAP. A code that names none is BYPASS. -/
inductive TapOp where
  | bypass
  | extest
  | sample
  | idcode
  | mchain
deriving DecidableEq, Repr

/-- The instruction of a code: MCHAIN is 0xA5, BYPASS all ones, and the others' codes are not given (R337). -/
def tapOp (ir : BitVec 8) : TapOp :=
  if ir = 0xA5 then .mchain
  else if ir = 0xFF then .bypass
  else if ir = Config.tapCode 0 then .extest
  else if ir = Config.tapCode 1 then .sample
  else if ir = Config.tapCode 2 then .idcode
  else .bypass

/-- IDCODE: bit 0 is 1 and the part number 0x4840 in [27:12]. -/
def idcode : Nat := ((Config.idcodeRest &&& (0xF0000FFE : BitVec 32)) ||| (0x04840001 : BitVec 32)).toNat

/-- The length of an instruction's data register. -/
def drLen (op : TapOp) : Nat :=
  match op with
  | .bypass => 1
  | .extest => 28
  | .sample => 28
  | .idcode => 32
  | .mchain => 96

/-- What Capture-DR loads. -/
def captured (s : State) (op : TapOp) : BitVec 96 :=
  match op with
  | .bypass => 0
  | .extest => BitVec.ofNat 96 (byCell (pinsOut s))
  | .sample => BitVec.ofNat 96 (byCell (pinsOut s))
  | .idcode => BitVec.ofNat 96 idcode
  | .mchain => s.m.tap.answer

/-- Set the TAP. -/
def setTap (s : State) (f : Tap → Tap) : State := updM s (fun m => { m with tap := f m.tap })

/-- Shift a register of a length by one bit: `b` enters at the top. -/
def shiftIn (len : Nat) (r : Nat) (b : Bool) : Nat := r % 2 ^ len / 2 + b2n b * 2 ^ (len - 1)

/-- The rising edge in a state: capture and shift. -/
def tapEdge (s : State) (tdi : Bool) : State :=
  let op := tapOp (tapIr s)
  match s.m.tap.st with
  | .reset => setTap s (fun t => { t with ir := Config.tapCode 2 })
  | .capDr => let v := captured s op; setTap s (fun t => { t with dr := v })
  | .shiftDr => setTap s (fun t => { t with dr := BitVec.ofNat 96 (shiftIn (drLen op) t.dr.toNat tdi) })
  | .capIr => setTap s (fun t => { t with irShift := (Config.captureIr &&& 0xFC) ||| 1 })
  | .shiftIr => setTap s (fun t => { t with irShift := BitVec.ofNat 8 (shiftIn 8 t.irShift.toNat tdi) })
  | _ => s

/-- The falling edge in a state: update, and TDO, which carries a bit only while shifting. -/
def tapFall (s : State) : State :=
  let s1 := match s.m.tap.st with
    | .reset => setTap s (fun t => { t with ir := Config.tapCode 2 })
    | .updIr => setTap s (fun t => { t with ir := t.irShift })
    | .updDr =>
      (match tapOp s.m.tap.ir with
       | .extest => setTap s (fun t => { t with bsr := byPin (t.dr.toNat % 2 ^ 28) })
       | .sample => setTap s (fun t => { t with bsr := byPin (t.dr.toNat % 2 ^ 28) })
       | .mchain => startMchain s s.m.tap.dr
       | .bypass => s
       | .idcode => s)
    | _ => s
  setTap s1 (fun t => { t with tdo := match t.st with
    | .shiftDr => t.dr.getLsbD 0
    | .shiftIr => t.irShift.getLsbD 0
    | _ => false })

/-- One TCK period; TRST# low resets the controller. -/
def tapCycle (s : State) (tms tdi trst : Bool) : State :=
  if trst then tapFall (setTap s (fun t => { t with st := .reset }))
  else
    let s1 := tapEdge s tdi
    tapFall (setTap s1 (fun t => { t with st := tapNext t.st tms }))

/-! ### Meanings -/

/-- MCHAIN (R337, Table 13.9): Update-DR with these 96 bits. -/
def execMchain (dr : BitVec 96) (s : State) : Host.Outcome State Fault Refusal :=
  .next (if s.m.power.phase = .off then s else startMchain s dr)

/-- TAP_INSTRUCTION (R337): one TCK period with the levels of TMS and TDI; `trst` tells that TRST# is low. The lamp domain powers the
connector. -/
def execTapInstruction (tms tdi trst : Bool) (s : State) : Host.Outcome State Fault Refusal :=
  .next (if s.m.power.phase = .off then s else tapCycle s tms tdi trst)

end Sys2Proof.Machine
end

