-- ==== Sys2Proof/Machine/Vector.lean ====
section
/-!
DEFINITION. The vector engine (R126, R135 to R139, Tables 5.5 and 5.7): the checks at issue and the execution of a queued entry.

What the spec leaves open here: log entries 6, 96, 97, 98 and 112.
-/

namespace Sys2Proof.Machine

/-! ### Checks at issue (R122, R138, R139, Table 5.10) -/

/-- Whether the fields of a vector instruction that name a predicate have their upper two bits zero (R122). -/
def predFieldsOk (op : VeOp) (w : IWord) : Bool :=
  match op with
  | .cmpeq | .cmplt | .cmple | .pset => is3 w.d
  | .pget => is3 w.a
  | .pand | .por => is3 w.d && is3 w.a && is3 w.b
  | .pnot => is3 w.d && is3 w.a
  | _ => true

/-- An odd register number. -/
def oddReg (r : BitVec 5) : Bool := r.getLsbD 0

/-- Whether a CP32 pair is named by an odd register (R138). -/
def pairFault (op : VeOp) (w : IWord) : Bool :=
  match op with
  | .twosum | .ftwosum | .twoprod => oddReg w.d
  | .cpadd => oddReg w.d || oddReg w.a || (!w.bs && oddReg w.b)
  | .redCpsum => oddReg w.a
  | .cvt => (decide (w.dfmt = 0xA) && oddReg w.d) || (decide (w.sfmt = 0xA) && oddReg w.a)
  | _ => false

/-- The largest position of a plain format: 0 for FP32, 1 for 16 bits, 3 for 8 bits (R139). -/
def Plain.maxPos (p : Plain) : Nat := 32 / p.width - 1

/-- Whether VCVT rejects its formats, positions, rounding or predicate (R139, Table 3.6). -/
def cvtFault (w : IWord) : Bool :=
  let bad :=
    match Plain.ofCode w.sfmt, Plain.ofCode w.dfmt with
    | some p, some q => decide (p.maxPos < w.spos ∨ q.maxPos < w.dpos)
    | some p, none =>
      decide (p ≠ .fp32 ∨ w.pred ≠ 0 ∨ w.spos ≠ 0) ||
        (match WFmt.ofCode w.dfmt with
         | some f => decide (256 < (w.dpos + 1) * f.group)
         | none => if w.dfmt = 9 then decide (2 < w.dpos) else decide (w.dfmt ≠ 0xA ∨ w.dpos ≠ 0))
    | none, some q =>
      decide ((q ≠ .fp32 ∧ q ≠ .bf16) ∨ w.pred ≠ 0 ∨ q.maxPos < w.dpos) ||
        (match WFmt.ofCode w.sfmt with
         | some f => decide (256 < (w.spos + 1) * f.group)
         | none => if w.sfmt = 9 then decide (2 < w.spos) else decide (w.sfmt ≠ 0xA ∨ q ≠ .fp32 ∨ w.spos ≠ 0))
    | none, none => true
  decide (w.rnd = 3) || bad

/-- The CP32 instructions (R92), which ignore the rounding-mode field (R91). -/
def cp32Op : VeOp → Bool
  | .twosum | .ftwosum | .twoprod | .cpadd | .redCpsum => true
  | _ => false

/-- The VE_FORMAT check of every vector instruction (R91, R137, R139, Table 5.10). DEDUCED (log 98): RND 2 or 3 is a fault on every
instruction but VCVT and the CP32 instructions, the reductions, compares and predicate instructions among them. -/
def veFormatFault (op : VeOp) (w : IWord) : Bool :=
  if op = .cvt then cvtFault w
  else decide ((2 ≤ w.rnd ∧ cp32Op op = false) ∨ w.sfmt ≠ 0 ∨ w.dfmt ≠ 0 ∨ w.sat = true ∨ w.spos ≠ 0 ∨ w.dpos ≠ 0)

/-- The scalar registers a vector instruction names (R129). -/
def veScalars (op : VeOp) (w : IWord) : List (BitVec 5) :=
  match op with
  | .pset => [w.a]
  | .pget => [w.d]
  | .red | .redMax | .redMin | .redOr | .redCpsum => [w.d]
  | .pand | .por | .pnot => []
  | _ => if w.bs then [w.b] else []

/-- Whether an entry of the VE queue will write a predicate of a context (R129, R136). -/
def VeEntry.writesP (e : VeEntry) (c : CtxId) (n : Nat) : Bool :=
  decide (e.by_.ctx = c ∧ e.w.d.toNat = n) &&
    (match e.op with
     | .cmpeq | .cmplt | .cmple | .pset | .pand | .por | .pnot => true
     | _ => false)

/-- The predicates a vector instruction names (R129, R136). -/
def vePreds (op : VeOp) (w : IWord) : List Nat :=
  match op with
  | .pset => [w.d.toNat]
  | .pget => [w.a.toNat]
  | .pand | .por => [w.d.toNat, w.a.toNat, w.b.toNat]
  | .pnot => [w.d.toNat, w.a.toNat]
  | .cmpeq | .cmplt | .cmple => [w.d.toNat, w.pred]
  | _ => [w.pred]

/-- Whether an instruction names a predicate that an outstanding one of its context will write (R129); p0 is never written. -/
def predBusy (x : Tile) (c : CtxId) (op : VeOp) (w : IWord) : Bool :=
  (vePreds op w).any (fun n => decide (n ≠ 0) && x.q.ve.any (fun e => e.writesP c n))

/-- A vector instruction enters the VE queue with its scalar operands (R127). One that names a predicate still to be written waits (R129). -/
def veIssue (t : TileId) (w : IWord) (op : VeOp) (s : State) : State :=
  issue s t (Form.v.ok w && predFieldsOk op w) (veScalars op w) (fun i s =>
    if predBusy (tileOf s t) i.ctx op w then setCause s t (.of causeOperand)
    else if veFormatFault op w then issueFault s t i 0x16
    else if pairFault op w then issueFault s t i 0x17
    else
      let c := issuerCtx s t i
      enqueue s t i .ve (tileOf s t).q.ve.length (fun q => { q with ve := q.ve ++ [⟨i, op, w, xGet c w.a, xGet c w.b, 0⟩] }))

/-! ### Operands of an entry -/

/-- Operand b of a lane: vb, or the low half of xs2 with BS (Table 5.7). -/
def bLane (x : Tile) (e : VeEntry) (k : Nat) : Nat :=
  if e.w.bs then e.xs2.toNat % 2 ^ 32 else (vGet x e.w.b.toNat k).toNat

/-- The lo half of operand b of VCPADD: vb + 1, or the high half of xs2 with BS (R138). -/
def bLaneLo (x : Tile) (e : VeEntry) (k : Nat) : Nat :=
  if e.w.bs then e.xs2.toNat / 2 ^ 32 else (vGet x (e.w.b.toNat + 1) k).toNat

/-- Operand a of a lane. -/
def aLane (x : Tile) (e : VeEntry) (k : Nat) : Nat := (vGet x e.w.a.toNat k).toNat
/-- The lo half of a pair in va. -/
def aLaneLo (x : Tile) (e : VeEntry) (k : Nat) : Nat := (vGet x (e.w.a.toNat + 1) k).toNat
/-- Operand c of a lane. -/
def cLane (x : Tile) (e : VeEntry) (k : Nat) : Nat := (vGet x e.w.c.toNat k).toNat

/-- The lanes that a predicate makes active, ascending (R136). -/
def activeLanes (p : Word) : List Nat := (List.range 64).filter (fun k => p.getLsbD k)

/-- The OR of flag sets. -/
def orFlags (l : List Nat) : Nat := l.foldl (fun a b => a ||| b) 0

/-- Write the results of the active lanes to a register: the new tile and the flags. -/
def mapLanes (x : Tile) (r : Nat) (lanes : List Nat) (f : Nat → Nat × Nat) : Tile × Nat :=
  let rs := lanes.map (fun k => (k, f k))
  (vWrite x r (rs.map (fun p => (p.1, BitVec.ofNat 32 p.2.1))), orFlags (rs.map (fun p => p.2.2)))

/-- Write the pairs of the active lanes to vd and vd + 1 (R138). -/
def mapPairs (x : Tile) (r : Nat) (lanes : List Nat) (f : Nat → Pair) : Tile × Nat :=
  let rs := lanes.map (fun k => (k, f k))
  (vWrite (vWrite x r (rs.map (fun p => (p.1, BitVec.ofNat 32 p.2.hi)))) (r + 1) (rs.map (fun p => (p.1, BitVec.ofNat 32 p.2.lo))),
    orFlags (rs.map (fun p => p.2.fl)))

/-! ### Reductions (R138, R93) -/

/-- One level of pairwise combination: element 2i with element 2i + 1. -/
def pairUp {α : Type} (f : α → α → α) : List α → List α
  | a :: b :: r => f a b :: pairUp f r
  | l => l

/-- Six levels: 64 elements to one. -/
def tree6 {α : Type} (f : α → α → α) (l : List α) : List α :=
  pairUp f (pairUp f (pairUp f (pairUp f (pairUp f (pairUp f l)))))

/-- Combine values that carry flags. -/
def withFlags (f : Nat → Nat → Nat × Nat) (a b : Nat × Nat) : Nat × Nat :=
  let r := f a.1 b.1
  (r.1, r.2 ||| a.2 ||| b.2)

/-- Combine with an identity that sets no flag: a value beside it stands alone, as if combined with itself. -/
def withIdentity (f : Nat → Nat → Nat × Nat) : Option (Nat × Nat) → Option (Nat × Nat) → Option (Nat × Nat)
  | none, none => none
  | some a, none => some (withFlags f a a)
  | none, some b => some (withFlags f b b)
  | some a, some b => some (withFlags f a b)

/-- Reduce the lanes of an entry (R138): the value for xd and the flags. -/
def reduceLanes (x : Tile) (e : VeEntry) (p : Word) : Word × Nat :=
  let on (k : Nat) : Bool := p.getLsbD k
  let ks := List.range 64
  match e.op with
  | .redMax | .redMin =>
    let isMax := decide (e.op = .redMax)
    (match (tree6 (withIdentity (maxmin32 isMax)) (ks.map (fun k => if on k then some (aLane x e k, 0) else none))).head? with
     | some (some r) => (BitVec.ofNat 64 r.1, r.2)
     | _ => (if isMax then 0xFF800000 else 0x7F800000, 0))
  | .redOr =>
    (BitVec.ofNat 64 (orFlags (ks.map (fun k => if on k then aLane x e k else 0))), 0)
  | .redCpsum =>
    let r := (tree6 (fun (a b : Pair) => let c := cpadd32 a.hi a.lo b.hi b.lo; ⟨c.hi, c.lo, c.fl ||| a.fl ||| b.fl⟩)
      (ks.map (fun k => if on k then (⟨aLane x e k, aLaneLo x e k, 0⟩ : Pair) else ⟨0x80000000, 0, 0⟩))).headD ⟨0, 0, 0⟩
    (BitVec.ofNat 64 (r.hi + r.lo * 2 ^ 32), r.fl)
  | _ =>
    let r := (tree6 (withFlags (add32 .rne)) (ks.map (fun k => (if on k then aLane x e k else 0x80000000, 0)))).headD (0, 0)
    (BitVec.ofNat 64 r.1, r.2)

/-! ### Bytes of a vector register (R82) -/

/-- Byte `b` of a vector register: lane b div 4. -/
def vByte (x : Tile) (r b : Nat) : Byte := ((vGet x r (b / 4)) >>> (8 * (b % 4))).setWidth 8

/-- Replace byte `b` of a vector register. -/
def vSetByte (x : Tile) (r b : Nat) (v : Byte) : Tile :=
  let sh := 8 * (b % 4)
  let old := vGet x r (b / 4)
  vSet x r (b / 4) ((old &&& ~~~((0xFF : Lane) <<< sh)) ||| (v.setWidth 32 <<< sh))

/-- Store bytes from byte `b` on. -/
def vPut (x : Tile) (r b : Nat) : List Byte → Tile
  | [] => x
  | v :: vs => vPut (vSetByte x r b v) r (b + 1) vs

/-- Bytes from byte `b` on. -/
def vBytes (x : Tile) (r b n : Nat) : List Byte := (List.range n).map (fun i => vByte x r (b + i))

/-- Store numbers of `n` bytes at consecutive places. -/
def vPutElems (x : Tile) (r b n : Nat) (vs : List Nat) : Tile := vPut x r b (vs.flatMap (fun v => leBytes n v))

/-! ### VCVT (R139) -/

/-- What a conversion does: where results go, and the flags. -/
structure Cvt where
  tile  : Tile
  flags : Nat
deriving DecidableEq, Repr

/-- The draw of the i-th rounded element. -/
def drawAt (ds : List Nat) (i : Nat) : Nat := ds.getD i 0

/-- The plain conversions: 64 elements under the predicate. -/
def cvtPlain (x : Tile) (e : VeEntry) (p q : Plain) (mode : Rnd) (lanes ds : List Nat) : Cvt :=
  let w := e.w
  let rs := (List.zip (List.range 64) lanes).map (fun ik =>
    let b := (w.spos * 64 + ik.2) * (p.width / 8)
    (ik.2, convPlain q mode w.sat (drawAt ds ik.1) (p.decode (leNat (vBytes x w.a.toNat b (p.width / 8))))))
  ⟨rs.foldl (fun y r => vPut y w.d.toNat ((w.dpos * 64 + r.1) * (q.width / 8)) (leBytes (q.width / 8) r.2.1)) x,
    orFlags (rs.map (fun r => r.2.2))⟩

/-- FP32 to a weight format: one group with its scale. -/
def cvtToW (x : Tile) (e : VeEntry) (f : WFmt) (mode : Rnd) (ds : List Nat) : Cvt :=
  let scale := bLane x e 0 % 65536
  let rs := (List.range 64).map (fun k => convWeight f mode (drawAt ds k) scale (decodeFp fmt32 (aLane x e k)))
  let v := (List.zip (List.range 64) rs).foldl (fun a p => a + p.2.1 * 2 ^ (f.bits * p.1)) 0
  ⟨vPut x e.w.d.toNat (e.w.dpos * f.group) (leBytes f.group v), orFlags (rs.map (fun r => r.2))⟩

/-- A weight format to FP32 or BF16. -/
def cvtFromW (x : Tile) (e : VeEntry) (f : WFmt) (q : Plain) (mode : Rnd) (ds : List Nat) : Cvt :=
  let scale := bLane x e 0 % 65536
  let g := leNat (vBytes x e.w.a.toNat (e.w.spos * f.group) f.group)
  let rs := (List.range 64).map (fun k =>
    let d := decodeWeight f (g / 2 ^ (f.bits * k) % 2 ^ f.bits) scale
    let r := convPlain q mode e.w.sat (drawAt ds k) (decodeFp fmt32 d.1)
    (r.1, r.2 ||| d.2))
  ⟨vPutElems x e.w.d.toNat (e.w.dpos * 64 * (q.width / 8)) (q.width / 8) (rs.map (fun r => r.1)), orFlags (rs.map (fun r => r.2))⟩

/-- FP32 to G8: two blocks. -/
def cvtToG8 (x : Tile) (e : VeEntry) (mode : Rnd) (ds : List Nat) : Cvt :=
  let vs := (List.range 64).map (fun k => decodeFp fmt32 (aLane x e k))
  let b0 := g8Block mode ds (vs.take 32)
  let b1 := g8Block mode (ds.drop 32) (vs.drop 32)
  ⟨vPut x e.w.d.toNat (e.w.dpos * 66) ((b0.1 ++ b1.1).map (BitVec.ofNat 8)), b0.2 ||| b1.2⟩

/-- G8 to FP32 or BF16. -/
def cvtFromG8 (x : Tile) (e : VeEntry) (q : Plain) (mode : Rnd) (ds : List Nat) : Cvt :=
  let src := vBytes x e.w.a.toNat (e.w.spos * 66) 66
  let rs := (List.range 64).map (fun k =>
    convPlain q mode e.w.sat (drawAt ds k)
      (g8Decode (src.getD (k / 32 * 33 + 32) 0).toNat (src.getD (k / 32 * 33 + k % 32) 0).toNat))
  ⟨vPutElems x e.w.d.toNat (e.w.dpos * 64 * (q.width / 8)) (q.width / 8) (rs.map (fun r => r.1)), orFlags (rs.map (fun r => r.2))⟩

/-- FP32 to CP32: va is copied to vd, and vd + 1 is +0. DESIGN CHOICE (log 96): R139's copy holds for a NaN too, whose sign and payload stay. -/
def cvtToCp (x : Tile) (e : VeEntry) : Cvt :=
  let ks := List.range 64
  let fl := if ks.any (fun k => nonfin32 (aLane x e k)) then fNF else 0
  ⟨vWrite (vWrite x e.w.d.toNat (ks.map (fun k => (k, vGet x e.w.a.toNat k)))) (e.w.d.toNat + 1) (ks.map (fun k => (k, 0))), fl⟩

/-- CP32 to FP32: fl(hi + lo) under RND and SAT (R83, R139). DEDUCED (log 97): VCVT is no CP32 instruction of R91, so it does not round
with RNE only. -/
def cvtFromCp (x : Tile) (e : VeEntry) (mode : Rnd) (ds : List Nat) : Cvt :=
  let r := mapLanes x e.w.d.toNat (List.range 64) (fun k => cpTo32 mode e.w.sat (drawAt ds k) (aLane x e k) (aLaneLo x e k))
  ⟨r.1, r.2⟩

/-- How many draws a conversion takes: one for each active element under stochastic rounding (R86, R139);
none for the copy to CP32. -/
def cvtDraws (w : IWord) (lanes : List Nat) : Nat :=
  if w.rnd ≠ 2 ∨ w.dfmt = 0xA then 0 else lanes.length

/-- VCVT on a tile with its draws (R139). -/
def cvtExec (x : Tile) (e : VeEntry) (lanes ds : List Nat) : Cvt :=
  let w := e.w
  let mode := Rnd.ofCode w.rnd
  match Plain.ofCode w.sfmt, Plain.ofCode w.dfmt with
  | some p, some q => cvtPlain x e p q mode lanes ds
  | some _, none =>
    (match WFmt.ofCode w.dfmt with
     | some f => cvtToW x e f mode ds
     | none => if w.dfmt = 9 then cvtToG8 x e mode ds else cvtToCp x e)
  | none, some q =>
    (match WFmt.ofCode w.sfmt with
     | some f => cvtFromW x e f q mode ds
     | none => if w.sfmt = 9 then cvtFromG8 x e q mode ds else cvtFromCp x e mode ds)
  | none, none => ⟨x, 0⟩

/-! ### Execution of an entry -/

/-- The lane operations that write vd (R137): the new tile and the flags. -/
def laneExec (x : Tile) (e : VeEntry) (lanes : List Nat) : Tile × Nat :=
  let m := Rnd.ofCode e.w.rnd
  let d := e.w.d.toNat
  let a := aLane x e
  let b := bLane x e
  let c := cLane x e
  match e.op with
  | .add => mapLanes x d lanes (fun k => add32 m (a k) (b k))
  | .sub => mapLanes x d lanes (fun k => sub32 m (a k) (b k))
  | .max => mapLanes x d lanes (fun k => maxmin32 true (a k) (b k))
  | .min => mapLanes x d lanes (fun k => maxmin32 false (a k) (b k))
  | .abs => mapLanes x d lanes (fun k => (a k % 2 ^ 31, 0))
  | .neg => mapLanes x d lanes (fun k => (neg32 (a k), 0))
  | .mov => mapLanes x d lanes (fun k => (a k, 0))
  | .band => mapLanes x d lanes (fun k => (a k &&& b k, 0))
  | .bor => mapLanes x d lanes (fun k => (a k ||| b k, 0))
  | .bxor => mapLanes x d lanes (fun k => (a k ^^^ b k, 0))
  | .sel => mapLanes x d (List.range 64) (fun k => (if lanes.contains k then a k else b k, 0))
  | .mul => mapLanes x d lanes (fun k => mul32 m (a k) (b k))
  | .rcp => mapLanes x d lanes (fun k => rcp32 m (a k))
  | .rsq => mapLanes x d lanes (fun k => rsq32 m (a k))
  | .exp2 => mapLanes x d lanes (fun k => exp232 m (a k))
  | .log2 => mapLanes x d lanes (fun k => log232 m (a k))
  | .fma => mapLanes x d lanes (fun k => fma32 m (a k) (b k) (c k))
  | .fms => mapLanes x d lanes (fun k => fma32 m (a k) (b k) (neg32 (c k)))
  | .fnma => mapLanes x d lanes (fun k => fma32 m (neg32 (a k)) (b k) (c k))
  | .twosum => mapPairs x d lanes (fun k => twosum32 (a k) (b k))
  | .ftwosum => mapPairs x d lanes (fun k => ftwosum32 (a k) (b k))
  | .twoprod => mapPairs x d lanes (fun k => twoprod32 (a k) (b k))
  | .cpadd => mapPairs x d lanes (fun k => cpadd32 (a k) (aLaneLo x e k) (b k) (bLaneLo x e k))
  | _ => (x, 0)

/-- A compare: bit i of pd for each active lane (R137), the other bits kept (R136). -/
def compareExec (x : Tile) (e : VeEntry) (lanes : List Nat) (c : Cmp) (old : Word) : Word × Nat :=
  let rs := lanes.map (fun k => (k, cmp32 c (aLane x e k) (bLane x e k)))
  (rs.foldl (fun w r => putBits w r.1 r.1 (b2n r.2.1)) old, orFlags (rs.map (fun r => r.2.2)))

/-- What an entry does when it executes (R126, R136 to R139): the new state, or the fault it raises. -/
def veExec (s : State) (t : Nat) (e : VeEntry) : State × Option Nat :=
  let x := tileOf s t
  let ci := e.by_.ctx
  let c := x.ctxOf ci
  let p := pGet c e.w.pred
  let lanes := activeLanes p
  let flagged (r : Tile × Nat) : State × Option Nat := (raiseFlags (setTile s t r.1) t .ve r.2, none)
  match e.op with
  | .ldv =>
    let r := if e.addr < 0x600000 then Region.scr else .acc
    let d := tileRead s t (some ci) r e.addr 256
    if d.2.2 then (d.1, some (ueFault r)) else (updTile d.1 t (fun y => vPut y e.w.d.toNat 0 d.2.1), none)
  | .stv =>
    let r := if e.addr < 0x600000 then Region.scr else .acc
    (match storeData s t ci r e.addr (vBytes x e.w.b.toNat 0 256) with
     | some s' => (s', none)
     | none => (s, some 0x05))
  | .cvt =>
    let ds := takeDraws s t false (cvtDraws e.w lanes)
    let r := cvtExec (tileOf ds.1 t) e lanes ds.2
    (raiseFlags (setTile ds.1 t r.tile) t .ve r.flags, none)
  | .red | .redMax | .redMin | .redOr | .redCpsum =>
    let r := reduceLanes x e p
    (raiseFlags (updCtx s t ci (fun y => xSet y e.w.d r.1)) t .ve r.2, none)
  | .cmpeq | .cmplt | .cmple =>
    let k := if e.op = .cmpeq then Cmp.eq else if e.op = .cmplt then .lt else .le
    let r := compareExec x e lanes k (pGet c e.w.d.toNat)
    (raiseFlags (updCtx s t ci (fun y => pSet y e.w.d.toNat r.1)) t .ve r.2, none)
  | .pset => (updCtx s t ci (fun y => pSet y e.w.d.toNat e.xs1), none)
  | .pget => (updCtx s t ci (fun y => xSet y e.w.d (pGet y e.w.a.toNat)), none)
  | .pand => (updCtx s t ci (fun y => pSet y e.w.d.toNat (pGet y e.w.a.toNat &&& pGet y e.w.b.toNat)), none)
  | .por => (updCtx s t ci (fun y => pSet y e.w.d.toNat (pGet y e.w.a.toNat ||| pGet y e.w.b.toNat)), none)
  | .pnot => (updCtx s t ci (fun y => pSet y e.w.d.toNat (~~~(pGet y e.w.a.toNat))), none)
  | _ => flagged (laneExec x e lanes)

/-- Whether the head entry still waits for its banks: the TE holds its accumulator bank, or requests wait at a bank (R61, R135). -/
def veWaits (s : State) (t : Nat) (e : VeEntry) : Bool :=
  decide (e.op = .ldv ∨ e.op = .stv) &&
    (if e.addr < 0x600000 then bankBusy s t (some e.by_.ctx) e.addr else accHeld s t e.addr)

/-- VE_ENTRY_EXECUTE: the head entry executes in issue order (R128). A fault goes to the context that issued it, whose later VE entries are
discarded (R130). -/
def veStep (t : TileId) (s : State) : State :=
  match (tileOf s t).q.ve with
  | [] => s
  | e :: rest =>
    if veWaits s t e || !(scopeOpen s t) then s
    else
      let r := veExec (updTile s t (fun x => { x with q := { x.q with ve := rest } })) t e
      match r.2 with
      | none => recause r.1 t
      | some code =>
        recause (faultCtx (updTile r.1 t (fun x => { x with q := { x.q with ve := x.q.ve.filter (fun f => decide (f.by_.ctx ≠ e.by_.ctx)) } }))
          t e.by_.ctx code e.by_.index) t

/-- VE_ENTRY_EXECUTE (R126). -/
def execVeEntryExecute (t : TileId) (s : State) : Host.Outcome State Fault Refusal := .next (veStep t s)

/-! ### Meanings: each instruction's issue -/

/-- VADD: va + vb (R137). -/
def execVadd (t : TileId) (w : IWord) (s : State) : Host.Outcome State Fault Refusal := .next (veIssue t w .add s)

/-- VADD.SUB: va − vb (R137). -/
def execVaddSub (t : TileId) (w : IWord) (s : State) : Host.Outcome State Fault Refusal := .next (veIssue t w .sub s)

/-- VADD.MAX (R137). -/
def execVaddMax (t : TileId) (w : IWord) (s : State) : Host.Outcome State Fault Refusal := .next (veIssue t w .max s)

/-- VADD.MIN (R137). -/
def execVaddMin (t : TileId) (w : IWord) (s : State) : Host.Outcome State Fault Refusal := .next (veIssue t w .min s)

/-- VADD.ABS (R137). -/
def execVaddAbs (t : TileId) (w : IWord) (s : State) : Host.Outcome State Fault Refusal := .next (veIssue t w .abs s)

/-- VADD.NEG (R137). -/
def execVaddNeg (t : TileId) (w : IWord) (s : State) : Host.Outcome State Fault Refusal := .next (veIssue t w .neg s)

/-- VADD.MOV (R137). -/
def execVaddMov (t : TileId) (w : IWord) (s : State) : Host.Outcome State Fault Refusal := .next (veIssue t w .mov s)

/-- VADD.AND (R137). -/
def execVaddAnd (t : TileId) (w : IWord) (s : State) : Host.Outcome State Fault Refusal := .next (veIssue t w .band s)

/-- VADD.OR (R137). -/
def execVaddOr (t : TileId) (w : IWord) (s : State) : Host.Outcome State Fault Refusal := .next (veIssue t w .bor s)

/-- VADD.XOR (R137). -/
def execVaddXor (t : TileId) (w : IWord) (s : State) : Host.Outcome State Fault Refusal := .next (veIssue t w .bxor s)

/-- VADD.CMPEQ (R137). -/
def execVaddCmpeq (t : TileId) (w : IWord) (s : State) : Host.Outcome State Fault Refusal := .next (veIssue t w .cmpeq s)

/-- VADD.CMPLT (R137). -/
def execVaddCmplt (t : TileId) (w : IWord) (s : State) : Host.Outcome State Fault Refusal := .next (veIssue t w .cmplt s)

/-- VADD.CMPLE (R137). -/
def execVaddCmple (t : TileId) (w : IWord) (s : State) : Host.Outcome State Fault Refusal := .next (veIssue t w .cmple s)

/-- VADD.SEL (R137). -/
def execVaddSel (t : TileId) (w : IWord) (s : State) : Host.Outcome State Fault Refusal := .next (veIssue t w .sel s)

/-- VMUL: va × vb (R137). -/
def execVmul (t : TileId) (w : IWord) (s : State) : Host.Outcome State Fault Refusal := .next (veIssue t w .mul s)

/-- VMUL.RCP: 1/va (R137). -/
def execVmulRcp (t : TileId) (w : IWord) (s : State) : Host.Outcome State Fault Refusal := .next (veIssue t w .rcp s)

/-- VMUL.RSQ: 1/√va (R137). -/
def execVmulRsq (t : TileId) (w : IWord) (s : State) : Host.Outcome State Fault Refusal := .next (veIssue t w .rsq s)

/-- VMUL.EXP2: 2^va (R137). -/
def execVmulExp2 (t : TileId) (w : IWord) (s : State) : Host.Outcome State Fault Refusal := .next (veIssue t w .exp2 s)

/-- VMUL.LOG2: log₂ va (R137). -/
def execVmulLog2 (t : TileId) (w : IWord) (s : State) : Host.Outcome State Fault Refusal := .next (veIssue t w .log2 s)

/-- VFMA: va × vb + vc (R137). -/
def execVfma (t : TileId) (w : IWord) (s : State) : Host.Outcome State Fault Refusal := .next (veIssue t w .fma s)

/-- VFMA.FMS: va × vb − vc (R137). -/
def execVfmaFms (t : TileId) (w : IWord) (s : State) : Host.Outcome State Fault Refusal := .next (veIssue t w .fms s)

/-- VFMA.FNMA: −(va × vb) + vc (R137). -/
def execVfmaFnma (t : TileId) (w : IWord) (s : State) : Host.Outcome State Fault Refusal := .next (veIssue t w .fnma s)

/-- VCVT (R139). -/
def execVcvt (t : TileId) (w : IWord) (s : State) : Host.Outcome State Fault Refusal := .next (veIssue t w .cvt s)

/-- VTWOSUM (R138). -/
def execVtwosum (t : TileId) (w : IWord) (s : State) : Host.Outcome State Fault Refusal := .next (veIssue t w .twosum s)

/-- VFTWOSUM (R138). -/
def execVftwosum (t : TileId) (w : IWord) (s : State) : Host.Outcome State Fault Refusal := .next (veIssue t w .ftwosum s)

/-- VTWOPROD (R138). -/
def execVtwoprod (t : TileId) (w : IWord) (s : State) : Host.Outcome State Fault Refusal := .next (veIssue t w .twoprod s)

/-- VCPADD (R138). -/
def execVcpadd (t : TileId) (w : IWord) (s : State) : Host.Outcome State Fault Refusal := .next (veIssue t w .cpadd s)

/-- VRED: the sum of the active lanes (R138). -/
def execVred (t : TileId) (w : IWord) (s : State) : Host.Outcome State Fault Refusal := .next (veIssue t w .red s)

/-- VRED.MAX (R138). -/
def execVredMax (t : TileId) (w : IWord) (s : State) : Host.Outcome State Fault Refusal := .next (veIssue t w .redMax s)

/-- VRED.MIN (R138). -/
def execVredMin (t : TileId) (w : IWord) (s : State) : Host.Outcome State Fault Refusal := .next (veIssue t w .redMin s)

/-- VRED.OR (R138). -/
def execVredOr (t : TileId) (w : IWord) (s : State) : Host.Outcome State Fault Refusal := .next (veIssue t w .redOr s)

/-- VRED.CPSUM (R138). -/
def execVredCpsum (t : TileId) (w : IWord) (s : State) : Host.Outcome State Fault Refusal := .next (veIssue t w .redCpsum s)

/-- PSET: xs1 to pd (R136). -/
def execPset (t : TileId) (w : IWord) (s : State) : Host.Outcome State Fault Refusal := .next (veIssue t w .pset s)

/-- PGET: ps to xd (R136). -/
def execPget (t : TileId) (w : IWord) (s : State) : Host.Outcome State Fault Refusal := .next (veIssue t w .pget s)

/-- PAND (R136). -/
def execPand (t : TileId) (w : IWord) (s : State) : Host.Outcome State Fault Refusal := .next (veIssue t w .pand s)

/-- POR (R136). -/
def execPor (t : TileId) (w : IWord) (s : State) : Host.Outcome State Fault Refusal := .next (veIssue t w .por s)

/-- PNOT (R136). -/
def execPnot (t : TileId) (w : IWord) (s : State) : Host.Outcome State Fault Refusal := .next (veIssue t w .pnot s)

end Sys2Proof.Machine
end

