-- ==== Sys2Proof/Machine/Dispatch.lean ====
section
/-!
DEFINITION. One arm per command: the meaning it calls.

What the spec leaves open here: log entry 83.
-/

namespace Sys2Proof.Machine

/-- The effect of a command on everything but the queue of waiting commands. -/
def exec (i : Instr) (s : State) : Host.Outcome State Fault Refusal :=
  match i with
  | .add t w => Sys2Proof.Machine.execAdd t w s
  | .sub t w => Sys2Proof.Machine.execSub t w s
  | .and t w => Sys2Proof.Machine.execAnd t w s
  | .or t w => Sys2Proof.Machine.execOr t w s
  | .xor t w => Sys2Proof.Machine.execXor t w s
  | .sll t w => Sys2Proof.Machine.execSll t w s
  | .srl t w => Sys2Proof.Machine.execSrl t w s
  | .sra t w => Sys2Proof.Machine.execSra t w s
  | .slt t w => Sys2Proof.Machine.execSlt t w s
  | .sltu t w => Sys2Proof.Machine.execSltu t w s
  | .mul t w => Sys2Proof.Machine.execMul t w s
  | .mulhu t w => Sys2Proof.Machine.execMulhu t w s
  | .min t w => Sys2Proof.Machine.execMin t w s
  | .max t w => Sys2Proof.Machine.execMax t w s
  | .addi t w => Sys2Proof.Machine.execAddi t w s
  | .andi t w => Sys2Proof.Machine.execAndi t w s
  | .ori t w => Sys2Proof.Machine.execOri t w s
  | .xori t w => Sys2Proof.Machine.execXori t w s
  | .slli t w => Sys2Proof.Machine.execSlli t w s
  | .srli t w => Sys2Proof.Machine.execSrli t w s
  | .srai t w => Sys2Proof.Machine.execSrai t w s
  | .slti t w => Sys2Proof.Machine.execSlti t w s
  | .sltiu t w => Sys2Proof.Machine.execSltiu t w s
  | .li t w => Sys2Proof.Machine.execLi t w s
  | .lih t w => Sys2Proof.Machine.execLih t w s
  | .ldB t w => Sys2Proof.Machine.execLdB t w s
  | .ldBu t w => Sys2Proof.Machine.execLdBu t w s
  | .ldH t w => Sys2Proof.Machine.execLdH t w s
  | .ldHu t w => Sys2Proof.Machine.execLdHu t w s
  | .ldW t w => Sys2Proof.Machine.execLdW t w s
  | .ldWu t w => Sys2Proof.Machine.execLdWu t w s
  | .ldD t w => Sys2Proof.Machine.execLdD t w s
  | .ldV t w => Sys2Proof.Machine.execLdV t w s
  | .stB t w => Sys2Proof.Machine.execStB t w s
  | .stH t w => Sys2Proof.Machine.execStH t w s
  | .stW t w => Sys2Proof.Machine.execStW t w s
  | .stD t w => Sys2Proof.Machine.execStD t w s
  | .stV t w => Sys2Proof.Machine.execStV t w s
  | .scalarLdBankGrant t => Sys2Proof.Machine.execScalarLdBankGrant t s
  | .beq t w => Sys2Proof.Machine.execBeq t w s
  | .bne t w => Sys2Proof.Machine.execBne t w s
  | .blt t w => Sys2Proof.Machine.execBlt t w s
  | .bge t w => Sys2Proof.Machine.execBge t w s
  | .bltu t w => Sys2Proof.Machine.execBltu t w s
  | .bgeu t w => Sys2Proof.Machine.execBgeu t w s
  | .jal t w => Sys2Proof.Machine.execJal t w s
  | .jalr t w => Sys2Proof.Machine.execJalr t w s
  | .vadd t w => Sys2Proof.Machine.execVadd t w s
  | .vaddSub t w => Sys2Proof.Machine.execVaddSub t w s
  | .vaddMax t w => Sys2Proof.Machine.execVaddMax t w s
  | .vaddMin t w => Sys2Proof.Machine.execVaddMin t w s
  | .vaddAbs t w => Sys2Proof.Machine.execVaddAbs t w s
  | .vaddNeg t w => Sys2Proof.Machine.execVaddNeg t w s
  | .vaddMov t w => Sys2Proof.Machine.execVaddMov t w s
  | .vaddAnd t w => Sys2Proof.Machine.execVaddAnd t w s
  | .vaddOr t w => Sys2Proof.Machine.execVaddOr t w s
  | .vaddXor t w => Sys2Proof.Machine.execVaddXor t w s
  | .vaddCmpeq t w => Sys2Proof.Machine.execVaddCmpeq t w s
  | .vaddCmplt t w => Sys2Proof.Machine.execVaddCmplt t w s
  | .vaddCmple t w => Sys2Proof.Machine.execVaddCmple t w s
  | .vaddSel t w => Sys2Proof.Machine.execVaddSel t w s
  | .vmul t w => Sys2Proof.Machine.execVmul t w s
  | .vmulRcp t w => Sys2Proof.Machine.execVmulRcp t w s
  | .vmulRsq t w => Sys2Proof.Machine.execVmulRsq t w s
  | .vmulExp2 t w => Sys2Proof.Machine.execVmulExp2 t w s
  | .vmulLog2 t w => Sys2Proof.Machine.execVmulLog2 t w s
  | .vfma t w => Sys2Proof.Machine.execVfma t w s
  | .vfmaFms t w => Sys2Proof.Machine.execVfmaFms t w s
  | .vfmaFnma t w => Sys2Proof.Machine.execVfmaFnma t w s
  | .vcvt t w => Sys2Proof.Machine.execVcvt t w s
  | .vtwosum t w => Sys2Proof.Machine.execVtwosum t w s
  | .vftwosum t w => Sys2Proof.Machine.execVftwosum t w s
  | .vtwoprod t w => Sys2Proof.Machine.execVtwoprod t w s
  | .vcpadd t w => Sys2Proof.Machine.execVcpadd t w s
  | .vred t w => Sys2Proof.Machine.execVred t w s
  | .vredMax t w => Sys2Proof.Machine.execVredMax t w s
  | .vredMin t w => Sys2Proof.Machine.execVredMin t w s
  | .vredOr t w => Sys2Proof.Machine.execVredOr t w s
  | .vredCpsum t w => Sys2Proof.Machine.execVredCpsum t w s
  | .pset t w => Sys2Proof.Machine.execPset t w s
  | .pget t w => Sys2Proof.Machine.execPget t w s
  | .pand t w => Sys2Proof.Machine.execPand t w s
  | .por t w => Sys2Proof.Machine.execPor t w s
  | .pnot t w => Sys2Proof.Machine.execPnot t w s
  | .veEntryExecute t => Sys2Proof.Machine.execVeEntryExecute t s
  | .scratchpadBankGrant t bank reqs => Sys2Proof.Machine.execScratchpadBankGrant t bank reqs s
  | .scrubTick t busy => Sys2Proof.Machine.execScrubTick t busy s
  | .tmul t w => Sys2Proof.Machine.execTmul t w s
  | .tmuls t w => Sys2Proof.Machine.execTmuls t w s
  | .tzero t w => Sys2Proof.Machine.execTzero t w s
  | .tstore t w => Sys2Proof.Machine.execTstore t w s
  | .tdset t w => Sys2Proof.Machine.execTdset t w s
  | .tdget t w => Sys2Proof.Machine.execTdget t w s
  | .startTokenGrant d => Sys2Proof.Machine.execStartTokenGrant d s
  | .startTokenRelease t => Sys2Proof.Machine.execStartTokenRelease t s
  | .teOccupancyStart t => Sys2Proof.Machine.execTeOccupancyStart t s
  | .teCompletion t => Sys2Proof.Machine.execTeCompletion t s
  | .shmv t w => Sys2Proof.Machine.execShmv t w s
  | .shgather t w => Sys2Proof.Machine.execShgather t w s
  | .shscatter t w => Sys2Proof.Machine.execShscatter t w s
  | .shunterDescriptorStart t q => Sys2Proof.Machine.execShunterDescriptorStart t q s
  | .shunterChunkTurn t => Sys2Proof.Machine.execShunterChunkTurn t s
  | .mergeWindowExpiry t => Sys2Proof.Machine.execMergeWindowExpiry t s
  | .shunterDescriptorComplete t q => Sys2Proof.Machine.execShunterDescriptorComplete t q s
  | .nsend t w => Sys2Proof.Machine.execNsend t w s
  | .nput t w => Sys2Proof.Machine.execNput t w s
  | .nget t w => Sys2Proof.Machine.execNget t w s
  | .ntrig t w => Sys2Proof.Machine.execNtrig t w s
  | .nwait t w => Sys2Proof.Machine.execNwait t w s
  | .nwaitMet t => Sys2Proof.Machine.execNwaitMet t s
  | .ncoll t w => Sys2Proof.Machine.execNcoll t w s
  | .niOperationStart t => Sys2Proof.Machine.execNiOperationStart t s
  | .niOperationComplete t tag => Sys2Proof.Machine.execNiOperationComplete t tag s
  | .nop t w => Sys2Proof.Machine.execNop t w s
  | .endCtx t w => Sys2Proof.Machine.execEndCtx t w s
  | .ctxsw t w => Sys2Proof.Machine.execCtxsw t w s
  | .ctxyield t w => Sys2Proof.Machine.execCtxyield t w s
  | .fence t w => Sys2Proof.Machine.execFence t w s
  | .qwait t w => Sys2Proof.Machine.execQwait t w s
  | .queueWaitMet t => Sys2Proof.Machine.execQueueWaitMet t s
  | .flrd t w => Sys2Proof.Machine.execFlrd t w s
  | .flclr t w => Sys2Proof.Machine.execFlclr t w s
  | .epwait t w => Sys2Proof.Machine.execEpwait t w s
  | .epwaitMet t => Sys2Proof.Machine.execEpwaitMet t s
  | .srd t w => Sys2Proof.Machine.execSrd t w s
  | .brk t w => Sys2Proof.Machine.execBrk t w s
  | .t1Entry t => Sys2Proof.Machine.execT1Entry t s
  | .tileWatchdogExpiry t => Sys2Proof.Machine.execTileWatchdogExpiry t s
  | .write p => Sys2Proof.Machine.execWrite p s
  | .readReq p => Sys2Proof.Machine.execReadReq p s
  | .readResp p => Sys2Proof.Machine.execReadResp p s
  | .ack p => Sys2Proof.Machine.execAck p s
  | .nak p => Sys2Proof.Machine.execNak p s
  | .readReqResend t tag => Sys2Proof.Machine.execReadReqResend t tag s
  | .cntInc p => Sys2Proof.Machine.execCntInc p s
  | .packetRoute t inPort p => Sys2Proof.Machine.execPacketRoute t inPort p s
  | .creditReturn t plane port ch fromShared => Sys2Proof.Machine.execCreditReturn t plane port ch fromShared s
  | .flitCrcError t plane => Sys2Proof.Machine.execFlitCrcError t plane s
  | .linkRetrain t plane edge failing => Sys2Proof.Machine.execLinkRetrain t plane edge failing s
  | .routerFailure t plane => Sys2Proof.Machine.execRouterFailure t plane s
  | .dieBlockAccess p => Sys2Proof.Machine.execDieBlockAccess p s
  | .rdOpen t inPort p => Sys2Proof.Machine.execRdOpen t inPort p s
  | .rdOpenSlotGrant t plane => Sys2Proof.Machine.execRdOpenSlotGrant t plane s
  | .prWaitExpiry t plane => Sys2Proof.Machine.execPrWaitExpiry t plane s
  | .rdData t inPort p => Sys2Proof.Machine.execRdData t inPort p s
  | .prIdleFlush t plane slot => Sys2Proof.Machine.execPrIdleFlush t plane slot s
  | .rootRecordGrant t => Sys2Proof.Machine.execRootRecordGrant t s
  | .bcGrant p => Sys2Proof.Machine.execBcGrant p s
  | .mcastWaitExpiry t collId => Sys2Proof.Machine.execMcastWaitExpiry t collId s
  | .bcData t p => Sys2Proof.Machine.execBcData t p s
  | .landingRecordGrant t plane => Sys2Proof.Machine.execLandingRecordGrant t plane s
  | .epArm u part id kind step => Sys2Proof.Machine.execEpArm u part id kind step s
  | .epReady part => Sys2Proof.Machine.execEpReady part s
  | .epochReadyDeadline part => Sys2Proof.Machine.execEpochReadyDeadline part s
  | .epCommit u part id at_ => Sys2Proof.Machine.execEpCommit u part id at_ s
  | .epAbort u part id => Sys2Proof.Machine.execEpAbort u part id s
  | .epochMissRevert u part => Sys2Proof.Machine.execEpochMissRevert u part s
  | .stepCommit part => Sys2Proof.Machine.execStepCommit part s
  | .stepSkip part => Sys2Proof.Machine.execStepSkip part s
  | .gateOpen part => Sys2Proof.Machine.execGateOpen part s
  | .startEpoch part => Sys2Proof.Machine.execStartEpoch part s
  | .endEpoch part => Sys2Proof.Machine.execEndEpoch part s
  | .invocationEndDetect part => Sys2Proof.Machine.execInvocationEndDetect part s
  | .routeGen generation => Sys2Proof.Machine.execRouteGen generation s
  | .routeGenerationUnlock generation => Sys2Proof.Machine.execRouteGenerationUnlock generation s
  | .plane upEn dnEn => Sys2Proof.Machine.execPlane upEn dnEn s
  | .stepAbort part => Sys2Proof.Machine.execStepAbort part s
  | .abortQuietPoll part => Sys2Proof.Machine.execAbortQuietPoll part s
  | .report n part id what count detail => Sys2Proof.Machine.execReport n part id what count detail s
  | .redOr n part source bits => Sys2Proof.Machine.execRedOr n part source bits s
  | .redCpsum n part source hi lo => Sys2Proof.Machine.execRedCpsum n part source hi lo s
  | .redResult n part bits hi lo => Sys2Proof.Machine.execRedResult n part bits hi lo s
  | .tsyncTick => Sys2Proof.Machine.execTsyncTick s
  | .tsync d rootTime => Sys2Proof.Machine.execTsync d rootTime s
  | .echo d edge roundTrip turnaround => Sys2Proof.Machine.execEcho d edge roundTrip turnaround s
  | .discover n inPort prio station hops => Sys2Proof.Machine.execDiscover n inPort prio station hops s
  | .treeQuietTimer n => Sys2Proof.Machine.execTreeQuietTimer n s
  | .signalParityError at_ w => Sys2Proof.Machine.execSignalParityError at_ w s
  | .trig way counter inc => Sys2Proof.Machine.execTrig way counter inc s
  | .censusReq d page seq => Sys2Proof.Machine.execCensusReq d page seq s
  | .censusData d page seq data => Sys2Proof.Machine.execCensusData d page seq data s
  | .powerGear d clusters arg at_ => Sys2Proof.Machine.execPowerGear d clusters arg at_ s
  | .powerCstate d clusters arg at_ => Sys2Proof.Machine.execPowerCstate d clusters arg at_ s
  | .powerRegion d arg at_ => Sys2Proof.Machine.execPowerRegion d arg at_ s
  | .powerGearmax d clusters arg at_ => Sys2Proof.Machine.execPowerGearmax d clusters arg at_ s
  | .powerLoss => Sys2Proof.Machine.execPowerLoss s
  | .censusSweepStart => Sys2Proof.Machine.execCensusSweepStart s
  | .censusChainPhase broken silent => Sys2Proof.Machine.execCensusChainPhase broken silent s
  | .censusPublish => Sys2Proof.Machine.execCensusPublish s
  | .peatReadReq p => Sys2Proof.Machine.execPeatReadReq p s
  | .flashReadComplete stn page retries decoded => Sys2Proof.Machine.execFlashReadComplete stn page retries decoded s
  | .peatWrite p => Sys2Proof.Machine.execPeatWrite p s
  | .programFail stn extent channel => Sys2Proof.Machine.execProgramFail stn extent channel s
  | .nandDieFail stn channel nand => Sys2Proof.Machine.execNandDieFail stn channel nand s
  | .rebuildExtent stn extent => Sys2Proof.Machine.execRebuildExtent stn extent s
  | .outletRdOpen stn p => Sys2Proof.Machine.execOutletRdOpen stn p s
  | .outletFold stn entry block => Sys2Proof.Machine.execOutletFold stn entry block s
  | .updateBlock stn part block => Sys2Proof.Machine.execUpdateBlock stn part block s
  | .updateComplete stn part => Sys2Proof.Machine.execUpdateComplete stn part s
  | .resSaved stn part => Sys2Proof.Machine.execResSaved stn part s
  | .hostMemoryRead port p result => Sys2Proof.Machine.execHostMemoryRead port p result s
  | .hostMemoryWrite port p => Sys2Proof.Machine.execHostMemoryWrite port p s
  | .nopCmd c => Sys2Proof.Machine.execNopCmd c s
  | .identify c => Sys2Proof.Machine.execIdentify c s
  | .partCreate c => Sys2Proof.Machine.execPartCreate c s
  | .partDestroy c => Sys2Proof.Machine.execPartDestroy c s
  | .partSet c => Sys2Proof.Machine.execPartSet c s
  | .nsCreate c => Sys2Proof.Machine.execNsCreate c s
  | .nsDelete c => Sys2Proof.Machine.execNsDelete c s
  | .consistLoad l => Sys2Proof.Machine.execConsistLoad l s
  | .invoke c => Sys2Proof.Machine.execInvoke c s
  | .abort c => Sys2Proof.Machine.execAbort c s
  | .copy k => Sys2Proof.Machine.execCopy k s
  | .routeCommit c => Sys2Proof.Machine.execRouteCommit c s
  | .eventWait c => Sys2Proof.Machine.execEventWait c s
  | .fenceDie c => Sys2Proof.Machine.execFenceDie c s
  | .sqTailDoorbell port q value => Sys2Proof.Machine.execSqTailDoorbell port q value s
  | .cqHeadDoorbell port q value => Sys2Proof.Machine.execCqHeadDoorbell port q value s
  | .queueEnable port q value => Sys2Proof.Machine.execQueueEnable port q value s
  | .commandFetch port readOk => Sys2Proof.Machine.execCommandFetch port readOk s
  | .completionWrite port q => Sys2Proof.Machine.execCompletionWrite port q s
  | .bar2Read port offset len => Sys2Proof.Machine.execBar2Read port offset len s
  | .bar2Write port offset data => Sys2Proof.Machine.execBar2Write port offset data s
  | .clusterRegisterReadC2 d cluster offset => Sys2Proof.Machine.execClusterRegisterReadC2 d cluster offset s
  | .clusterWake d cluster => Sys2Proof.Machine.execClusterWake d cluster s
  | .c2Entry d cluster => Sys2Proof.Machine.execC2Entry d cluster s
  | .give port dst => Sys2Proof.Machine.execGive port dst s
  | .partWdogWrite port value => Sys2Proof.Machine.execPartWdogWrite port value s
  | .snap t => Sys2Proof.Machine.execSnap t s
  | .clr t => Sys2Proof.Machine.execClr t s
  | .rngSeedWrite t value => Sys2Proof.Machine.execRngSeedWrite t value s
  | .tileKeepWrite t n value => Sys2Proof.Machine.execTileKeepWrite t n value s
  | .instructionStoreWrite t index value => Sys2Proof.Machine.execInstructionStoreWrite t index value s
  | .triggerEntryWrite t entry word value => Sys2Proof.Machine.execTriggerEntryWrite t entry word value s
  | .routeTableWrite d generation plane word value => Sys2Proof.Machine.execRouteTableWrite d generation plane word value s
  | .mpwrCapWrite port value => Sys2Proof.Machine.execMpwrCapWrite port value s
  | .mereReslimWrite port value => Sys2Proof.Machine.execMereReslimWrite port value s
  | .rlKey3Write port value => Sys2Proof.Machine.execRlKey3Write port value s
  | .nodeIdWrite port value draw => Sys2Proof.Machine.execNodeIdWrite port value draw s
  | .rcCounterRead r => Sys2Proof.Machine.execRcCounterRead r s
  | .registerWrite r value => Sys2Proof.Machine.execRegisterWrite r value s
  | .perst port level => Sys2Proof.Machine.execPerst port level s
  | .linkUp port rate width flit => Sys2Proof.Machine.execLinkUp port rate width flit s
  | .functionLevelReset port => Sys2Proof.Machine.execFunctionLevelReset port s
  | .modReset lowNs => Sys2Proof.Machine.execModReset lowNs s
  | .tileReset t => Sys2Proof.Machine.execTileReset t s
  | .clusterReset d cluster => Sys2Proof.Machine.execClusterReset d cluster s
  | .dieLogicReset d => Sys2Proof.Machine.execDieLogicReset d s
  | .partitionReset part => Sys2Proof.Machine.execPartitionReset part s
  | .scopeDrainEnd d => Sys2Proof.Machine.execScopeDrainEnd d s
  | .tileFence t reason => Sys2Proof.Machine.execTileFence t reason s
  | .dieFence d reason => Sys2Proof.Machine.execDieFence d reason s
  | .lampTrip => Sys2Proof.Machine.execLampTrip s
  | .epochRollforward => Sys2Proof.Machine.execEpochRollforward s
  | .powerLossFlush stn => Sys2Proof.Machine.execPowerLossFlush stn s
  | .flushClose flushUs => Sys2Proof.Machine.execFlushClose flushUs s
  | .inputReturnWake => Sys2Proof.Machine.execInputReturnWake s
  | .feedOutOfRange feedB decivolts => Sys2Proof.Machine.execFeedOutOfRange feedB decivolts s
  | .feedReturn feedB decivolts => Sys2Proof.Machine.execFeedReturn feedB decivolts s
  | .feedOvercurrent feedB amps => Sys2Proof.Machine.execFeedOvercurrent feedB amps s
  | .busConverterFail converter => Sys2Proof.Machine.execBusConverterFail converter s
  | .phaseFault d phase reason => Sys2Proof.Machine.execPhaseFault d phase reason s
  | .ilimHit d => Sys2Proof.Machine.execIlimHit d s
  | .clusterMarginLoop d cluster margin => Sys2Proof.Machine.execClusterMarginLoop d cluster margin s
  | .dieRegulatorLoop d dropout => Sys2Proof.Machine.execDieRegulatorLoop d dropout s
  | .droop d cluster periods => Sys2Proof.Machine.execDroop d cluster periods s
  | .gearRaiseSwitch d cluster margin => Sys2Proof.Machine.execGearRaiseSwitch d cluster margin s
  | .governorTick pDie pOutside demand => Sys2Proof.Machine.execGovernorTick pDie pOutside demand s
  | .thermalSample d sensors clusters => Sys2Proof.Machine.execThermalSample d sensors clusters s
  | .coolantSample tIn flow => Sys2Proof.Machine.execCoolantSample tIn flow s
  | .coolantShutdown => Sys2Proof.Machine.execCoolantShutdown s
  | .timetableAction delay pOutside => Sys2Proof.Machine.execTimetableAction delay pOutside s
  | .regionStart => Sys2Proof.Machine.execRegionStart s
  | .regionRampTimeout d => Sys2Proof.Machine.execRegionRampTimeout d s
  | .pllLockLoss d => Sys2Proof.Machine.execPllLockLoss d s
  | .oscillatorSwitch => Sys2Proof.Machine.execOscillatorSwitch s
  | .mereDischargeDone => Sys2Proof.Machine.execMereDischargeDone s
  | .mereMeasurement chargeMs => Sys2Proof.Machine.execMereMeasurement chargeMs s
  | .mereEstimateTick decivolts microcoulombs => Sys2Proof.Machine.execMereEstimateTick decivolts microcoulombs s
  | .fuseRead badCrc => Sys2Proof.Machine.execFuseRead badCrc s
  | .laneRepair d edge plane failing => Sys2Proof.Machine.execLaneRepair d edge plane failing s
  | .peatBringup b => Sys2Proof.Machine.execPeatBringup b s
  | .topologyCheck silent => Sys2Proof.Machine.execTopologyCheck silent s
  | .firmwareLoad copyOk version => Sys2Proof.Machine.execFirmwareLoad copyOk version s
  | .selftest tileFails dieFails => Sys2Proof.Machine.execSelftest tileFails dieFails s
  | .s4Takeover w => Sys2Proof.Machine.execS4Takeover w s
  | .ledgerHourly d => Sys2Proof.Machine.execLedgerHourly d s
  | .ledgerDayBoundary => Sys2Proof.Machine.execLedgerDayBoundary s
  | .identGet src msg => Sys2Proof.Machine.execIdentGet src msg s
  | .censusGet src msg => Sys2Proof.Machine.execCensusGet src msg s
  | .ledgerGet src msg => Sys2Proof.Machine.execLedgerGet src msg s
  | .alarmAck src msg => Sys2Proof.Machine.execAlarmAck src msg s
  | .alarmRepeat ctr => Sys2Proof.Machine.execAlarmRepeat ctr s
  | .expect src msg => Sys2Proof.Machine.execExpect src msg s
  | .standby src msg => Sys2Proof.Machine.execStandby src msg s
  | .wake src msg => Sys2Proof.Machine.execWake src msg s
  | .off src msg => Sys2Proof.Machine.execOff src msg s
  | .admin src msg => Sys2Proof.Machine.execAdmin src msg s
  | .release src msg => Sys2Proof.Machine.execRelease src msg s
  | .setPort src msg => Sys2Proof.Machine.execSetPort src msg s
  | .unknownSourceFrame src => Sys2Proof.Machine.execUnknownSourceFrame src s
  | .neighbourSolicitation src => Sys2Proof.Machine.execNeighbourSolicitation src s
  | .beacon own => Sys2Proof.Machine.execBeacon own s
  | .beaconMiss => Sys2Proof.Machine.execBeaconMiss s
  | .coordinatorListenExpiry => Sys2Proof.Machine.execCoordinatorListenExpiry s
  | .mchain dr => Sys2Proof.Machine.execMchain dr s
  | .powerApplied decivoltsA decivoltsB => Sys2Proof.Machine.execPowerApplied decivoltsA decivoltsB s
  | .portLinkDown port => Sys2Proof.Machine.execPortLinkDown port s
  | .d3hot port d3 pmeEn => Sys2Proof.Machine.execD3hot port d3 pmeEn s
  | .crossingAllowance => Sys2Proof.Machine.execCrossingAllowance s
  | .mereFullCharge => Sys2Proof.Machine.execMereFullCharge s
  | .fcsErr => Sys2Proof.Machine.execFcsErr s
  | .reedlineFormat src msg => Sys2Proof.Machine.execReedlineFormat src msg s
  | .ipv6Echo src payload => Sys2Proof.Machine.execIpv6Echo src payload s
  | .tapInstruction tms tdi trst => Sys2Proof.Machine.execTapInstruction tms tdi trst s

end Sys2Proof.Machine
end

