-- ==== Sys2Proof/Machine/Ramyr.lean ====
section
/-!
DEFINITION. The encoding of Ramyr instructions (R121, R131, Tables 5.1 and 5.4): the word of an instruction, and the instruction of a word.
Must-be-zero fields and EXT bits are checked where the instruction issues (R122).

What the spec leaves open here: log entry 17.
-/

namespace Sys2Proof.Machine

/-- The word of a major opcode, a function and the fields below them (R121). -/
def packWord (maj fn : BitVec 6) (w : IWord) : Word := (maj ++ fn ++ w.d ++ w.a ++ w.b ++ w.c ++ w.ext : BitVec 64)

/-- MAJ [63:58]. -/
def majOf (w : Word) : BitVec 6 := w.extractLsb' 58 6

/-- FN [57:52]. -/
def fnOf (w : Word) : BitVec 6 := w.extractLsb' 52 6

/-- The fields D, A, B, C and [31:0] of a word. -/
def fieldsOf (w : Word) : IWord :=
  ⟨w.extractLsb' 47 5, w.extractLsb' 42 5, w.extractLsb' 37 5, w.extractLsb' 32 5, w.extractLsb' 0 32⟩

/-- The instruction of a MAJ and FN (Table 5.4); every other pair is reserved. -/
def rowOf (t : TileId) (w : IWord) : Nat → Nat → Option Instr
  | 0x01, 0x00 => some (.add t w)
  | 0x01, 0x01 => some (.sub t w)
  | 0x01, 0x02 => some (.and t w)
  | 0x01, 0x03 => some (.or t w)
  | 0x01, 0x04 => some (.xor t w)
  | 0x01, 0x05 => some (.sll t w)
  | 0x01, 0x06 => some (.srl t w)
  | 0x01, 0x07 => some (.sra t w)
  | 0x01, 0x08 => some (.slt t w)
  | 0x01, 0x09 => some (.sltu t w)
  | 0x01, 0x0A => some (.mul t w)
  | 0x01, 0x0B => some (.mulhu t w)
  | 0x01, 0x0C => some (.min t w)
  | 0x01, 0x0D => some (.max t w)
  | 0x02, 0x00 => some (.addi t w)
  | 0x02, 0x02 => some (.andi t w)
  | 0x02, 0x03 => some (.ori t w)
  | 0x02, 0x04 => some (.xori t w)
  | 0x02, 0x05 => some (.slli t w)
  | 0x02, 0x06 => some (.srli t w)
  | 0x02, 0x07 => some (.srai t w)
  | 0x02, 0x08 => some (.slti t w)
  | 0x02, 0x09 => some (.sltiu t w)
  | 0x03, 0x00 => some (.li t w)
  | 0x03, 0x01 => some (.lih t w)
  | 0x04, 0x00 => some (.ldB t w)
  | 0x04, 0x01 => some (.ldBu t w)
  | 0x04, 0x02 => some (.ldH t w)
  | 0x04, 0x03 => some (.ldHu t w)
  | 0x04, 0x04 => some (.ldW t w)
  | 0x04, 0x05 => some (.ldWu t w)
  | 0x04, 0x06 => some (.ldD t w)
  | 0x04, 0x08 => some (.ldV t w)
  | 0x05, 0x00 => some (.stB t w)
  | 0x05, 0x02 => some (.stH t w)
  | 0x05, 0x04 => some (.stW t w)
  | 0x05, 0x06 => some (.stD t w)
  | 0x05, 0x08 => some (.stV t w)
  | 0x08, 0x00 => some (.beq t w)
  | 0x08, 0x01 => some (.bne t w)
  | 0x08, 0x04 => some (.blt t w)
  | 0x08, 0x05 => some (.bge t w)
  | 0x08, 0x06 => some (.bltu t w)
  | 0x08, 0x07 => some (.bgeu t w)
  | 0x09, 0x00 => some (.jal t w)
  | 0x0A, 0x00 => some (.jalr t w)
  | 0x10, 0x00 => some (.vadd t w)
  | 0x10, 0x01 => some (.vaddSub t w)
  | 0x10, 0x02 => some (.vaddMax t w)
  | 0x10, 0x03 => some (.vaddMin t w)
  | 0x10, 0x04 => some (.vaddAbs t w)
  | 0x10, 0x05 => some (.vaddNeg t w)
  | 0x10, 0x06 => some (.vaddMov t w)
  | 0x10, 0x08 => some (.vaddAnd t w)
  | 0x10, 0x09 => some (.vaddOr t w)
  | 0x10, 0x0A => some (.vaddXor t w)
  | 0x10, 0x0C => some (.vaddCmpeq t w)
  | 0x10, 0x0D => some (.vaddCmplt t w)
  | 0x10, 0x0E => some (.vaddCmple t w)
  | 0x10, 0x0F => some (.vaddSel t w)
  | 0x11, 0x00 => some (.vmul t w)
  | 0x11, 0x01 => some (.vmulRcp t w)
  | 0x11, 0x02 => some (.vmulRsq t w)
  | 0x11, 0x03 => some (.vmulExp2 t w)
  | 0x11, 0x04 => some (.vmulLog2 t w)
  | 0x12, 0x00 => some (.vfma t w)
  | 0x12, 0x01 => some (.vfmaFms t w)
  | 0x12, 0x02 => some (.vfmaFnma t w)
  | 0x13, 0x00 => some (.vcvt t w)
  | 0x14, 0x00 => some (.vtwosum t w)
  | 0x14, 0x01 => some (.vftwosum t w)
  | 0x14, 0x02 => some (.vtwoprod t w)
  | 0x14, 0x03 => some (.vcpadd t w)
  | 0x15, 0x00 => some (.vred t w)
  | 0x15, 0x01 => some (.vredMax t w)
  | 0x15, 0x02 => some (.vredMin t w)
  | 0x15, 0x03 => some (.vredOr t w)
  | 0x15, 0x04 => some (.vredCpsum t w)
  | 0x16, 0x00 => some (.pset t w)
  | 0x16, 0x01 => some (.pget t w)
  | 0x16, 0x02 => some (.pand t w)
  | 0x16, 0x03 => some (.por t w)
  | 0x16, 0x04 => some (.pnot t w)
  | 0x18, 0x00 => some (.tmul t w)
  | 0x18, 0x01 => some (.tmuls t w)
  | 0x18, 0x02 => some (.tzero t w)
  | 0x18, 0x03 => some (.tstore t w)
  | 0x19, 0x00 => some (.tdset t w)
  | 0x19, 0x01 => some (.tdget t w)
  | 0x1C, 0x00 => some (.shmv t w)
  | 0x1C, 0x01 => some (.shgather t w)
  | 0x1C, 0x02 => some (.shscatter t w)
  | 0x20, 0x00 => some (.nsend t w)
  | 0x20, 0x01 => some (.nput t w)
  | 0x20, 0x02 => some (.nget t w)
  | 0x20, 0x03 => some (.ntrig t w)
  | 0x20, 0x04 => some (.nwait t w)
  | 0x20, 0x05 => some (.ncoll t w)
  | 0x30, 0x00 => some (.nop t w)
  | 0x30, 0x01 => some (.endCtx t w)
  | 0x30, 0x02 => some (.ctxsw t w)
  | 0x30, 0x03 => some (.ctxyield t w)
  | 0x30, 0x04 => some (.fence t w)
  | 0x30, 0x05 => some (.qwait t w)
  | 0x30, 0x06 => some (.flrd t w)
  | 0x30, 0x07 => some (.flclr t w)
  | 0x30, 0x08 => some (.epwait t w)
  | 0x30, 0x09 => some (.srd t w)
  | 0x30, 0x0A => some (.brk t w)
  | _, _ => none

/-- MAJ, FN, tile and fields of an instruction; none of a command that no instruction word stands for. -/
def partsOf : Instr → Option (Nat × Nat × TileId × IWord)
  | .add t w => some (0x01, 0x00, t, w)
  | .sub t w => some (0x01, 0x01, t, w)
  | .and t w => some (0x01, 0x02, t, w)
  | .or t w => some (0x01, 0x03, t, w)
  | .xor t w => some (0x01, 0x04, t, w)
  | .sll t w => some (0x01, 0x05, t, w)
  | .srl t w => some (0x01, 0x06, t, w)
  | .sra t w => some (0x01, 0x07, t, w)
  | .slt t w => some (0x01, 0x08, t, w)
  | .sltu t w => some (0x01, 0x09, t, w)
  | .mul t w => some (0x01, 0x0A, t, w)
  | .mulhu t w => some (0x01, 0x0B, t, w)
  | .min t w => some (0x01, 0x0C, t, w)
  | .max t w => some (0x01, 0x0D, t, w)
  | .addi t w => some (0x02, 0x00, t, w)
  | .andi t w => some (0x02, 0x02, t, w)
  | .ori t w => some (0x02, 0x03, t, w)
  | .xori t w => some (0x02, 0x04, t, w)
  | .slli t w => some (0x02, 0x05, t, w)
  | .srli t w => some (0x02, 0x06, t, w)
  | .srai t w => some (0x02, 0x07, t, w)
  | .slti t w => some (0x02, 0x08, t, w)
  | .sltiu t w => some (0x02, 0x09, t, w)
  | .li t w => some (0x03, 0x00, t, w)
  | .lih t w => some (0x03, 0x01, t, w)
  | .ldB t w => some (0x04, 0x00, t, w)
  | .ldBu t w => some (0x04, 0x01, t, w)
  | .ldH t w => some (0x04, 0x02, t, w)
  | .ldHu t w => some (0x04, 0x03, t, w)
  | .ldW t w => some (0x04, 0x04, t, w)
  | .ldWu t w => some (0x04, 0x05, t, w)
  | .ldD t w => some (0x04, 0x06, t, w)
  | .ldV t w => some (0x04, 0x08, t, w)
  | .stB t w => some (0x05, 0x00, t, w)
  | .stH t w => some (0x05, 0x02, t, w)
  | .stW t w => some (0x05, 0x04, t, w)
  | .stD t w => some (0x05, 0x06, t, w)
  | .stV t w => some (0x05, 0x08, t, w)
  | .beq t w => some (0x08, 0x00, t, w)
  | .bne t w => some (0x08, 0x01, t, w)
  | .blt t w => some (0x08, 0x04, t, w)
  | .bge t w => some (0x08, 0x05, t, w)
  | .bltu t w => some (0x08, 0x06, t, w)
  | .bgeu t w => some (0x08, 0x07, t, w)
  | .jal t w => some (0x09, 0x00, t, w)
  | .jalr t w => some (0x0A, 0x00, t, w)
  | .vadd t w => some (0x10, 0x00, t, w)
  | .vaddSub t w => some (0x10, 0x01, t, w)
  | .vaddMax t w => some (0x10, 0x02, t, w)
  | .vaddMin t w => some (0x10, 0x03, t, w)
  | .vaddAbs t w => some (0x10, 0x04, t, w)
  | .vaddNeg t w => some (0x10, 0x05, t, w)
  | .vaddMov t w => some (0x10, 0x06, t, w)
  | .vaddAnd t w => some (0x10, 0x08, t, w)
  | .vaddOr t w => some (0x10, 0x09, t, w)
  | .vaddXor t w => some (0x10, 0x0A, t, w)
  | .vaddCmpeq t w => some (0x10, 0x0C, t, w)
  | .vaddCmplt t w => some (0x10, 0x0D, t, w)
  | .vaddCmple t w => some (0x10, 0x0E, t, w)
  | .vaddSel t w => some (0x10, 0x0F, t, w)
  | .vmul t w => some (0x11, 0x00, t, w)
  | .vmulRcp t w => some (0x11, 0x01, t, w)
  | .vmulRsq t w => some (0x11, 0x02, t, w)
  | .vmulExp2 t w => some (0x11, 0x03, t, w)
  | .vmulLog2 t w => some (0x11, 0x04, t, w)
  | .vfma t w => some (0x12, 0x00, t, w)
  | .vfmaFms t w => some (0x12, 0x01, t, w)
  | .vfmaFnma t w => some (0x12, 0x02, t, w)
  | .vcvt t w => some (0x13, 0x00, t, w)
  | .vtwosum t w => some (0x14, 0x00, t, w)
  | .vftwosum t w => some (0x14, 0x01, t, w)
  | .vtwoprod t w => some (0x14, 0x02, t, w)
  | .vcpadd t w => some (0x14, 0x03, t, w)
  | .vred t w => some (0x15, 0x00, t, w)
  | .vredMax t w => some (0x15, 0x01, t, w)
  | .vredMin t w => some (0x15, 0x02, t, w)
  | .vredOr t w => some (0x15, 0x03, t, w)
  | .vredCpsum t w => some (0x15, 0x04, t, w)
  | .pset t w => some (0x16, 0x00, t, w)
  | .pget t w => some (0x16, 0x01, t, w)
  | .pand t w => some (0x16, 0x02, t, w)
  | .por t w => some (0x16, 0x03, t, w)
  | .pnot t w => some (0x16, 0x04, t, w)
  | .tmul t w => some (0x18, 0x00, t, w)
  | .tmuls t w => some (0x18, 0x01, t, w)
  | .tzero t w => some (0x18, 0x02, t, w)
  | .tstore t w => some (0x18, 0x03, t, w)
  | .tdset t w => some (0x19, 0x00, t, w)
  | .tdget t w => some (0x19, 0x01, t, w)
  | .shmv t w => some (0x1C, 0x00, t, w)
  | .shgather t w => some (0x1C, 0x01, t, w)
  | .shscatter t w => some (0x1C, 0x02, t, w)
  | .nsend t w => some (0x20, 0x00, t, w)
  | .nput t w => some (0x20, 0x01, t, w)
  | .nget t w => some (0x20, 0x02, t, w)
  | .ntrig t w => some (0x20, 0x03, t, w)
  | .nwait t w => some (0x20, 0x04, t, w)
  | .ncoll t w => some (0x20, 0x05, t, w)
  | .nop t w => some (0x30, 0x00, t, w)
  | .endCtx t w => some (0x30, 0x01, t, w)
  | .ctxsw t w => some (0x30, 0x02, t, w)
  | .ctxyield t w => some (0x30, 0x03, t, w)
  | .fence t w => some (0x30, 0x04, t, w)
  | .qwait t w => some (0x30, 0x05, t, w)
  | .flrd t w => some (0x30, 0x06, t, w)
  | .flclr t w => some (0x30, 0x07, t, w)
  | .epwait t w => some (0x30, 0x08, t, w)
  | .srd t w => some (0x30, 0x09, t, w)
  | .brk t w => some (0x30, 0x0A, t, w)
  | _ => none

/-- The instruction that a tile's core reads in a word; none for a word whose MAJ or FN is reserved, which faults ILLEGAL (R122). -/
def decodeWord (t : TileId) (w : Word) : Option Instr := rowOf t (fieldsOf w) (majOf w).toNat (fnOf w).toNat

/-- The word of an instruction. -/
def encodeWord (i : Instr) : Option Word :=
  (partsOf i).map (fun p => packWord (BitVec.ofNat 6 p.1) (BitVec.ofNat 6 p.2.1) p.2.2.2)

/-- The tile that issues an instruction. -/
def tileOfWord (i : Instr) : Option TileId := (partsOf i).map (fun p => p.2.2.1)

end Sys2Proof.Machine
end

