-- ==== Sys2Proof/Safety.lean ====
section
/-!
DEFINITION. The terms the statements use: when an instruction or a frame comes to its effect, what a command leaves alone, and the
invariants of the module's data.
-/

namespace Sys2Proof.Machine

/-! ### When the core issues -/

/-- The core of a tile issues the instruction at its index: its selected context runs and nothing holds it back, the index lies in the
context's 64 KiB, the word there has no error, and no register named is still to be written (R44, R126 to R129). -/
def issues (s : State) (t : TileId) (regs : List (BitVec 5)) : Bool :=
  canIssue s t && decide (0 ≤ (selCtx s t).pc ∧ (selCtx s t).pc < 8192)
    && (wordOffsets (istoreOff (tileOf s t).sel (selCtx s t).pc.toNat) 8).all (fun o => (eccMark s t none o).isNone)
    && !(regs.any (regBusy (tileOf s t) (tileOf s t).sel))

/-- A scalar register of the issuing context. -/
def xNow (s : State) (t : TileId) (r : BitVec 5) : Word := xGet (selCtx s t) r

/-- The context that issued, as it stands in a later state. -/
def issuerIn (s s' : State) (t : TileId) : Ctx := (tileOf s' t).ctxOf (tileOf s t).sel

/-- The issuing context goes on at `pc` with xd holding a value, and nothing else of it changes; a write to x0 is discarded (R124). -/
def wroteX (s s' : State) (t : TileId) (d : BitVec 5) (v : Word) (pc : Int) : Prop :=
  issuerIn s s' t = { selCtx s t with pc := pc, x := (issuerIn s s' t).x } ∧
    ∀ r, xGet (issuerIn s s' t) r = if r = d ∧ r ≠ 0 then v else xGet (selCtx s t) r

/-- The issuing context goes on at `pc` and nothing else of it changes. -/
def wentTo (s s' : State) (t : TileId) (pc : Int) : Prop := issuerIn s s' t = { selCtx s t with pc := pc }

/-! ### Frames -/

/-- Everything beside one tile's state, the registers and the memory is as it was. -/
def sameModule (s s' : State) (t : Nat) : Prop :=
  s'.pending = s.pending ∧ s'.vco = s.vco ∧ s'.gtimeBase = s.gtimeBase ∧ s'.fresh = s.fresh ∧ s'.tick = s.tick ∧ s'.dies = s.dies ∧ s'.stations = s.stations
    ∧ s'.ports = s.ports ∧ s'.m = s.m ∧ ∀ u, u ≠ t → tileOf s' u = tileOf s u

/-- Every byte of memory reads as it did, and so do the error marks. -/
def sameMemory (s s' : State) : Prop := s'.ecc = s.ecc ∧ ∀ a, readByte s' a = readByte s a

/-- Every register but a tile's sixteen stall counters (R67, R68) reads as it did. -/
def sameRegs (s s' : State) (t : Nat) : Prop := ∀ k, (∀ i, i < 16 → k ≠ stallCnt t i) → rd s' k = rd s k

/-- Of a tile's own state an instruction of the core changes its context, the accounting of R67 to R70 and the clock gate of T1, and no other
context. -/
def sameTile (s s' : State) (t : TileId) : Prop :=
  tileOf s' t = { tileOf s t with
    ctx := (tileOf s' t).ctx, stallAt := (tileOf s' t).stallAt, cycles := (tileOf s' t).cycles
    issuedAt := (tileOf s' t).issuedAt, cause := (tileOf s' t).cause, t1 := (tileOf s' t).t1 }
    ∧ ∀ c, c ≠ (tileOf s t).sel → (tileOf s' t).ctxOf c = (tileOf s t).ctxOf c

/-- The frame of an instruction that executes in the core. -/
def coreFrame (s s' : State) (t : TileId) : Prop := sameModule s s' t ∧ sameMemory s s' ∧ sameRegs s s' t ∧ sameTile s s' t

/-- The frame of an instruction that enters a queue: as for the core, but for the queue and the issue number. -/
def queueFrame (s s' : State) (t : TileId) : Prop :=
  sameModule s s' t ∧ sameMemory s s' ∧ sameRegs s s' t ∧ wentTo s s' t ((selCtx s t).pc + 1)
    ∧ (tileOf s' t).seq = (tileOf s t).seq + 1
    ∧ tileOf s' t = { tileOf s t with
        ctx := (tileOf s' t).ctx, stallAt := (tileOf s' t).stallAt, cycles := (tileOf s' t).cycles, issuedAt := (tileOf s' t).issuedAt
        cause := (tileOf s' t).cause, t1 := (tileOf s' t).t1, seq := (tileOf s' t).seq, q := (tileOf s' t).q }
    ∧ ∀ c, c ≠ (tileOf s t).sel → (tileOf s' t).ctxOf c = (tileOf s t).ctxOf c

/-- The issuer that an entry of a queue records (R127, R130). -/
def issuerOf (s : State) (t : TileId) : Issuer := ⟨(tileOf s t).sel, (selCtx s t).pc, (tileOf s t).seq⟩

/-! ### Invariants of the data -/

/-- The memory is in its canonical form. -/
def memoryCanonical (s : State) : Prop := Memory.wf s.undef s.cells = true

end Sys2Proof.Machine
end

