-- ==== Sys2Proof/Certificates/Slice0/Obligations.lean ====
section
/-!
DEFINITION. The statements about the model.
-/

open Sys2Proof Sys2Proof.Machine

/-- A step runs the command at the front of the queue on the state with the rest of the queue; with none waiting one VCO period passes
(95_what_each_step_holds.md, 10_power_clocks_mere.md R271, 10_power_clocks_mere.md R274). What an empty queue does is the model's choice
(log 8): with no POWER message and no buffered page waiting nothing else changes. -/
def Obligations.StepRunsTheFrontCommand : Prop :=
  (∀ (c : Instr) (rest : List Instr) (s : State), s.pending = c :: rest → step s = exec c { s with pending := rest })
  ∧ (∀ s : State, s.pending = [] → (∃ s', step s = .next s')
    ∧ ((∀ x ∈ s.dies, x.2.powerQ = []) → (∀ n, n < 8 → (stationOf s n).wbuf = []) → step s = .next { s with vco := s.vco + 1 }))

/-- Decoding the word of any Ramyr instruction gives that instruction back, with every field at every value, the words of Table 5.11 among
them (05_ramyr_isa.md R121, 05_ramyr_isa.md R131, 05_ramyr_isa.md Table 5.4, 05_ramyr_isa.md Table 5.11). -/
def Obligations.RamyrWordsDecodeToTheirInstruction : Prop :=
  (∀ (i : Instr) (w : Word) (t : TileId), encodeWord i = some w → tileOfWord i = some t → decodeWord t w = some i)
  ∧ ∀ t : TileId, decodeWord t 0x4802044300000002 = some (.vfma t ⟨4, 1, 2, 3, 2⟩)
    ∧ decodeWord t 0x804014000000004C = some (.nwait t ⟨0, 5, 0, 0, 0x4C⟩)
    ∧ decodeWord t 0x6011002000000000 = some (.tmuls t ⟨2, 0, 1, 0, 0⟩)
    ∧ decodeWord t 0 = none

/-- A word that decodes is the word of the instruction it decodes to, so decoding drops no bit and no two instructions share a word
(05_ramyr_isa.md R121, 05_ramyr_isa.md R131, 05_ramyr_isa.md Table 5.4). -/
def Obligations.RamyrDecodingDropsNoBit : Prop :=
  ∀ (i : Instr) (w : Word) (t : TileId), decodeWord t w = some i → encodeWord i = some w ∧ tileOfWord i = some t

/-- The S forms with what they compute of xs1 and xs2 (R132). -/
def scalarS : List ((TileId → IWord → Instr) × (Word → Word → Word)) := [
  (.add, fun a b => BitVec.ofInt 64 (a.toInt + b.toInt)),
  (.sub, fun a b => BitVec.ofInt 64 (a.toInt - b.toInt)),
  (.and, fun a b => a &&& b),
  (.or, fun a b => a ||| b),
  (.xor, fun a b => a ^^^ b),
  (.sll, fun a b => BitVec.ofNat 64 (a.toNat * 2 ^ (b.toNat % 64))),
  (.srl, fun a b => BitVec.ofNat 64 (a.toNat / 2 ^ (b.toNat % 64))),
  (.sra, fun a b => BitVec.ofInt 64 (a.toInt / 2 ^ (b.toNat % 64))),
  (.slt, fun a b => if a.toInt < b.toInt then 1 else 0),
  (.sltu, fun a b => if a.toNat < b.toNat then 1 else 0),
  (.mul, fun a b => BitVec.ofNat 64 (a.toNat * b.toNat)),
  (.mulhu, fun a b => BitVec.ofNat 64 (a.toNat * b.toNat / 2 ^ 64)),
  (.min, fun a b => if a.toInt ≤ b.toInt then a else b),
  (.max, fun a b => if a.toInt ≤ b.toInt then b else a)]

/-- The I forms with what they compute of xs1 and the immediate sign-extended to 64 bits (R132). -/
def scalarI : List ((TileId → IWord → Instr) × (Word → Word → Word)) := [
  (.addi, fun a b => BitVec.ofInt 64 (a.toInt + b.toInt)),
  (.andi, fun a b => a &&& b),
  (.ori, fun a b => a ||| b),
  (.xori, fun a b => a ^^^ b),
  (.slti, fun a b => if a.toInt < b.toInt then 1 else 0),
  (.sltiu, fun a b => if a.toNat < b.toNat then 1 else 0)]

/-- The shifts by IMM[5:0] (R132). -/
def scalarShift : List ((TileId → IWord → Instr) × (Word → Nat → Word)) := [
  (.slli, fun a n => BitVec.ofNat 64 (a.toNat * 2 ^ n)),
  (.srli, fun a n => BitVec.ofNat 64 (a.toNat / 2 ^ n)),
  (.srai, fun a n => BitVec.ofInt 64 (a.toInt / 2 ^ n))]

/-- An instruction faults its context at issue: it is FAULTED with the code and the index, and its registers are as they were (R43, R130). -/
def faultsAtIssue (s s' : State) (t : TileId) (code : Byte) : Prop :=
  (issuerIn s s' t).st = .faulted ∧ (issuerIn s s' t).fcode = code ∧ (issuerIn s s' t).pc = (selCtx s t).pc
    ∧ (issuerIn s s' t).x = (selCtx s t).x ∧ s'.cells = s.cells ∧ s'.undef = s.undef

/-- The 25 scalar instructions write the results of R132, go on at the next index and change nothing else; an immediate shift above 63 is
ILLEGAL (R132). -/
def Obligations.ScalarArithmeticResults : Prop :=
  (∀ r ∈ scalarS, ∀ (t : TileId) (w : IWord) (s : State), w.c = 0 → w.ext = 0 → issues s t [w.d, w.a, w.b] = true →
    ∃ s', exec (r.1 t w) s = .next s' ∧ wroteX s s' t w.d (r.2 (xNow s t w.a) (xNow s t w.b)) ((selCtx s t).pc + 1) ∧ coreFrame s s' t)
  ∧ (∀ r ∈ scalarI, ∀ (t : TileId) (w : IWord) (s : State), w.b = 0 → w.c = 0 → issues s t [w.d, w.a] = true →
    ∃ s', exec (r.1 t w) s = .next s' ∧ wroteX s s' t w.d (r.2 (xNow s t w.a) (w.ext.signExtend 64)) ((selCtx s t).pc + 1) ∧ coreFrame s s' t)
  ∧ (∀ r ∈ scalarShift, ∀ (t : TileId) (w : IWord) (s : State), w.b = 0 → w.c = 0 → issues s t [w.d, w.a] = true →
    (w.ext.toNat < 64 →
      ∃ s', exec (r.1 t w) s = .next s' ∧ wroteX s s' t w.d (r.2 (xNow s t w.a) w.ext.toNat) ((selCtx s t).pc + 1) ∧ coreFrame s s' t)
    ∧ (64 ≤ w.ext.toNat → ∃ s', exec (r.1 t w) s = .next s' ∧ faultsAtIssue s s' t 0x10))
  ∧ (∀ (t : TileId) (w : IWord) (s : State), w.b = 0 → w.c = 0 → issues s t [w.d] = true →
    (∃ s', exec (.li t w) s = .next s' ∧ wroteX s s' t w.d (w.ext.signExtend 64) ((selCtx s t).pc + 1) ∧ coreFrame s s' t)
    ∧ ∃ s', exec (.lih t w) s = .next s'
      ∧ wroteX s s' t w.d (BitVec.ofNat 64 (w.ext.toNat * 2 ^ 32 + (xNow s t w.d).toNat % 2 ^ 32)) ((selCtx s t).pc + 1) ∧ coreFrame s s' t)

/-- The conditional branches with their conditions on xs1 and xs2 (R133). -/
def branchRows : List ((TileId → IWord → Instr) × (Word → Word → Bool)) := [
  (.beq, fun a b => decide (a.toNat = b.toNat)),
  (.bne, fun a b => decide (a.toNat ≠ b.toNat)),
  (.blt, fun a b => decide (a.toInt < b.toInt)),
  (.bge, fun a b => decide (b.toInt ≤ a.toInt)),
  (.bltu, fun a b => decide (a.toNat < b.toNat)),
  (.bgeu, fun a b => decide (b.toNat ≤ a.toNat))]

/-- BEQ, BNE, BLT, BGE, BLTU, BGEU, JAL, JALR and NOP complete: branches and jumps set the index by R133, JAL and JALR link, no target faults the branch,
and a fetch outside 0 to 8,191 raises IFETCH_RANGE (R133). -/
def Obligations.BranchesAndJumpsMoveTheIndex : Prop :=
  (∀ r ∈ branchRows, ∀ (t : TileId) (w : IWord) (s : State), w.d = 0 → w.c = 0 → issues s t [w.a, w.b] = true →
    ∃ s', exec (r.1 t w) s = .next s' ∧ coreFrame s s' t
      ∧ wentTo s s' t ((selCtx s t).pc + (if r.2 (xNow s t w.a) (xNow s t w.b) then w.ext.toInt else 1)))
  ∧ (∀ (t : TileId) (w : IWord) (s : State), w.c = 0 → issues s t [w.d] = true →
    ∃ s', exec (.jal t w) s = .next s' ∧ coreFrame s s' t
      ∧ wroteX s s' t w.d (BitVec.ofInt 64 ((selCtx s t).pc + 1)) ((selCtx s t).pc + w.ext.toInt))
  ∧ (∀ (t : TileId) (w : IWord) (s : State), w.c = 0 → issues s t [w.d, w.a] = true →
    ∃ s', exec (.jalr t w) s = .next s' ∧ coreFrame s s' t
      ∧ wroteX s s' t w.d (BitVec.ofInt 64 ((selCtx s t).pc + 1)) (((xNow s t w.a).toInt + w.ext.toInt) % 8192))
  ∧ (∀ (t : TileId) (w : IWord) (s : State), canIssue s t = true → ((selCtx s t).pc < 0 ∨ 8192 ≤ (selCtx s t).pc) →
    ∃ s', exec (.nop t w) s = .next s' ∧ faultsAtIssue s s' t 0x01)

/-- The scalar loads with their width and whether they extend the sign (R134). -/
def loadRows : List ((TileId → IWord → Instr) × MemWidth × Bool) := [
  (.ldB, .b, true), (.ldBu, .b, false), (.ldH, .h, true), (.ldHu, .h, false), (.ldW, .w, true), (.ldWu, .w, false), (.ldD, .d, false)]

/-- The scalar stores with their width (R134). -/
def storeRows : List ((TileId → IWord → Instr) × MemWidth) := [(.stB, .b), (.stH, .h), (.stW, .w), (.stD, .d)]

/-- The address of a load or store: the register in field A plus the sign-extended immediate (R134). -/
def accessAddr (s : State) (t : TileId) (w : IWord) : Nat := (xNow s t w.a + w.ext.signExtend 64).toNat

/-- No word of `[a, a + n)` has an ECC error, for an access of a context. -/
def wordsClean (s : State) (t : TileId) (c : CtxId) (a n : Nat) : Bool := (wordOffsets a n).all (fun o => (eccMark s t (some c) o).isNone)

/-- An aligned access that needs no wait: in the scratchpad with no request waiting at its bank, or of 4 bytes or more in an accumulator bank
that the TE does not hold (R49, R61, Table 5.6). -/
def accessReady (s : State) (t : TileId) (a n : Nat) : Bool :=
  decide (a % n = 0) && (decide (a + n ≤ 0x600000) && !(bankBusy s t (some (tileOf s t).sel) a)
    || decide (0x600000 ≤ a ∧ a + n ≤ 0x640000 ∧ 4 ≤ n) && !(accHeld s t a))

/-- A loaded value in a 64-bit register. -/
def loadedValue (n : Nat) (signed : Bool) (v : Nat) : Word := if signed then BitVec.ofInt 64 (sext (8 * n) v) else BitVec.ofNat 64 v

/-- The bytes of a tile's memory at an address are a value's low bytes, and every byte elsewhere is as it was. -/
def storedBytes (s s' : State) (t : TileId) (c : CtxId) (a n : Nat) (v : Word) : Prop :=
  (∀ j, j < n → readByte s' (tilePlace s t (some c) (a + j)) = BitVec.ofNat 8 (v.toNat / 256 ^ j))
    ∧ ∀ k, (∀ j, j < n → k ≠ tilePlace s t (some c) (a + j)) → readByte s' k = readByte s k

/-- LD_B, LD_BU, LD_H, LD_HU, LD_W, LD_WU and LD_D complete: each scalar load writes the extended little-endian bytes of an aligned mapped address to xd;
ADDR and MISALIGN fault it (05_ramyr_isa.md R134, 05_ramyr_isa.md Table 5.6, 05_ramyr_isa.md R129). -/
def Obligations.ScalarLoadsReadTileMemory : Prop :=
  (∀ r ∈ loadRows, ∀ (t : TileId) (w : IWord) (s : State), w.b = 0 → w.c = 0 → issues s t [w.d, w.a] = true → (tileOf s t).core = none →
    (accessReady s t (accessAddr s t w) r.2.1.bytes = true → wordsClean s t (tileOf s t).sel (accessAddr s t w) r.2.1.bytes = true →
      ∃ s', exec (r.1 t w) s = .next s' ∧ coreFrame s s' t
        ∧ wroteX s s' t w.d (loadedValue r.2.1.bytes r.2.2
            (leNat (tileBytes s t (some (tileOf s t).sel) (accessAddr s t w) r.2.1.bytes))) ((selCtx s t).pc + 1))
    ∧ (accessAddr s t w < 0x600000 → accessAddr s t w % r.2.1.bytes ≠ 0 →
      ∃ s', exec (r.1 t w) s = .next s' ∧ faultsAtIssue s s' t 0x11)
    ∧ (0x800000 ≤ accessAddr s t w ∨ (0x640000 ≤ accessAddr s t w ∧ accessAddr s t w < 0x700000) →
      ∃ s', exec (r.1 t w) s = .next s' ∧ faultsAtIssue s s' t 0x03)
    ∧ (0x600000 ≤ accessAddr s t w → accessAddr s t w + 2 ≤ 0x640000 → r.2.1.bytes < 4 →
      ∃ s', exec (r.1 t w) s = .next s' ∧ faultsAtIssue s s' t 0x03))
  ∧ (∀ (t : TileId) (w : IWord) (s : State), w.b = 0 → w.c = 0 → issues s t [w.d, w.a] = true → (tileOf s t).core = none →
    0x7F0000 ≤ accessAddr s t w → accessAddr s t w + 8 ≤ 0x800000 → accessAddr s t w % 8 = 0 →
    ∃ s', exec (.ldD t w) s = .next s' ∧ sameMemory s s'
      ∧ wroteX s s' t w.d (readRegAt s (tileAddr t (accessAddr s t w))).2 ((selCtx s t).pc + 1))

/-- ST_B, ST_H, ST_W and ST_D complete: each scalar store writes the low bytes of its data register to an aligned mapped address and no other byte; a KEEP
range without WR faults it (05_ramyr_isa.md R134, 05_ramyr_isa.md Table 5.6, 02_tiles_scratchpad.md R57, 02_tiles_scratchpad.md R45). -/
def Obligations.ScalarStoresWriteTileMemory : Prop :=
  (∀ r ∈ storeRows, ∀ (t : TileId) (w : IWord) (s : State), w.d = 0 → w.c = 0 → issues s t [w.a, w.b] = true → (tileOf s t).core = none →
    (accessReady s t (accessAddr s t w) r.2.bytes = true → wordsClean s t (tileOf s t).sel (accessAddr s t w) r.2.bytes = true →
      keepBlocks s t (accessAddr s t w) r.2.bytes = false →
      ∃ s', exec (r.1 t w) s = .next s' ∧ storedBytes s s' t (tileOf s t).sel (accessAddr s t w) r.2.bytes (xNow s t w.b)
        ∧ s'.ecc = s.ecc ∧ sameModule s s' t ∧ sameRegs s s' t ∧ sameTile s s' t ∧ wentTo s s' t ((selCtx s t).pc + 1))
    ∧ (accessReady s t (accessAddr s t w) r.2.bytes = true → keepBlocks s t (accessAddr s t w) r.2.bytes = true →
      ∃ s', exec (r.1 t w) s = .next s' ∧ faultsAtIssue s s' t 0x05)
    ∧ (accessAddr s t w < 0x600000 → accessAddr s t w % r.2.bytes ≠ 0 →
      ∃ s', exec (r.1 t w) s = .next s' ∧ faultsAtIssue s s' t 0x11)
    ∧ (0x800000 ≤ accessAddr s t w → ∃ s', exec (r.1 t w) s = .next s' ∧ faultsAtIssue s s' t 0x03))
  ∧ (∀ (t : TileId) (w : IWord) (s : State), w.d = 0 → w.c = 0 → issues s t [w.a, w.b] = true → (tileOf s t).core = none →
    (istoreOff (tileOf s t).sel 0 ≤ accessAddr s t w → accessAddr s t w + 8 ≤ istoreOff (tileOf s t).sel 8192 → accessAddr s t w % 8 = 0 →
      ∃ s', exec (.stD t w) s = .next s' ∧ sameMemory s s' ∧ fld s' (tileReg t 8) 6 6 = 1 ∧ wentTo s s' t ((selCtx s t).pc + 1))
    ∧ (0x7F0000 ≤ accessAddr s t w → accessAddr s t w + 8 ≤ 0x800000 → accessAddr s t w % 8 = 0 →
      ∃ s', exec (.stD t w) s = .next s' ∧ sameRegs (writeReg s false (tileAddr t (accessAddr s t w)) (xNow s t w.b)) s' t))

/-- The state of a bank's arbiter. -/
def arbOf (s : State) (t : TileId) (b : Fin 32) : BankArb := spGet (tileOf s t).banks ⟨[], []⟩ b.val

/-- The order of R49: who has waited longer, then the lower requester number; the scrubber goes last. -/
def mayGoBefore (g r : Nat × BankReq) : Prop :=
  r.2.who = .scrubber ∨ (g.2.who ≠ .scrubber ∧ (r.1 < g.1 ∨ (r.1 = g.1 ∧ whoNum g.2.who ≤ whoNum r.2.who)))

/-- What holds a bank beside its arbiter: STRICT accesses that stall, and a narrow write in its second CCLK. -/
def holdOf (s : State) (t : TileId) (b : Fin 32) : BankHold := spGet (tileOf s t).holds ⟨[], none⟩ b.val

/-- A bank grants one request a cycle: a narrow write's second CCLK, else the longest wait of 16 CCLK or more, else a STRICT access, else its
conflict queue, else the longest wait; a STRICT access that finds the conflict queue full stalls (02_tiles_scratchpad.md R49, 02_tiles_scratchpad.md
R50, 02_tiles_scratchpad.md R51, 02_tiles_scratchpad.md R52, 02_tiles_scratchpad.md R53). -/
def Obligations.BankArbiterGrantsByAge : Prop :=
  ∀ (t : TileId) (b : Fin 32) (s : State), (∀ x ∈ (arbOf s t b).waiting, x.2.who = .scrubber ∨ x.1 < 16) → holdOf s t b = ⟨[], none⟩ →
    (∀ r : BankReq, r.strict = true → ∃ s', exec (.scratchpadBankGrant t b [r]) s = .next s'
      ∧ arbOf s' t b = ⟨aged (arbOf s t b).waiting, (arbOf s t b).conflict⟩ ∧ (∀ u : TileId, u ≠ t → tileOf s' u = tileOf s u)
      ∧ holdOf s' t b = ⟨[], if r.narrow then some r else none⟩
      ∧ (∀ c, c ≠ b → arbOf s' t c = arbOf s t c) ∧ sameMemory s s')
    ∧ (∀ r q : BankReq, r.strict = true → q.strict = true → (arbOf s t b).conflict.length < 4 →
      ∃ s', exec (.scratchpadBankGrant t b [r, q]) s = .next s'
        ∧ arbOf s' t b = ⟨aged (arbOf s t b).waiting, (arbOf s t b).conflict ++ [q]⟩ ∧ fld s' (tileReg t 8) 1 1 = 1
        ∧ fld s' (tileReg t 0x48) 31 0 = (fld s (tileReg t 0x48) 31 0 + 1) % 2 ^ 32)
    ∧ (∀ q l, (arbOf s t b).conflict = q :: l → ∃ s', exec (.scratchpadBankGrant t b []) s = .next s'
      ∧ arbOf s' t b = ⟨aged (arbOf s t b).waiting, l⟩)
    ∧ ((arbOf s t b).conflict = [] → (arbOf s t b).waiting ≠ [] → ∃ g ∈ (arbOf s t b).waiting, ∃ s',
      exec (.scratchpadBankGrant t b []) s = .next s' ∧ (∀ r ∈ (arbOf s t b).waiting, mayGoBefore g r)
        ∧ arbOf s' t b = ⟨aged ((arbOf s t b).waiting.erase g), []⟩)
    ∧ (∀ (s0 : State) (g : Nat × BankReq) (r : BankReq), (arbOf s0 t b).waiting = [g] → 16 ≤ g.1 → g.2.who ≠ .scrubber → r.strict = true →
      (arbOf s0 t b).conflict = [] → holdOf s0 t b = ⟨[], none⟩ →
      ∃ s', exec (.scratchpadBankGrant t b [r]) s0 = .next s' ∧ arbOf s' t b = ⟨[], [r]⟩)
    ∧ (∀ r q : BankReq, r.strict = true → q.strict = true → (arbOf s t b).conflict.length = 4 →
      ∃ s', exec (.scratchpadBankGrant t b [r, q]) s = .next s' ∧ (holdOf s' t b).stalled = [q]
        ∧ arbOf s' t b = ⟨aged (arbOf s t b).waiting, (arbOf s t b).conflict⟩)
    ∧ (∀ (s0 : State) (g : BankReq), holdOf s0 t b = ⟨[], some g⟩ →
      ∃ s', exec (.scratchpadBankGrant t b []) s0 = .next s' ∧ holdOf s' t b = ⟨[], none⟩
        ∧ arbOf s' t b = ⟨aged (arbOf s0 t b).waiting, (arbOf s0 t b).conflict⟩)

/-- A scrubber tick reads one row of each bank, goes on to the next row and counts a pass after the last; no byte of memory changes
(02_tiles_scratchpad.md R54, 02_tiles_scratchpad.md R53). -/
def Obligations.ScrubberCorrectsARowPerTick : Prop :=
  ∀ (t : TileId) (busy : List (Fin 32)) (s : State),
    (fld s (tileReg t 0x60) 15 0 = 0 → exec (.scrubTick t busy) s = .next s)
    ∧ (fld s (tileReg t 0x60) 15 0 ≠ 0 → (tileOf s t).scrubRow < 3072 → ∃ s', exec (.scrubTick t busy) s = .next s'
      ∧ (tileOf s' t).scrubRow = (if (tileOf s t).scrubRow = 3071 then 0 else (tileOf s t).scrubRow + 1)
      ∧ fld s' (tileReg t 0x60) 47 16 = (fld s (tileReg t 0x60) 47 16 + (if (tileOf s t).scrubRow = 3071 then 1 else 0)) % 2 ^ 32
      ∧ (∀ a, readByte s' a = readByte s a)
      ∧ ((∀ n, n < 4 → bit (rd s (keepReg t n)) 40 = false) → (tileOf s t).scrMode.getLsbD 4 = true →
        ∀ b : Fin 32, b ∉ busy → ∀ w, w < 8 →
          spGet (s'.ecc.map (fun p => (p.1, some p.2))) none (tileAddr t ((tileOf s t).scrubRow * 2048 + b.val * 64 + 8 * w)) ≠ some false))

/-- A scalar access whose bank is busy waits without holding a load back, and its grant writes the register or the bytes (05_ramyr_isa.md
R128, 05_ramyr_isa.md R129, 02_tiles_scratchpad.md R49). -/
def Obligations.AWaitingScalarAccessCompletesAtItsGrant : Prop :=
  (∀ (t : TileId) (w : IWord) (s : State), w.b = 0 → w.c = 0 → issues s t [w.d, w.a] = true → (tileOf s t).core = none →
    accessAddr s t w + 8 ≤ 0x600000 → accessAddr s t w % 8 = 0 → bankBusy s t (some (tileOf s t).sel) (accessAddr s t w) = true →
    ∃ s', exec (.ldD t w) s = .next s' ∧ (tileOf s' t).core = some ⟨issuerOf s t, accessAddr s t w, .d, false, w.d, none⟩
      ∧ wentTo s s' t ((selCtx s t).pc + 1) ∧ sameMemory s s')
  ∧ (∀ (t : TileId) (w : IWord) (s : State), w.d = 0 → w.c = 0 → issues s t [w.a, w.b] = true → (tileOf s t).core = none →
    accessAddr s t w + 8 ≤ 0x600000 → accessAddr s t w % 8 = 0 → bankBusy s t (some (tileOf s t).sel) (accessAddr s t w) = true →
    ∃ s', exec (.stD t w) s = .next s' ∧ (tileOf s' t).core = some ⟨issuerOf s t, accessAddr s t w, .d, false, 0, some (xNow s t w.b)⟩
      ∧ wentTo s s' t ((selCtx s t).pc + 1) ∧ sameMemory s s')
  ∧ (∀ (t : TileId) (s : State), (tileOf s t).core = none → exec (.scalarLdBankGrant t) s = .next s)
  ∧ (∀ (t : TileId) (s : State) (i : Issuer) (a : Nat) (m : MemWidth) (g : Bool) (d : BitVec 5),
    (tileOf s t).core = some ⟨i, a, m, g, d, none⟩ → a + m.bytes ≤ 0x600000 → a % m.bytes = 0 → wordsClean s t i.ctx a m.bytes = true →
    ∃ s', exec (.scalarLdBankGrant t) s = .next s' ∧ (tileOf s' t).core = none ∧ sameMemory s s' ∧ s'.regs = s.regs
      ∧ ∀ r, xGet ((tileOf s' t).ctxOf i.ctx) r
        = if r = d ∧ r ≠ 0 then loadedValue m.bytes g (leNat (tileBytes s t (some i.ctx) a m.bytes)) else xGet ((tileOf s t).ctxOf i.ctx) r)
  ∧ (∀ (t : TileId) (s : State) (i : Issuer) (a : Nat) (m : MemWidth) (g : Bool) (d : BitVec 5) (v : Word),
    (tileOf s t).core = some ⟨i, a, m, g, d, some v⟩ → m ≠ .v → a + m.bytes ≤ 0x600000 → a % m.bytes = 0 → keepBlocks s t a m.bytes = false →
    wordsClean s t i.ctx a m.bytes = true →
    ∃ s', exec (.scalarLdBankGrant t) s = .next s' ∧ (tileOf s' t).core = none ∧ storedBytes s s' t i.ctx a m.bytes v)

/-- The vector and predicate instructions with the operation each enters in the VE queue (Table 5.4). -/
def veRows : List ((TileId → IWord → Instr) × VeOp) := [
  (.vadd, .add), (.vaddSub, .sub), (.vaddMax, .max), (.vaddMin, .min), (.vaddAbs, .abs), (.vaddNeg, .neg), (.vaddMov, .mov),
  (.vaddAnd, .band), (.vaddOr, .bor), (.vaddXor, .bxor), (.vaddCmpeq, .cmpeq), (.vaddCmplt, .cmplt), (.vaddCmple, .cmple),
  (.vaddSel, .sel), (.vmul, .mul), (.vmulRcp, .rcp), (.vmulRsq, .rsq), (.vmulExp2, .exp2), (.vmulLog2, .log2), (.vfma, .fma),
  (.vfmaFms, .fms), (.vfmaFnma, .fnma), (.vcvt, .cvt), (.vtwosum, .twosum), (.vftwosum, .ftwosum), (.vtwoprod, .twoprod),
  (.vcpadd, .cpadd), (.vred, .red), (.vredMax, .redMax), (.vredMin, .redMin), (.vredOr, .redOr), (.vredCpsum, .redCpsum),
  (.pset, .pset), (.pget, .pget), (.pand, .pand), (.por, .por), (.pnot, .pnot)]

/-- An instruction that enters the VE queue: the entry stands at its end, and beside it only the context's index, the issue number and the
accounting change. -/
def entersVe (s s' : State) (t : TileId) (e : VeEntry) : Prop :=
  queueFrame s s' t ∧ (tileOf s' t).q = { (tileOf s t).q with ve := (tileOf s t).q.ve ++ [e] }

/-- A full queue holds the instruction back: its context does not move and no entry is added (R35). -/
def heldAtIssue (s s' : State) (t : TileId) : Prop :=
  issuerIn s s' t = selCtx s t ∧ (tileOf s' t).q = (tileOf s t).q ∧ (tileOf s' t).seq = (tileOf s t).seq ∧ sameMemory s s'
    ∧ sameModule s s' t ∧ sameRegs s s' t

/-- Each vector and predicate instruction completes its issue by entering the VE queue with xs1 and xs2 as they are, waits for a full queue or a
predicate still to be written, or faults ILLEGAL, VE_FORMAT or CP_PAIR
(05_ramyr_isa.md R126, 05_ramyr_isa.md R127, 05_ramyr_isa.md R129, 05_ramyr_isa.md R122, 02_tiles_scratchpad.md R35, 05_ramyr_isa.md Table 5.7). -/
def Obligations.VectorInstructionsEnterTheVeQueue : Prop :=
  ∀ r ∈ veRows, ∀ (t : TileId) (w : IWord) (s : State), issues s t (veScalars r.2 w) = true → predBusy (tileOf s t) (tileOf s t).sel r.2 w = false →
    (w.extBits 31 25 = 0 → predFieldsOk r.2 w = true → veFormatFault r.2 w = false → pairFault r.2 w = false →
      ((tileOf s t).q.ve.length < 16 → ∃ s', exec (r.1 t w) s = .next s'
        ∧ entersVe s s' t ⟨issuerOf s t, r.2, w, xNow s t w.a, xNow s t w.b, 0⟩)
      ∧ (16 ≤ (tileOf s t).q.ve.length → ∃ s', exec (r.1 t w) s = .next s' ∧ heldAtIssue s s' t))
    ∧ ((w.extBits 31 25 ≠ 0 ∨ predFieldsOk r.2 w = false) → ∃ s', exec (r.1 t w) s = .next s' ∧ faultsAtIssue s s' t 0x10)
    ∧ (w.extBits 31 25 = 0 → predFieldsOk r.2 w = true → veFormatFault r.2 w = true →
      ∃ s', exec (r.1 t w) s = .next s' ∧ faultsAtIssue s s' t 0x16)
    ∧ (w.extBits 31 25 = 0 → predFieldsOk r.2 w = true → veFormatFault r.2 w = false → pairFault r.2 w = true →
      ∃ s', exec (r.1 t w) s = .next s' ∧ faultsAtIssue s s' t 0x17)
    ∧ (∀ s0 : State, issues s0 t (veScalars r.2 w) = true → w.extBits 31 25 = 0 → predFieldsOk r.2 w = true →
      predBusy (tileOf s0 t) (tileOf s0 t).sel r.2 w = true → ∃ s', exec (r.1 t w) s0 = .next s' ∧ heldAtIssue s0 s' t)

/-- LD_V and ST_V complete: LD_V and ST_V check ADDR and MISALIGN at issue and enter the VE queue with their address (05_ramyr_isa.md R135,
05_ramyr_isa.md R127, 05_ramyr_isa.md Table 5.6). -/
def Obligations.VectorLoadsAndStoresEnterTheVeQueue : Prop :=
  ∀ (t : TileId) (w : IWord) (s : State), issues s t [w.a] = true → w.c = 0 →
    (w.b = 0 →
      (accessAddr s t w % 256 = 0 → accessAddr s t w < 0x640000 → (tileOf s t).q.ve.length < 16 →
        ∃ s', exec (.ldV t w) s = .next s' ∧ entersVe s s' t ⟨issuerOf s t, .ldv, w, 0, 0, accessAddr s t w⟩)
      ∧ (accessAddr s t w % 256 ≠ 0 → accessAddr s t w < 0x600000 → ∃ s', exec (.ldV t w) s = .next s' ∧ faultsAtIssue s s' t 0x11)
      ∧ ((0x700000 ≤ accessAddr s t w ∧ accessAddr s t w < 0x740000 ∨ 0x800000 ≤ accessAddr s t w) →
        ∃ s', exec (.ldV t w) s = .next s' ∧ faultsAtIssue s s' t 0x03))
    ∧ (w.d = 0 →
      (accessAddr s t w % 256 = 0 → accessAddr s t w < 0x640000 → (tileOf s t).q.ve.length < 16 →
        ∃ s', exec (.stV t w) s = .next s' ∧ entersVe s s' t ⟨issuerOf s t, .stv, w, 0, 0, accessAddr s t w⟩)
      ∧ (accessAddr s t w % 256 ≠ 0 → accessAddr s t w < 0x600000 → ∃ s', exec (.stV t w) s = .next s' ∧ faultsAtIssue s s' t 0x11)
      ∧ ((0x700000 ≤ accessAddr s t w ∧ accessAddr s t w < 0x740000 ∨ 0x800000 ≤ accessAddr s t w) →
        ∃ s', exec (.stV t w) s = .next s' ∧ faultsAtIssue s s' t 0x03))

/-- The lane operations of R137 that round or compare, with their value and flags on operands a, b and c in a rounding mode. -/
def laneRows : List (VeOp × (Rnd → Nat → Nat → Nat → Nat × Nat)) := [
  (.add, fun m a b _ => fma32 m a 0x3F800000 b),
  (.sub, fun m a b _ => fma32 m a 0x3F800000 (neg32 b)),
  (.max, fun _ a b _ => maxmin32 true a b),
  (.min, fun _ a b _ => maxmin32 false a b),
  (.abs, fun _ a _ _ => (a % 2 ^ 31, 0)),
  (.neg, fun _ a _ _ => (a ^^^ 2 ^ 31, 0)),
  (.mov, fun _ a _ _ => (a, 0)),
  (.band, fun _ a b _ => (a &&& b, 0)),
  (.bor, fun _ a b _ => (a ||| b, 0)),
  (.bxor, fun _ a b _ => (a ^^^ b, 0)),
  (.mul, fun m a b _ => mul32 m a b),
  (.rcp, fun m a _ _ => rcp32 m a),
  (.rsq, fun m a _ _ => rsq32 m a),
  (.exp2, fun m a _ _ => exp232 m a),
  (.log2, fun m a _ _ => log232 m a),
  (.fma, fun m a b c => fma32 m a b c),
  (.fms, fun m a b c => fma32 m a b (neg32 c)),
  (.fnma, fun m a b c => fma32 m (neg32 a) b c)]

/-- A lane of a vector register as a number. -/
def laneOf (s : State) (t : TileId) (r : BitVec 5) (k : Nat) : Nat := (vGet (tileOf s t) r.toNat k).toNat

/-- Operand b of a lane: of vb, or with BS the low half of xs2 (Table 5.7). -/
def operandB (s : State) (t : TileId) (e : VeEntry) (k : Nat) : Nat := if e.w.bs then e.xs2.toNat % 2 ^ 32 else laneOf s t e.w.b k

/-- The predicate of an entry makes a lane active (R136). -/
def activeAt (s : State) (t : TileId) (e : VeEntry) (k : Nat) : Bool := (pGet ((tileOf s t).ctxOf e.by_.ctx) e.w.pred).getLsbD k

/-- The VE can execute its head entry `e`, which no bank holds back; `rest` stays behind it. -/
def veReady (s : State) (t : TileId) (e : VeEntry) (rest : List VeEntry) : Prop :=
  (tileOf s t).q.ve = e :: rest ∧ scopeOpen s t = true ∧ veWaits s t e = false

/-- The flags of the VE after an entry whose lanes raised some. -/
def veFlagsRaised (s s' : State) (t : TileId) (f : Nat → Bool) : Prop :=
  ∀ i, i < 5 → (flagsOf s' t .ve).testBit i = ((flagsOf s t .ve).testBit i || f i)

/-- What an executed entry leaves alone: memory, the queue behind it, other tiles, the contexts that did not issue it, and every register but the
VE's flags and draws and the tile's stall counters. -/
def veFrame (s s' : State) (t : TileId) (e : VeEntry) (rest : List VeEntry) : Prop :=
  sameMemory s s' ∧ (tileOf s' t).q = { (tileOf s t).q with ve := rest } ∧ (∀ u : Nat, u ≠ t → tileOf s' u = tileOf s u)
    ∧ (∀ c, c ≠ e.by_.ctx → (tileOf s' t).ctxOf c = (tileOf s t).ctxOf c) ∧ s'.m = s.m ∧ s'.ports = s.ports ∧ s'.stations = s.stations
    ∧ ∀ k, k ≠ flagReg t .ve → k ≠ rngReg t false → (∀ i, i < 16 → k ≠ stallCnt t i) → rd s' k = rd s k

/-- VE_ENTRY_EXECUTE writes the result of a lane operation to the active lanes of vd alone and raises the flags that they raise
(05_ramyr_isa.md R126, 05_ramyr_isa.md R136, 05_ramyr_isa.md R137, 03_number_formats.md R94). -/
def Obligations.LaneOperationsWriteTheirActiveLanes : Prop :=
  ∀ r ∈ laneRows, ∀ (t : TileId) (s : State) (e : VeEntry) (rest : List VeEntry), veReady s t e rest → e.op = r.1 →
    ∃ s', exec (.veEntryExecute t) s = .next s' ∧ veFrame s s' t e rest
      ∧ (∀ (q : BitVec 5) (k : Nat), k < 64 → vGet (tileOf s' t) q.toNat k
          = if q = e.w.d ∧ activeAt s t e k = true
            then BitVec.ofNat 32 (r.2 (Rnd.ofCode e.w.rnd) (laneOf s t e.w.a k) (operandB s t e k) (laneOf s t e.w.c k)).1
            else vGet (tileOf s t) q.toNat k)
      ∧ veFlagsRaised s s' t (fun i => (List.range 64).any (fun k => activeAt s t e k
          && (r.2 (Rnd.ofCode e.w.rnd) (laneOf s t e.w.a k) (operandB s t e k) (laneOf s t e.w.c k)).2.testBit i))
      ∧ (tileOf s' t).ctxOf e.by_.ctx = (tileOf s t).ctxOf e.by_.ctx

/-- The pair operations of R138 on lane pairs (a, a lo, b, b lo). -/
def pairRows : List (VeOp × (Nat → Nat → Nat → Nat → Pair)) := [
  (.twosum, fun a _ b _ => twosum32 a b), (.ftwosum, fun a _ b _ => ftwosum32 a b), (.twoprod, fun a _ b _ => twoprod32 a b),
  (.cpadd, fun a al b bl => cpadd32 a al b bl)]

/-- The lo half of operand b: of vb + 1, or with BS the high half of xs2 (R138). -/
def operandBLo (s : State) (t : TileId) (e : VeEntry) (k : Nat) : Nat :=
  if e.w.bs then e.xs2.toNat / 2 ^ 32 else (vGet (tileOf s t) (e.w.b.toNat + 1) k).toNat

/-- VE_ENTRY_EXECUTE writes pairs to vd and vd + 1, SEL writes all 64 lanes, and a comparison writes the active bits of pd (05_ramyr_isa.md
R137, 05_ramyr_isa.md R138, 05_ramyr_isa.md R136). -/
def Obligations.PairSelectAndCompareResults : Prop :=
  (∀ r ∈ pairRows, ∀ (t : TileId) (s : State) (e : VeEntry) (rest : List VeEntry), veReady s t e rest → e.op = r.1 →
    ∃ s', exec (.veEntryExecute t) s = .next s' ∧ veFrame s s' t e rest
      ∧ (∀ q k : Nat, k < 64 → vGet (tileOf s' t) q k
          = if q = e.w.d.toNat ∧ activeAt s t e k = true
            then BitVec.ofNat 32 (r.2 (laneOf s t e.w.a k) (vGet (tileOf s t) (e.w.a.toNat + 1) k).toNat (operandB s t e k) (operandBLo s t e k)).hi
            else if q = e.w.d.toNat + 1 ∧ activeAt s t e k = true
            then BitVec.ofNat 32 (r.2 (laneOf s t e.w.a k) (vGet (tileOf s t) (e.w.a.toNat + 1) k).toNat (operandB s t e k) (operandBLo s t e k)).lo
            else vGet (tileOf s t) q k))
  ∧ (∀ (t : TileId) (s : State) (e : VeEntry) (rest : List VeEntry), veReady s t e rest → e.op = .sel →
    ∃ s', exec (.veEntryExecute t) s = .next s' ∧ veFrame s s' t e rest
      ∧ ∀ q k : Nat, k < 64 → vGet (tileOf s' t) q k
          = if q = e.w.d.toNat then BitVec.ofNat 32 (if activeAt s t e k then laneOf s t e.w.a k else operandB s t e k) else vGet (tileOf s t) q k)
  ∧ (∀ r ∈ [(VeOp.cmpeq, Cmp.eq), (.cmplt, .lt), (.cmple, .le)],
    ∀ (t : TileId) (s : State) (e : VeEntry) (rest : List VeEntry), veReady s t e rest → e.op = r.1 → e.w.d ≠ 0 →
    ∃ s', exec (.veEntryExecute t) s = .next s' ∧ veFrame s s' t e rest ∧ (tileOf s' t).vreg = (tileOf s t).vreg
      ∧ ∀ (q k : Nat), k < 64 → (pGet ((tileOf s' t).ctxOf e.by_.ctx) q).getLsbD k
          = if q = e.w.d.toNat ∧ activeAt s t e k = true then (cmp32 r.2 (laneOf s t e.w.a k) (operandB s t e k)).1
            else (pGet ((tileOf s t).ctxOf e.by_.ctx) q).getLsbD k)

/-- PSET, PGET, PAND, POR and PNOT write their predicate or register, and LD_V and ST_V move the 256 bytes of a vector register
(05_ramyr_isa.md R136, 05_ramyr_isa.md R135, 05_ramyr_isa.md R126, 03_number_formats.md R82). -/
def Obligations.PredicateInstructionsAndVectorMemory : Prop :=
  (∀ (t : TileId) (s : State) (e : VeEntry) (rest : List VeEntry) (op : VeOp) (v : Word), veReady s t e rest → e.op = op →
    (op = .pset ∧ v = e.xs1
      ∨ op = .pand ∧ v = pGet ((tileOf s t).ctxOf e.by_.ctx) e.w.a.toNat &&& pGet ((tileOf s t).ctxOf e.by_.ctx) e.w.b.toNat
      ∨ op = .por ∧ v = pGet ((tileOf s t).ctxOf e.by_.ctx) e.w.a.toNat ||| pGet ((tileOf s t).ctxOf e.by_.ctx) e.w.b.toNat
      ∨ op = .pnot ∧ v = ~~~(pGet ((tileOf s t).ctxOf e.by_.ctx) e.w.a.toNat)) →
    ∃ s', exec (.veEntryExecute t) s = .next s' ∧ veFrame s s' t e rest ∧ (tileOf s' t).vreg = (tileOf s t).vreg
      ∧ ((tileOf s' t).ctxOf e.by_.ctx).x = ((tileOf s t).ctxOf e.by_.ctx).x
      ∧ ∀ q, pGet ((tileOf s' t).ctxOf e.by_.ctx) q = if q = e.w.d.toNat ∧ q ≠ 0 then v else pGet ((tileOf s t).ctxOf e.by_.ctx) q)
  ∧ (∀ (t : TileId) (s : State) (e : VeEntry) (rest : List VeEntry), veReady s t e rest → e.op = .pget →
    ∃ s', exec (.veEntryExecute t) s = .next s' ∧ veFrame s s' t e rest ∧ (tileOf s' t).vreg = (tileOf s t).vreg
      ∧ ∀ q, xGet ((tileOf s' t).ctxOf e.by_.ctx) q
          = if q = e.w.d ∧ q ≠ 0 then pGet ((tileOf s t).ctxOf e.by_.ctx) e.w.a.toNat else xGet ((tileOf s t).ctxOf e.by_.ctx) q)
  ∧ (∀ (t : TileId) (s : State) (e : VeEntry) (rest : List VeEntry), veReady s t e rest → e.op = .ldv → e.addr + 256 ≤ 0x600000 →
    wordsClean s t e.by_.ctx e.addr 256 = true →
    ∃ s', exec (.veEntryExecute t) s = .next s' ∧ veFrame s s' t e rest
      ∧ ∀ q k : Nat, k < 64 → vGet (tileOf s' t) q k
          = if q = e.w.d.toNat then BitVec.ofNat 32 (leNat (tileBytes s t (some e.by_.ctx) (e.addr + 4 * k) 4)) else vGet (tileOf s t) q k)
  ∧ (∀ (t : TileId) (s : State) (e : VeEntry) (rest : List VeEntry), veReady s t e rest → e.op = .stv → e.addr % 256 = 0 → e.addr + 256 ≤ 0x600000 →
    keepBlocks s t e.addr 256 = false → s.ecc = [] →
    ∃ s', exec (.veEntryExecute t) s = .next s' ∧ (tileOf s' t).q = { (tileOf s t).q with ve := rest } ∧ sameRegs s s' t
      ∧ (∀ j, j < 256 → readByte s' (tilePlace s t (some e.by_.ctx) (e.addr + j)) = vByte (tileOf s t) e.w.b.toNat j)
      ∧ ∀ a, (∀ j, j < 256 → a ≠ tilePlace s t (some e.by_.ctx) (e.addr + j)) → readByte s' a = readByte s a)

/-- The pairwise sum of 2^n values: the halves' sums combined (R93). -/
def pairwise {α : Type} (f : α → α → α) : Nat → (Nat → α) → α
  | 0, v => v 0
  | n + 1, v => pairwise f n (fun k => f (v (2 * k)) (v (2 * k + 1)))

/-- A pair as VRED_CPSUM writes it: hi in [31:0] and lo in [63:32] (R138). -/
def packPair (p : Nat × Nat) : Word := BitVec.ofNat 64 (p.1 + p.2 * 2 ^ 32)

/-- VRED sums the active lanes pairwise into xd with -0 for the others, VRED_OR ORs them, and VCVT rewrites elements of vd alone
(05_ramyr_isa.md R138, 05_ramyr_isa.md R139, 03_number_formats.md R93). -/
def Obligations.ReductionsAndConversionsExecute : Prop :=
  (∀ (t : TileId) (s : State) (e : VeEntry) (rest : List VeEntry) (v : Word), veReady s t e rest →
    (e.op = .red ∧ v = BitVec.ofNat 64 (pairwise (fun a b => (add32 .rne a b).1) 6 (fun k => if activeAt s t e k then laneOf s t e.w.a k else 0x80000000))
      ∨ e.op = .redOr ∧ v = BitVec.ofNat 64 (((List.range 64).filter (fun k => activeAt s t e k)).foldl (fun a k => a ||| laneOf s t e.w.a k) 0)
      ∨ e.op = .redCpsum ∧ v = packPair (pairwise (fun (a b : Nat × Nat) => ((cpadd32 a.1 a.2 b.1 b.2).hi, (cpadd32 a.1 a.2 b.1 b.2).lo)) 6
          (fun k => if activeAt s t e k then (laneOf s t e.w.a k, (vGet (tileOf s t) (e.w.a.toNat + 1) k).toNat) else (0x80000000, 0)))
      ∨ e.op = .redMax ∧ (∀ k, k < 64 → activeAt s t e k = false) ∧ v = 0xFF800000
      ∨ e.op = .redMin ∧ (∀ k, k < 64 → activeAt s t e k = false) ∧ v = 0x7F800000) →
    ∃ s', exec (.veEntryExecute t) s = .next s' ∧ veFrame s s' t e rest ∧ (tileOf s' t).vreg = (tileOf s t).vreg
      ∧ ∀ q, xGet ((tileOf s' t).ctxOf e.by_.ctx) q = if q = e.w.d ∧ q ≠ 0 then v else xGet ((tileOf s t).ctxOf e.by_.ctx) q)
  ∧ (∀ (t : TileId) (s : State) (e : VeEntry) (rest : List VeEntry), veReady s t e rest → e.op = .cvt →
    e.w.sfmt = 0 → e.w.dfmt = 0 → e.w.spos = 0 → e.w.dpos = 0 → e.w.rnd = 0 →
    ∃ s', exec (.veEntryExecute t) s = .next s' ∧ veFrame s s' t e rest
      ∧ ∀ q k : Nat, k < 64 → vGet (tileOf s' t) q k
          = if q = e.w.d.toNat ∧ activeAt s t e k = true
            then BitVec.ofNat 32 (convPlain .fp32 .rne e.w.sat 0 (decodeFp fmt32 (laneOf s t e.w.a k))).1 else vGet (tileOf s t) q k)

/-- The tensor instructions with the must-be-zero check of their fields, the faults of their descriptors (C, A, B) and their operation (R98,
R101, R104). -/
def teRows : List ((TileId → IWord → Instr) × (IWord → Bool) × (TensorDesc → TensorDesc → TensorDesc → Option Nat) × TeOp) := [
  (.tmul, fun w => is3 w.a && is3 w.b && decide (w.ext = 0), mulFault false, .tmul),
  (.tmuls, fun w => is3 w.a && is3 w.b && decide (w.ext = 0), mulFault true, .tmuls),
  (.tzero, fun w => decide (w.a = 0 ∧ w.b = 0 ∧ w.ext = 0), fun c _ _ => zeroFault c, .tzero),
  (.tstore, fun w => is3 w.a && decide (w.b = 0 ∧ w.extBits 31 7 = 0), fun c d _ => storeFault c d, .tstore)]

/-- A tensor descriptor register of the issuing context. -/
def tdNow (s : State) (t : TileId) (r : BitVec 5) : TensorDesc := tdGet (selCtx s t) r.toNat

/-- An instruction that enters the TE queue: the entry stands at its end, the tile asks for a start token where it has none, and beside that only
the context's index, the issue number and the accounting change. -/
def entersTe (s s' : State) (t : TileId) (e : TeEntry) : Prop :=
  sameModule s s' t ∧ sameMemory s s' ∧ sameRegs s s' t ∧ wentTo s s' t ((selCtx s t).pc + 1) ∧ (tileOf s' t).seq = (tileOf s t).seq + 1
    ∧ (tileOf s' t).q = { (tileOf s t).q with te := (tileOf s t).q.te ++ [e] } ∧ (tileOf s' t).coll = (tileOf s t).coll
    ∧ (tileOf s' t).vreg = (tileOf s t).vreg ∧ (tileOf s' t).banks = (tileOf s t).banks
    ∧ (tileOf s' t).tokReq = (if holdsToken s t = true then (tileOf s t).tokReq else some ((tileOf s t).tokReq.getD s.vco))

/-- TMUL, TMULS, TZERO and TSTORE complete: TMUL, TMULS, TZERO and TSTORE enter the TE queue with their descriptors as at issue, or fault as Table 4.2
says (04_tensor_sparsity.md R98, 04_tensor_sparsity.md R101, 04_tensor_sparsity.md R104, 05_ramyr_isa.md R127, 04_tensor_sparsity.md Table 4.2). -/
def Obligations.TensorInstructionsEnterTheTeQueue : Prop :=
  ∀ r ∈ teRows, ∀ (t : TileId) (w : IWord) (s : State), issues s t [] = true → w.c = 0 → is3 w.d = true →
    (r.2.1 w = false → ∃ s', exec (r.1 t w) s = .next s' ∧ faultsAtIssue s s' t 0x10)
    ∧ (r.2.1 w = true →
      (∀ code, r.2.2.1 (tdNow s t w.d) (tdNow s t w.a) (tdNow s t w.b) = some code →
        ∃ s', exec (r.1 t w) s = .next s' ∧ faultsAtIssue s s' t (BitVec.ofNat 8 code))
      ∧ (r.2.2.1 (tdNow s t w.d) (tdNow s t w.a) (tdNow s t w.b) = none → (tileOf s t).q.te.length < 16 →
        ∃ s', exec (r.1 t w) s = .next s' ∧ entersTe s s' t
          ⟨issuerOf s t, r.2.2.2, tdNow s t w.d, tdNow s t w.a, tdNow s t w.b, w.lc, w.lcEn && decide (r.2.2.2 = .tstore)⟩)
      ∧ (r.2.2.1 (tdNow s t w.d) (tdNow s t w.a) (tdNow s t w.b) = none → 16 ≤ (tileOf s t).q.te.length →
        ∃ s', exec (r.1 t w) s = .next s' ∧ issuerIn s s' t = selCtx s t ∧ (tileOf s' t).q = (tileOf s t).q ∧ sameMemory s s'))

/-- TDSET and TDGET complete: TDSET writes the named fields of both words of a descriptor register without a check, and TDGET reads the word its EXT bit
names into xd (05_ramyr_isa.md R141, 04_tensor_sparsity.md R100, 00_scope.md R12). -/
def Obligations.DescriptorRegistersAreWrittenAndRead : Prop :=
  (∀ (t : TileId) (w : IWord) (s : State), w.c = 0 → w.ext = 0 → issues s t [w.a, w.b] = true →
    (is3 w.d = true → ∃ s', exec (.tdset t w) s = .next s' ∧ coreFrame s s' t
      ∧ issuerIn s s' t = { selCtx s t with pc := (selCtx s t).pc + 1, td := (issuerIn s s' t).td }
      ∧ ∀ r, tdGet (issuerIn s s' t) r = if r = w.d.toNat then ⟨xNow s t w.a &&& 0xFFFFFFFFFFF, xNow s t w.b &&& 0x3FFFFFFFFFFF⟩ else tdGet (selCtx s t) r)
    ∧ (is3 w.d = false → ∃ s', exec (.tdset t w) s = .next s' ∧ faultsAtIssue s s' t 0x10))
  ∧ (∀ (t : TileId) (w : IWord) (s : State), w.c = 0 → w.b = 0 → issues s t [w.d] = true →
    (is3 w.a = true → w.ext = 0 → ∃ s', exec (.tdget t w) s = .next s' ∧ coreFrame s s' t
      ∧ wroteX s s' t w.d (tdNow s t w.a).w0 ((selCtx s t).pc + 1))
    ∧ (is3 w.a = true → w.ext = 1 → ∃ s', exec (.tdget t w) s = .next s' ∧ coreFrame s s' t
      ∧ wroteX s s' t w.d (tdNow s t w.a).w1 ((selCtx s t).pc + 1))
    ∧ (is3 w.a = false → ∃ s', exec (.tdget t w) s = .next s' ∧ faultsAtIssue s s' t 0x10))

/-- The tiles of a die in the order in which the next grant considers them: ascending from after the last one granted, wrapping (R118). -/
def tokenOrder (s : State) (d : ComputeDie) : List Nat := (List.range 144).map (fun k => ((dieOf s d).tokenLast + 1 + k) % 144)

/-- A tile asks for a start token: it is good, its TE queue holds an entry, and it has none. -/
def asksToken (s : State) (d : ComputeDie) (i : Nat) : Bool :=
  goodTile s (d.val * 144 + i) && decide ((tileOf s (d.val * 144 + i)).q.te ≠ []) && !((dieOf s d).tokens.contains i)

/-- START_TOKEN_GRANT and START_TOKEN_RELEASE complete: each 125 ns a die grants start tokens to at most STARTS asking tiles in rotating order, and an
idle tile gives its token back after HOLD (04_tensor_sparsity.md R118, 04_tensor_sparsity.md R119). -/
def Obligations.StartTokensAreGrantedInRotation : Prop :=
  (∀ (d : ComputeDie) (s : State), ∃ s', exec (.startTokenGrant d) s = .next s' ∧ sameMemory s s' ∧ s'.ports = s.ports ∧ s'.m = s.m
    ∧ (dieOf s' d).tokens = (dieOf s d).tokens ++ ((tokenOrder s d).filter (asksToken s d)).take (ceilDiv (goodTiles s d).length 16)
    ∧ (dieOf s' d).grantAt = max (dieOf s d).grantAt (ceilDiv s.now 125 * 125) + 125
    ∧ ∀ e : DieId, e.val ≠ d.val → dieOf s' e = dieOf s e)
  ∧ (∀ (t : TileId) (s : State),
    (holdsToken s t = true → (tileOf s t).q.te = [] → (tileOf s t).q.teExec = [] →
      ∃ s', exec (.startTokenRelease t) s = .next s'
        ∧ (dieOf s' (t.val / 144)).tokens = (dieOf s (t.val / 144)).tokens.filter (fun i => decide (i ≠ t.val % 144))
        ∧ s'.vco = max s.vco (spGet (dieOf s (t.val / 144)).holdEnd 0 (t.val % 144)) ∧ s'.tiles = s.tiles ∧ s'.regs = s.regs ∧ s'.cells = s.cells)
    ∧ (((tileOf s t).q.te ≠ [] ∨ (tileOf s t).q.teExec ≠ [] ∨ holdsToken s t = false) → exec (.startTokenRelease t) s = .next s))

/-- The tile can start its head TE entry: it holds a start token and its scope is open. -/
def teReady (s : State) (t : TileId) (e : TeEntry) (rest : List TeEntry) : Prop :=
  (tileOf s t).q.te = e :: rest ∧ holdsToken s t = true ∧ scopeOpen s t = true

/-- Element (i, j) of C after a dense multiply: reduction blocks of four in ascending order, each added with one rounding after the exact sum of
its products was rounded once (R99). -/
def denseElement (s : State) (t : TileId) (e : TeEntry) (i j : Nat) : Nat :=
  ((List.range (e.a.cols / 4)).foldl (fun acc kb => macBlock acc
    ((List.range 4).map (fun r => denseAt s t (some e.by_.ctx) e.a i (4 * kb + r)))
    ((List.range 4).map (fun r => some (denseAt s t (some e.by_.ctx) e.b (4 * kb + r) j)))) (cAt s t e.c i j, 0)).1

/-- A TSTORE under way beside which a multiply into another bank starts (R104). -/
def runsBeside (e : TeEntry) (x : TeExec) : Bool := decide (x.entry.op = .tstore ∧ (e.op = .tmul ∨ e.op = .tmuls) ∧ x.bank ≠ e.c.bank)

/-- The instant at which the occupancy of every started entry has ended that an entry starts after. -/
def teFree (s : State) (t : TileId) (e : TeEntry) : Nat :=
  ((tileOf s t).q.teExec.filter (fun x => !(runsBeside e x))).foldl (fun m x => max m x.ends) s.vco

/-- An entry's occupancy has started: it has left the queue and holds its bank until `occ` CCLK after the ones before it. -/
def startedTe (s s' : State) (t : TileId) (e : TeEntry) (rest : List TeEntry) (occ : Nat) : Prop :=
  (tileOf s' t).q.te = rest ∧ s'.vco = teFree s t e
    ∧ (tileOf s' t).q.teExec = (tileOf s t).q.teExec ++ [⟨e, e.c.bank, teFree s t e + occ * cclk s t⟩]

/-- TE_OCCUPANCY_START and TE_COMPLETION complete: a TE entry starts with a token: TMUL computes C in the fixed order, TZERO clears and TSTORE copies it;
completion frees the bank (04_tensor_sparsity.md R99, 04_tensor_sparsity.md R102, 04_tensor_sparsity.md R103, 04_tensor_sparsity.md R104,
04_tensor_sparsity.md R118). -/
def Obligations.TensorEntriesStartAndComplete : Prop :=
  (∀ (t : TileId) (s : State) (e : TeEntry) (rest : List TeEntry), teReady s t e rest → s.ecc = [] → e.op = .tmul → mulFault false e.c e.a e.b = none →
    e.a.abm = false → teFormatW e.b.fmt = false →
    ∃ s', exec (.teOccupancyStart t) s = .next s'
      ∧ startedTe s s' t e rest (max 1 (ceilDiv (e.a.rows / 4 * (e.a.cols / 4) * (e.b.cols / 4)) (if e.a.fmt ≤ 1 ∨ e.b.fmt ≤ 1 then 32 else 64)))
      ∧ ∀ i j, i < e.c.rows → j < e.c.cols → cAt s' t e.c i j = denseElement s t e i j)
  ∧ (∀ (t : TileId) (s : State) (e : TeEntry) (rest : List TeEntry), teReady s t e rest → e.op = .tzero → zeroFault e.c = none →
    ∃ s', exec (.teOccupancyStart t) s = .next s' ∧ startedTe s s' t e rest (ceilDiv (e.c.rows * e.c.cols * 4) 1024)
      ∧ ∀ i j, i < e.c.rows → j < e.c.cols → cAt s' t e.c i j = 0)
  ∧ (∀ (t : TileId) (s : State) (e : TeEntry) (rest : List TeEntry), teReady s t e rest → s.ecc = [] → e.op = .tstore → storeFault e.c e.a = none →
    (∀ r, r < e.a.stored.1 → keepBlocks s t (e.a.base + r * e.a.stride) e.a.stored.2 = false) →
    ∃ s', exec (.teOccupancyStart t) s = .next s' ∧ startedTe s s' t e rest (ceilDiv (e.c.rows * e.c.cols * 4) 256)
      ∧ ∀ i j, i < e.c.rows → j < e.c.cols → leNat (tileBytes s' t (some e.by_.ctx) (e.a.at i j) 4) = cAt s t e.c i j)
  ∧ (∀ (t : TileId) (s : State), holdsToken s t = false → exec (.teOccupancyStart t) s = .next s)
  ∧ (∀ (t : TileId) (s : State) (x : TeExec), (tileOf s t).q.teExec = [x] → clockOn s t = true → armedEntries s t = [] →
    ∃ s', exec (.teCompletion t) s = .next s' ∧ (tileOf s' t).q.teExec = [] ∧ s'.vco = max s.vco (x.ends + 20 * cclk s t) ∧ s'.cells = s.cells
      ∧ ∀ k, k < 64 → cntOf s' t k = if x.entry.cntEn = true ∧ k = x.entry.cnt.toNat then (cntOf s t k + 1) % 2 ^ 32 else cntOf s t k)

/-- Format X with only the EXT bits `hi` and below, and the fields named free, allowed to be nonzero. -/
def xForm (w : IWord) (top : Nat) : Prop := w.b = 0 ∧ w.c = 0 ∧ w.ext.toNat < 2 ^ top

/-- The context waits on a condition and nothing else changes but the accounting. -/
def waitsOn (s s' : State) (t : TileId) (x : Wait) : Prop :=
  issuerIn s s' t = { selCtx s t with st := .waiting, wait := some x } ∧ coreFrame s s' t

/-- The entries of every engine queue have completed. -/
def nothingOutstanding (s : State) (t : TileId) : Bool := allUnits.all (fun u => (outstanding (tileOf s t) u).isEmpty)

/-- The issuing context has ended (R147): DONE with its index kept. -/
def endedCtx (s s' : State) (t : TileId) : Prop := issuerIn s s' t = { selCtx s t with st := .done, wait := none }

/-- NOP, END, CTXSW, CTXYIELD, SRD and BRK complete: NOP, END, CTXSW, CTXYIELD, SRD and BRK do what R40, R41, R125 and R147 say (02_tiles_scratchpad.md
R40, 02_tiles_scratchpad.md R41, 05_ramyr_isa.md R147, 05_ramyr_isa.md R125, 05_ramyr_isa.md Table 5.3). -/
def Obligations.ContextInstructions : Prop :=
  (∀ (t : TileId) (w : IWord) (s : State), xForm w 0 → w.d = 0 → w.a = 0 → issues s t [] = true →
    (∃ s', exec (.nop t w) s = .next s' ∧ coreFrame s s' t ∧ wentTo s s' t ((selCtx s t).pc + 1))
    ∧ (∃ s', exec (.brk t w) s = .next s' ∧ faultsAtIssue s s' t 0x1C)
    ∧ (nothingOutstanding s t = true → ∃ s', exec (.endCtx t w) s = .next s' ∧ endedCtx s s' t ∧ sameMemory s s')
    ∧ ((tileOf s t).q.ve.any (fun e => decide (e.by_.ctx = (tileOf s t).sel)) = true → ∃ s', exec (.endCtx t w) s = .next s' ∧ waitsOn s s' t .endCtx)
    ∧ ((∀ c, c ≠ (tileOf s t).sel → ((tileOf s t).ctxOf c).st ≠ .ready) →
      ∃ s', exec (.ctxyield t w) s = .next s' ∧ coreFrame s s' t ∧ wentTo s s' t ((selCtx s t).pc + 1))
    ∧ (∀ c : CtxId, nextReady (tileOf s t) = some c → ∃ s', exec (.ctxyield t w) s = .next s' ∧ (tileOf s' t).sel = c
      ∧ (tileOf s' t).ctxOf c = { (tileOf s t).ctxOf c with st := .running }
      ∧ issuerIn s s' t = { selCtx s t with st := .ready, pc := (selCtx s t).pc + 1 } ∧ sameMemory s s' ∧ sameModule s s' t))
  ∧ (∀ (t : TileId) (w : IWord) (s : State) (c : CtxId), xForm w 2 → w.d = 0 → w.a = 0 → w.ext.toNat = c.val → issues s t [] = true →
    (c = (tileOf s t).sel → ∃ s', exec (.ctxsw t w) s = .next s' ∧ coreFrame s s' t ∧ wentTo s s' t ((selCtx s t).pc + 1))
    ∧ (((tileOf s t).ctxOf c).st = .ready → ∃ s', exec (.ctxsw t w) s = .next s' ∧ (tileOf s' t).sel = c
      ∧ (tileOf s' t).ctxOf c = { (tileOf s t).ctxOf c with st := .running }
      ∧ issuerIn s s' t = { selCtx s t with st := .ready, pc := (selCtx s t).pc + 1 } ∧ sameMemory s s' ∧ sameModule s s' t)
    ∧ ((((tileOf s t).ctxOf c).st = .idle ∨ ((tileOf s t).ctxOf c).st = .done ∨ ((tileOf s t).ctxOf c).st = .faulted) →
      ∃ s', exec (.ctxsw t w) s = .next s' ∧ faultsAtIssue s s' t 0x06))
  ∧ (∀ (t : TileId) (w : IWord) (s : State) (v : Word), xForm w 12 → w.a = 0 → issues s t [w.d] = true →
    (w.ext = 0 ∧ v = BitVec.ofNat 64 (tileOf s t).sel.val ∨ w.ext = 2 ∧ v = BitVec.ofNat 64 (cycleOf s t)
      ∨ w.ext = 3 ∧ v = BitVec.ofNat 64 (gtimeOf s (t.val / 144)) ∨ w.ext = 4 ∧ v = (tileOf s t).epSeq.setWidth 64
      ∨ w.ext = 5 ∧ v = (tileOf s t).epLast ∨ w.ext = 6 ∧ v = (tileOf s t).invoc →
      ∃ s', exec (.srd t w) s = .next s' ∧ coreFrame s s' t ∧ wroteX s s' t w.d v ((selCtx s t).pc + 1))
    ∧ ((w.ext = 1 ∨ 6 < w.ext.toNat) → ∃ s', exec (.srd t w) s = .next s' ∧ faultsAtIssue s s' t 0x10))

/-- A wait instruction has ended in its own cycle: the context goes on at the next index, waiting for nothing. -/
def wentOn (s s' : State) (t : TileId) : Prop := issuerIn s s' t = { selCtx s t with pc := (selCtx s t).pc + 1, st := .running, wait := none }

/-- The same with xd holding a value. -/
def wentOnWith (s s' : State) (t : TileId) (d : BitVec 5) (v : Word) : Prop :=
  issuerIn s s' t = { selCtx s t with pc := (selCtx s t).pc + 1, st := .running, wait := none, x := (issuerIn s s' t).x }
    ∧ ∀ r, xGet (issuerIn s s' t) r = if r = d ∧ r ≠ 0 then v else xGet (selCtx s t) r

/-- NWAIT, FENCE, QWAIT, FLRD, FLCLR and EPWAIT complete in their cycle, with their effect, in every state in which their condition holds, and
wait otherwise (02_tiles_scratchpad.md
R39, 05_ramyr_isa.md R144, 05_ramyr_isa.md R145, 05_ramyr_isa.md R146, 05_ramyr_isa.md R148, 03_number_formats.md R95). -/
def Obligations.WaitInstructionsBlockUntilTheirConditionHolds : Prop :=
  (∀ (t : TileId) (w : IWord) (s : State), w.d = 0 → w.ext.toNat < 2 ^ 7 → issues s t [w.a] = true →
    ((xNow s t w.a).toNat % 2 ^ 32 ≤ cntOf s t (w.ext.toNat % 64) →
      ∃ s', exec (.nwait t w) s = .next s' ∧ wentOn s s' t ∧ sameMemory s s' ∧ sameModule s s' t ∧ sameTile s s' t
        ∧ ∀ k, k < 64 → cntOf s' t k
          = if k = w.ext.toNat % 64 ∧ w.ext.toNat / 64 = 1 then cntOf s t k - (xNow s t w.a).toNat % 2 ^ 32 else cntOf s t k)
    ∧ (cntOf s t (w.ext.toNat % 64) < (xNow s t w.a).toNat % 2 ^ 32 → ∃ s', exec (.nwait t w) s = .next s'
      ∧ waitsOn s s' t (.nwait (BitVec.ofNat 6 w.ext.toNat) ((xNow s t w.a).setWidth 32) (decide (w.ext.toNat / 64 = 1)))))
  ∧ (∀ (t : TileId) (w : IWord) (s : State), w.d = 0 → w.a = 0 → w.b = 0 → w.c = 0 → issues s t [] = true →
    (w.ext.toNat < 16 → ((tileOf s t).q.merge = [] ∨ (w.ext ≠ 0 ∧ w.ext.getLsbD 2 = false)) →
      (doneBefore (tileOf s t) (maskUnits w.ext.toNat) (tileOf s t).seq = true →
        ∃ s', exec (.fence t w) s = .next s' ∧ coreFrame s s' t ∧ wentOn s s' t)
      ∧ (doneBefore (tileOf s t) (maskUnits w.ext.toNat) (tileOf s t).seq = false →
        ∃ s', exec (.fence t w) s = .next s' ∧ waitsOn s s' t (.fence (BitVec.ofNat 4 w.ext.toNat) (tileOf s t).seq)))
    ∧ (∀ sel q n : Nat, sel ≤ 4 → q < 16 → (sel = 4 ∨ q = 0) → n ≤ 16 → w.ext.toNat = sel + q * 8 + n * 128 →
      ((tileOf s t).q.merge = [] ∨ sel ≠ 4) →
      (qCount (tileOf s t) sel q ≤ n → ∃ s', exec (.qwait t w) s = .next s' ∧ coreFrame s s' t ∧ wentOn s s' t)
      ∧ (n < qCount (tileOf s t) sel q → ∃ s', exec (.qwait t w) s = .next s'
        ∧ waitsOn s s' t (.qwait (BitVec.ofNat 3 sel) (BitVec.ofNat 4 q) (BitVec.ofNat 5 n))))
    ∧ (∀ (e : FlagEngine) (mask : Nat), mask < 32 → w.ext.toNat = e.code + mask * 8 → doneBefore (tileOf s t) (engineUnits e.code) (tileOf s t).seq = true →
      ∃ s', exec (.flclr t w) s = .next s' ∧ wentOn s s' t ∧ sameMemory s s' ∧ sameTile s s' t
        ∧ flagsOf s' t e = flagsOf s t e &&& (31 - (mask &&& (31 - (if e.code < 3 then 0 else raisedNow s t e % 32)))) ∧ ∀ f, f ≠ e → flagsOf s' t f = flagsOf s t f))
  ∧ (∀ (t : TileId) (w : IWord) (s : State), w.a = 0 → w.b = 0 → w.c = 0 → w.ext.toNat ≤ 5 → issues s t [w.d] = true →
    doneBefore (tileOf s t) (engineUnits w.ext.toNat) (tileOf s t).seq = true → ∀ v : Word,
    ((∃ e : FlagEngine, w.ext.toNat = e.code ∧ v = BitVec.ofNat 64 (flagsOf s t e)) ∨ w.ext = 5 ∧ v = BitVec.ofNat 64 (flagsAny s t)) →
    ∃ s', exec (.flrd t w) s = .next s' ∧ coreFrame s s' t ∧ wentOnWith s s' t w.d v)
  ∧ (∀ (t : TileId) (w : IWord) (s : State), w.ext = 0 → w.b = 0 → w.c = 0 → issues s t [w.d, w.a] = true →
    (((tileOf s t).epSeq - (xNow s t w.a).setWidth 32).toNat < 2 ^ 31 →
      ∃ s', exec (.epwait t w) s = .next s' ∧ coreFrame s s' t ∧ wentOnWith s s' t w.d (tileOf s t).epLast)
    ∧ (2 ^ 31 ≤ ((tileOf s t).epSeq - (xNow s t w.a).setWidth 32).toNat →
      ∃ s', exec (.epwait t w) s = .next s' ∧ waitsOn s s' t (.epwait ((xNow s t w.a).setWidth 32) w.d)))

/-- The selected context waits on a condition that holds, or does not. -/
def waitingOn (s : State) (t : TileId) (x : Wait) (met : Bool) : Prop :=
  (selCtx s t).st = .waiting ∧ (selCtx s t).wait = some x ∧ waitMet s t (tileOf s t).sel x = met

/-- The waiting context runs again after its wait, with its registers as `x` has them. -/
def resumed (s s' : State) (t : TileId) : Prop :=
  (issuerIn s s' t).st = .running ∧ (issuerIn s s' t).wait = none ∧ (issuerIn s s' t).pc = (selCtx s t).pc + 1 ∧ sameMemory s s' ∧ sameModule s s' t

/-- NWAIT_MET, QUEUE_WAIT_MET and EPWAIT_MET complete in every state: the waiting context goes on with its instruction's effect when its condition
holds, and nothing changes when it does not (02_tiles_scratchpad.md R39, 05_ramyr_isa.md R144, 05_ramyr_isa.md R145, 05_ramyr_isa.md R148). -/
def Obligations.WaitsEndWhenTheirConditionHolds : Prop :=
  (∀ (t : TileId) (s : State) (k : BitVec 6) (th : Lane) (c : Bool), (waitingOn s t (.nwait k th c) true →
      ∃ s', exec (.nwaitMet t) s = .next s' ∧ resumed s s' t ∧ (issuerIn s s' t).x = (selCtx s t).x
        ∧ cntOf s' t k.toNat = if c then cntOf s t k.toNat - th.toNat else cntOf s t k.toNat)
    ∧ (waitingOn s t (.nwait k th c) false → exec (.nwaitMet t) s = .next s))
  ∧ (∀ (t : TileId) (s : State) (x : Wait), ((∃ a b n, x = .qwait a b n) ∨ ∃ m u, x = .fence m u) →
    (waitingOn s t x true → ∃ s', exec (.queueWaitMet t) s = .next s' ∧ resumed s s' t ∧ (issuerIn s s' t).x = (selCtx s t).x)
    ∧ (waitingOn s t x false → exec (.queueWaitMet t) s = .next s))
  ∧ (∀ (t : TileId) (s : State) (e : BitVec 3) (xd : BitVec 5) (u : Nat) (g : FlagEngine), e.toNat = g.code → waitingOn s t (.flrd e xd u) true →
    ∃ s', exec (.queueWaitMet t) s = .next s' ∧ resumed s s' t
      ∧ xGet (issuerIn s s' t) xd = if xd = 0 then 0 else BitVec.ofNat 64 (flagsOf s t g))
  ∧ (∀ (t : TileId) (s : State), waitingOn s t .endCtx true → ∃ s', exec (.queueWaitMet t) s = .next s' ∧ endedCtx s s' t)
  ∧ (∀ (t : TileId) (s : State) (n : Lane) (xd : BitVec 5), (waitingOn s t (.epwait n xd) true →
      ∃ s', exec (.epwaitMet t) s = .next s' ∧ resumed s s' t ∧ xGet (issuerIn s s' t) xd = if xd = 0 then 0 else (tileOf s t).epLast)
    ∧ (waitingOn s t (.epwait n xd) false → exec (.epwaitMet t) s = .next s))

/-- TILE_WATCHDOG_EXPIRY, T1_ENTRY, SNAP and CLR complete: the watchdog sets WDOG and reports after LIMIT, an idle tile gates its clock after 64
CCLK, and SNAP and CLR copy and clear the counters, a CCLK in progress that is already counted after the clear (02_tiles_scratchpad.md R70, 02_tiles_scratchpad.md R69, 11_bringup_reset_repair.md R302, 11_bringup_reset_repair.md Table 11.6). -/
def Obligations.WatchdogClockGateAndStallCounters : Prop :=
  (∀ (t : TileId) (s : State),
    ((tileOf s t).running = true → ((selCtx s t).st = .running ∨ (selCtx s t).st = .waiting) → pauses (tileOf s t).cause.code = false →
      ∃ s', exec (.tileWatchdogExpiry t) s = .next s' ∧ fld s' (tileReg t 8) 8 8 = 1 ∧ sameMemory s s'
        ∧ fld s (tileReg t 0x208) 35 0 < (s'.vco - (tileOf s' t).issuedAt) * 5 / 28
        ∧ ∀ p, partOfDie s (t.val / 144) = some p → ∃ r ∈ (nodeOf s' t).reports, r.what = .watchdog)
    ∧ ((tileOf s t).running = false → exec (.tileWatchdogExpiry t) s = .next s))
  ∧ (∀ (t : TileId) (s : State),
    (nothingOutstanding s t = true → (tileOf s t).core = none → ∃ s', exec (.t1Entry t) s = .next s'
      ∧ tileOf s' t = { tileOf s t with t1 := true } ∧ s'.vco = max s.vco ((tileOf s t).issuedAt + 64 * cclk s t) ∧ s'.regs = s.regs ∧ s'.cells = s.cells)
    ∧ (nothingOutstanding s t = false → exec (.t1Entry t) s = .next s))
  ∧ (∀ (t : TileId) (s : State),
    (clusterState s (t.val / 144) (clusterOf (t.val % 144)) ≠ 3 →
      (∃ s', exec (.snap t) s = .next s' ∧ sameMemory s s' ∧ ∀ i, i < 16 → rd s' (tileReg t (0x380 + 8 * i)) = rd s' (stallCnt t i))
      ∧ ∃ s', exec (.clr t) s = .next s' ∧ sameMemory s s' ∧ (∀ i, 0 < i → i < 16 → i ≠ 10 → rd s' (stallCnt t i) = 0)
        ∧ (((tileOf s t).running = false ∨ (tileOf s t).stallAt ≤ s.vco) → ∀ i, i < 16 → rd s' (stallCnt t i) = 0))
    ∧ (clusterState s (t.val / 144) (clusterOf (t.val % 144)) = 3 → exec (.snap t) s = .next s ∧ exec (.clr t) s = .next s))

/-- The shunter instructions with the OP code they name (R142). -/
def shRows3 : List ((TileId → IWord → Instr) × BitVec 4) := [(.shmv, 0), (.shgather, 1), (.shscatter, 2)]

/-- The descriptor that stands at a scratchpad offset, as an entry of the issuing context (R127). -/
def shEntryAt (s : State) (t : TileId) (op : BitVec 4) (q : Fin 16) (a : Nat) : ShIssue :=
  let wd (k : Nat) : Word := BitVec.ofNat 64 (leNat (tileBytes s t (some (tileOf s t).sel) (a + 8 * k) 8))
  ⟨issuerOf s t, op, q, a, wd 0, wd 1, wd 2, wd 3⟩

/-- A queue of the shunter is not halted (R64). -/
def shOpen (s : State) (t : TileId) (q : Fin 16) : Bool := !((tileOf s t).q.halted.getLsbD q.val)

/-- A queue has halted for a reason (R64): its descriptors are gone, HALT is set for it, SHNT_DESC stands in TILE_EVENT, and the issuer has
faulted where it could still run. -/
def haltedFor (s s' : State) (t : TileId) (q : Fin 16) (e : ShIssue) (why : Nat) : Prop :=
  shqOf s' t q = [] ∧ (tileOf s' t).q.halted = (tileOf s t).q.halted ||| BitVec.ofNat 16 (2 ^ q.val)
    ∧ fld s' (tileReg t 8) 7 7 = 1 ∧ bit (rd s' (tileReg t 0x408)) (16 + q.val) = true
    ∧ (fld s (tileReg t 0x408) 31 16 = 0 → fld s' (tileReg t 0x408) 35 32 = q.val ∧ fld s' (tileReg t 0x408) 39 36 = why)
    ∧ (((tileOf s t).ctxOf e.by_.ctx).st.live = true →
      ((tileOf s' t).ctxOf e.by_.ctx).st = .faulted ∧ ((tileOf s' t).ctxOf e.by_.ctx).fcode = 0x07
        ∧ ((tileOf s' t).ctxOf e.by_.ctx).pc = e.by_.index)

/-- SHMV, SHGATHER and SHSCATTER complete: they read their 32-byte descriptor at issue and queue it to the queue they name; a halted queue faults
them
(05_ramyr_isa.md R142, 05_ramyr_isa.md R127, 02_tiles_scratchpad.md R65, 02_tiles_scratchpad.md R64). -/
def Obligations.ShunterInstructionsQueueTheirDescriptor : Prop :=
  ∀ r ∈ shRows3, ∀ (t : TileId) (w : IWord) (s : State) (q : Fin 16), w.d = 0 → w.b = 0 → w.c = 0 → w.ext.toNat = q.val →
    issues s t [w.a] = true → (tileOf s t).q.sh = [] → (xNow s t w.a).toNat % 32 = 0 → (xNow s t w.a).toNat + 32 ≤ 0x600000 →
    wordsClean s t (tileOf s t).sel (xNow s t w.a).toNat 32 = true →
    (shOpen s t q = true → (shqOf s t q).length < 8 → ∃ s', exec (r.1 t w) s = .next s' ∧ sameMemory s s'
      ∧ wentTo s s' t ((selCtx s t).pc + 1) ∧ (tileOf s' t).q.sh = []
      ∧ (shqOf s' t q).map (fun d => d.issue) = (shqOf s t q).map (fun d => d.issue) ++ [shEntryAt s t r.2 q (xNow s t w.a).toNat]
      ∧ ∀ p : Fin 16, p ≠ q → shqOf s' t p = shqOf s t p)
    ∧ (shOpen s t q = true → 8 ≤ (shqOf s t q).length → ∃ s', exec (r.1 t w) s = .next s' ∧ sameMemory s s'
      ∧ wentTo s s' t ((selCtx s t).pc + 1) ∧ (tileOf s' t).q.sh = [shEntryAt s t r.2 q (xNow s t w.a).toNat]
      ∧ ∀ p : Fin 16, shqOf s' t p = shqOf s t p)
    ∧ (shOpen s t q = false → ∃ s', exec (r.1 t w) s = .next s' ∧ sameMemory s s' ∧ (issuerIn s s' t).st = .faulted
      ∧ (issuerIn s s' t).fcode = 0x07 ∧ (issuerIn s s' t).pc = (selCtx s t).pc ∧ ∀ p : Fin 16, shqOf s' t p = shqOf s t p)

/-- A started MOVE between two scratchpad ranges of its own tile, alone in its queue, the only queue with work, ready to move its next chunk; `src`
and `dst` are the offsets of its current row. -/
structure LocalMove (s : State) (t : TileId) (q : Fin 16) (d : ShDesc) (src dst : Nat) : Prop where
  alone    : (tileOf s t).q.shq = [(q.val, [d])]
  started  : d.started = true ∧ d.row < shRows d.issue ∧ d.byte < shLen d.issue
  move     : shOp d.issue = 0 ∧ shSfmt d.issue = shDfmt d.issue
  source   : ownOffset t (shSrc d.issue + d.row * bits d.issue.w3 23 0) = some src ∧ src + shLen d.issue ≤ 0x600000
  target   : ownOffset t (shDst d.issue + d.row * bits d.issue.w3 47 24) = some dst ∧ dst + shLen d.issue ≤ 0x600000
  checked  : shRowCheck s t d.issue (shSrc d.issue + d.row * bits d.issue.w3 23 0) (shDst d.issue + d.row * bits d.issue.w3 47 24) = none
  keepOk   : keepBlocks s t dst (shLen d.issue) = false
  free     : chunkCause s t d = .of 0
  clean    : s.ecc = []
  nothing  : (tileOf s t).q.merge = [] ∧ shOpen s t q = true ∧ clockOn s t = true

/-- SHUNTER_DESCRIPTOR_START, SHUNTER_CHUNK_TURN, SHUNTER_DESCRIPTOR_COMPLETE and MERGE_WINDOW_EXPIRY complete: a descriptor starts after its
checks, moves at most 2 KiB a turn, completes with its counter, and a failed check halts its queue
(02_tiles_scratchpad.md R63, 02_tiles_scratchpad.md R64, 02_tiles_scratchpad.md R65, 02_tiles_scratchpad.md R66). -/
def Obligations.ShunterMovesChunksAndCompletes : Prop :=
  (∀ (t : TileId) (q : Fin 16) (s : State) (e : ShIssue), shqOf s t q = [ShDesc.new e] → shOpen s t q = true → scopeOpen s t = true →
    (shCheck s t e = none → ∃ s', exec (.shunterDescriptorStart t q) s = .next s' ∧ (∀ a, readByte s' a = readByte s a)
      ∧ shqOf s' t q = [{ ShDesc.new e with started := true }])
    ∧ (∀ why, shCheck s t e = some why → why < 16 → (tileOf s t).q.sh = [] →
      ∃ s', exec (.shunterDescriptorStart t q) s = .next s' ∧ haltedFor s s' t q e why ∧ ∀ a, readByte s' a = readByte s a))
  ∧ (∀ (t : TileId) (q : Fin 16) (s : State) (d : ShDesc) (src dst : Nat), LocalMove s t q d src dst →
    ∃ s', exec (.shunterChunkTurn t) s = .next s' ∧ sameRegs s s' t
      ∧ (∀ j, j < min 2048 (shLen d.issue - d.byte) →
        readByte s' (tilePlace s t (some d.issue.by_.ctx) (dst + d.byte + j)) = readByte s (tilePlace s t (some d.issue.by_.ctx) (src + d.byte + j)))
      ∧ (∀ a, (∀ j, j < min 2048 (shLen d.issue - d.byte) → a ≠ tilePlace s t (some d.issue.by_.ctx) (dst + d.byte + j)) →
        readByte s' a = readByte s a)
      ∧ ∃ d', shqOf s' t q = [d'] ∧ (d'.row, d'.byte) = (if shLen d.issue ≤ d.byte + 2048 then (d.row + 1, 0) else (d.row, d.byte + 2048)))
  ∧ (∀ (t : TileId) (q : Fin 16) (s : State) (d : ShDesc) (rest : List ShDesc), shqOf s t q = d :: rest → (tileOf s t).q.sh = [] →
    armedEntries s t = [] →
    (d.finished = true → ∃ s', exec (.shunterDescriptorComplete t q) s = .next s' ∧ shqOf s' t q = rest ∧ sameMemory s s'
      ∧ ∀ k, k < 64 → cntOf s' t k
        = if bit d.issue.w3 54 = true ∧ k = bits d.issue.w3 53 48 then (cntOf s t k + 1) % 2 ^ 32 else cntOf s t k)
    ∧ (d.finished = false → exec (.shunterDescriptorComplete t q) s = .next s))
  ∧ (∀ (t : TileId) (s : State) (m : MergePacket), (tileOf s t).q.merge = [m] → ∃ s', exec (.mergeWindowExpiry t) s = .next s'
    ∧ (tileOf s' t).q.merge = [] ∧ s'.vco = max s.vco (m.opened + fld s (tileReg t 0x400) 6 1 * cclk s t) ∧ sameMemory s s')

/-- The operation that NSEND, NPUT or NGET hands to the NI: its extension's fields and the values of its registers at issue (R127, Table 5.9). -/
def netOp (s : State) (t : TileId) (w : IWord) (k : NiKind) (dga : Word) (loc len : Nat) (value : Word) : NiOp :=
  { origin := .instr (issuerOf s t), kind := k, dga := dga, loc := loc, len := len, value := value
    lc := w.lc, lcEn := w.lcEn, rc := w.rc, rcEn := w.rcEn, plane := w.plane, c0 := 0, c1 := 0, c2 := 0, c3 := 0 }

/-- An instruction that enters the NI issue queue. -/
def entersNi (s s' : State) (t : TileId) (o : NiOp) : Prop :=
  queueFrame s s' t ∧ (tileOf s' t).q = { (tileOf s t).q with ni := (tileOf s t).q.ni ++ [o] }

/-- The two transfers with their kind (R143). -/
def transferRows : List ((TileId → IWord → Instr) × NiKind) := [(.nput, .put), (.nget, .get)]

/-- NSEND, NPUT and NGET complete: they enter the NI issue queue with their registers as at issue, or fault NI_DGA, MISALIGN, NI_LEN or KEEP_WRITE
(05_ramyr_isa.md R143, 05_ramyr_isa.md R127, 05_ramyr_isa.md Table 5.8, 05_ramyr_isa.md Table 5.9). -/
def Obligations.NetworkInstructionsEnterTheIssueQueue : Prop :=
  (∀ (t : TileId) (w : IWord) (s : State), issues s t [w.a, w.b] = true →
    (w.d = 0 → w.ext.toNat < 2 ^ 16 → w.plane ≠ 3 →
      (dgaFault s t (xNow s t w.a) 8 w.rcEn = true → ∃ s', exec (.nsend t w) s = .next s' ∧ faultsAtIssue s s' t 0x18)
      ∧ (dgaFault s t (xNow s t w.a) 8 w.rcEn = false → (xNow s t w.a).toNat % 8 ≠ 0 →
        ∃ s', exec (.nsend t w) s = .next s' ∧ faultsAtIssue s s' t 0x11)
      ∧ (dgaFault s t (xNow s t w.a) 8 w.rcEn = false → (xNow s t w.a).toNat % 8 = 0 → (tileOf s t).q.ni.length < 16 →
        ∃ s', exec (.nsend t w) s = .next s' ∧ entersNi s s' t (netOp s t w .send (xNow s t w.a) 0 8 (xNow s t w.b))))
    ∧ ((w.d ≠ 0 ∨ 2 ^ 16 ≤ w.ext.toNat ∨ w.plane = 3) → ∃ s', exec (.nsend t w) s = .next s' ∧ faultsAtIssue s s' t 0x10))
  ∧ (∀ r ∈ transferRows, ∀ (t : TileId) (w : IWord) (s : State) (n : Nat), n = (xNow s t w.c).toNat → issues s t [w.a, w.b, w.c] = true →
    w.d = 0 → w.ext.toNat < 2 ^ 16 → w.plane ≠ 3 →
      (1 ≤ n → n ≤ 6291456 → dgaFault s t (xNow s t w.a) n w.rcEn = true → ∃ s', exec (r.1 t w) s = .next s' ∧ faultsAtIssue s s' t 0x18)
      ∧ (dgaFault s t (xNow s t w.a) (if n = 0 ∨ 6291456 < n then 1 else n) w.rcEn = false →
        (n = 0 ∨ 6291456 < n ∨ 0x600000 < (xNow s t w.b).toNat + n) → ∃ s', exec (r.1 t w) s = .next s' ∧ faultsAtIssue s s' t 0x19)
      ∧ (1 ≤ n → n ≤ 6291456 → dgaFault s t (xNow s t w.a) n w.rcEn = false → (xNow s t w.b).toNat + n ≤ 0x600000 →
        (r.2 = .get → keepBlocks s t (xNow s t w.b).toNat n = true → ∃ s', exec (r.1 t w) s = .next s' ∧ faultsAtIssue s s' t 0x05)
        ∧ ((r.2 = .put ∨ keepBlocks s t (xNow s t w.b).toNat n = false) → (tileOf s t).q.ni.length < 16 → ∃ s', exec (r.1 t w) s = .next s'
          ∧ entersNi s s' t (netOp s t w r.2 (xNow s t w.a) (xNow s t w.b).toNat n 0))))

/-- Word `k` of the collective descriptor at a scratchpad offset. -/
def collWord (s : State) (t : TileId) (a k : Nat) : Word := BitVec.ofNat 64 (leNat (tileBytes s t (some (tileOf s t).sel) (a + 8 * k) 8))

/-- The descriptor an NCOLL at an offset reads (Table 7.3). -/
def collAt (s : State) (t : TileId) (a : Nat) : CollDesc := collDesc (collWord s t a 0) (collWord s t a 1) (collWord s t a 2) (collWord s t a 3)

/-- A trigger entry that, once armed, fires a LOCAL_INC without LC (R185, Table 7.2): its counter holds THRESH, it neither consumes nor rearms, and
the fire queue has room. -/
def firesLocalInc (s : State) (t : TileId) (e : Nat) : Prop :=
  bits (rd s (trigReg t e 0)) 47 44 = 5 ∧ bit (rd s (trigReg t e 0)) 40 = false ∧ bit (rd s (trigReg t e 0)) 41 = false
    ∧ bit (rd s (trigReg t e 0)) 56 = false ∧ bits (rd s (trigReg t e 0)) 39 8 ≤ cntOf s t (bits (rd s (trigReg t e 0)) 5 0)
    ∧ (tileOf s t).q.fire.length < 32 ∧ ∀ o ∈ (tileOf s t).q.fire, o.entry? ≠ some e

/-- NTRIG and NCOLL complete: NTRIG arms an entry that passes its checks and tests it at once (a LOCAL_INC then adds VALUE to its counter), or disarms
one; NCOLL queues the descriptor it reads or faults NI_DGA or NI_LEN
(07_collectives.md R184, 07_collectives.md R185, 07_collectives.md R190, 05_ramyr_isa.md R144, 07_collectives.md R181). -/
def Obligations.TriggersAndCollectivesAtIssue : Prop :=
  (∀ (t : TileId) (w : IWord) (s : State), w.d = 0 → issues s t [w.a] = true →
    (255 < (xNow s t w.a).toNat → w.ext.toNat < 2 → ∃ s', exec (.ntrig t w) s = .next s' ∧ faultsAtIssue s s' t 0x1A)
    ∧ (w.ext = 0 → armOk s t (xNow s t w.a).toNat = false → ∃ s', exec (.ntrig t w) s = .next s' ∧ faultsAtIssue s s' t 0x1A)
    ∧ ((xNow s t w.a).toNat ≤ 255 → (tileOf s t).q.ni.length < 16 →
      (w.ext = 0 → armOk s t (xNow s t w.a).toNat = true → armedEntries s t = [] →
        cntOf s t (bits (rd s (trigReg t (xNow s t w.a).toNat 0)) 5 0) < bits (rd s (trigReg t (xNow s t w.a).toNat 0)) 39 8 →
        ∃ s', exec (.ntrig t w) s = .next s' ∧ armed s' t (xNow s t w.a).toNat = true ∧ sameMemory s s' ∧ wentTo s s' t ((selCtx s t).pc + 1)
          ∧ (tileOf s' t).q = (tileOf s t).q)
      ∧ (w.ext = 0 → armOk s t (xNow s t w.a).toNat = true → armedEntries s t = [] → firesLocalInc s t (xNow s t w.a).toNat →
        ∃ s', exec (.ntrig t w) s = .next s' ∧ armed s' t (xNow s t w.a).toNat = false ∧ sameMemory s s' ∧ wentTo s s' t ((selCtx s t).pc + 1)
          ∧ (tileOf s' t).q = (tileOf s t).q
          ∧ ∀ k, k < 64 → cntOf s' t k = if k = bits (rd s (trigReg t (xNow s t w.a).toNat 3)) 5 0
            then (cntOf s t k + bits (rd s (trigReg t (xNow s t w.a).toNat 3)) 31 16) % 2 ^ 32 else cntOf s t k)
      ∧ (w.ext = 1 → (∀ k ∈ armedEntries s t, k = (xNow s t w.a).toNat) → ∃ s', exec (.ntrig t w) s = .next s' ∧ armed s' t (xNow s t w.a).toNat = false ∧ sameMemory s s'
        ∧ wentTo s s' t ((selCtx s t).pc + 1)
        ∧ (tileOf s' t).q.fire = (tileOf s t).q.fire.filter (fun o => decide (o.entry? ≠ some (xNow s t w.a).toNat)))))
  ∧ (∀ (t : TileId) (w : IWord) (s : State) (a : Nat), a = (xNow s t w.a).toNat → w.d = 0 → w.ext.toNat < 2 ^ 7 → issues s t [w.a] = true →
    ((a % 64 ≠ 0 ∨ 0x600000 < a + 64) → ∃ s', exec (.ncoll t w) s = .next s' ∧ faultsAtIssue s s' t 0x19)
    ∧ (a % 64 = 0 → a + 64 ≤ 0x600000 → wordsClean s t (tileOf s t).sel a 64 = true →
      (collDgaBad s t (collAt s t a) = true → ∃ s', exec (.ncoll t w) s = .next s' ∧ faultsAtIssue s s' t 0x18)
      ∧ (collDgaBad s t (collAt s t a) = false → collLenBad s t (collAt s t a) = true →
        ∃ s', exec (.ncoll t w) s = .next s' ∧ faultsAtIssue s s' t 0x19)
      ∧ (collDgaBad s t (collAt s t a) = false → collLenBad s t (collAt s t a) = false → (tileOf s t).q.ni.length < 16 →
        ∃ s', exec (.ncoll t w) s = .next s' ∧ ∃ o, entersNi s s' t o ∧ o.kind = .coll ∧ o.origin = .instr (issuerOf s t)
          ∧ o.desc = collAt s t a ∧ o.lc = w.lc ∧ o.lcEn = w.lcEn)))

/-- Both planes have a usable route from a die to a die (R162). -/
def routesOpen (s : State) (d e : Nat) : Prop := ∀ pl : Plane, planeOk s d e pl = true

/-- One packet has been injected, and the network holds no other change. -/
def injected (s s' : State) (f : Packet → Prop) : Prop := ∃ p, f p ∧ s'.m.net = s.m.net ++ [p]

/-- NI_OPERATION_START and NI_OPERATION_COMPLETE complete: START injects the packets of the next issued or fired operation with fewer than 16 started,
and COMPLETE increments the LC of an answered one
(07_collectives.md R181, 07_collectives.md R186, 05_ramyr_isa.md R143, 06_lines_and_signals.md R160). -/
def Obligations.NetworkOperationsStartAndComplete : Prop :=
  (∀ (t : TileId) (s : State) (o : NiOp) (rest : List NiOp), (tileOf s t).q.ni = o :: rest → (tileOf s t).q.fire = [] → scopeOpen s t = true →
    (16 ≤ (tileOf s t).q.started.length → exec (.niOperationStart t) s = .next s)
    ∧ ((tileOf s t).q.started.length < 16 → (tileOf s t).allow = none → routesOpen s (t.val / 144) (o.dga.toNat / 2 ^ 31) → (o.kind = .send ∨ o.kind = .cntInc) →
      o.dga.toNat < 40 * 2 ^ 31 →
      ∃ s', exec (.niOperationStart t) s = .next s' ∧ (tileOf s' t).q.ni = rest ∧ sameMemory s s'
        ∧ injected s s' (fun p => p.type = (if o.kind = .send then 0 else 5) ∧ p.addr.toNat = o.dga.toNat ∧ p.rcnt = o.rc ∧ p.rcEn = o.rcEn
          ∧ p.data = (if o.kind = .send then leBytes 8 o.value.toNat else []) ∧ p.tgen = (dieOf s (t.val / 144)).genCur
          ∧ p.srcDie.toNat = t.val / 144 ∧ p.srcTile.toNat = t.val % 144
          ∧ ∃ x, (tileOf s' t).q.started = (tileOf s t).q.started ++ [x] ∧ x.op = o ∧ x.tag = p.tag ∧ x.held = none
            ∧ x.await.length = 1 ∧ ∀ r ∈ x.await, r.tag = p.tag ∧ r.addr = p.addr)))
  ∧ (∀ (t : TileId) (s : State) (o : NiOp), (tileOf s t).q.ni = [] → (tileOf s t).q.fire = [o] → (o.kind = .send ∨ o.kind = .cntInc) →
    scopeOpen s t = true → (tileOf s t).q.started.length < 16 → armedEntries s t = [] →
    firedBad s t o = none → (tileOf s t).allow = none → routesOpen s (t.val / 144) (o.dga.toNat / 2 ^ 31) → o.dga.toNat < 40 * 2 ^ 31 →
    ∃ s', exec (.niOperationStart t) s = .next s' ∧ (tileOf s' t).q.fire = [] ∧ sameMemory s s'
      ∧ injected s s' (fun p => p.type = (if o.kind = .send then 0 else 5) ∧ p.addr.toNat = o.dga.toNat ∧ p.rcnt = o.rc ∧ p.rcEn = o.rcEn))
  ∧ (∀ (t : TileId) (s : State) (x : NiStarted), (tileOf s t).q.started = [x] → armedEntries s t = [] →
    (x.await = [] → x.retry = [] → x.held = none → x.roles = 0 → x.op.kind ≠ .coll → toInject s t x.tag = [] → heldBack s t x.tag = false →
      ∃ s', exec (.niOperationComplete t x.tag) s = .next s' ∧ (tileOf s' t).q.started = [] ∧ sameMemory s s'
        ∧ ∀ k, k < 64 → cntOf s' t k = if x.op.lcEn = true ∧ k = x.op.lc.toNat then (cntOf s t k + 1) % 2 ^ 32 else cntOf s t k)
    ∧ (x.await ≠ [] → exec (.niOperationComplete t x.tag) s = .next s))

/-- A packet of a type reaches its open target on a channel that its type may use, behind no earlier packet of its stream (R153, R163, R167). -/
def reaches (s : State) (p : Packet) (ty : BitVec 4) : Prop :=
  p.type = ty ∧ channelOk p = true ∧ targetClosed s p = false ∧ early s p = false

/-- A packet for a tile of a compute die, which can send its answer on either plane. -/
def atTile (s : State) (p : Packet) (t : TileId) : Prop :=
  p.dstDie.toNat < 40 ∧ p.dstTile.toNat < 144 ∧ packetDst p = t.val ∧ routesOpen s p.dstDie.toNat p.srcDie.toNat

/-- The network after a packet was taken out and answered: one response to its source with its TAG and address. -/
def answeredBy (s s' : State) (p : Packet) (ty : BitVec 4) (why : BitVec 3) (data : List Byte) : Prop :=
  ∃ r : Packet, s'.m.net = s.m.net.erase p ++ [r] ∧ r.ch = 1 ∧ r.type = ty ∧ r.nakr = why ∧ r.data = data ∧ r.tag = p.tag ∧ r.addr = p.addr
    ∧ r.dstDie = p.srcDie ∧ r.dstTile = p.srcTile ∧ r.srcDie = p.dstDie ∧ r.srcTile = p.dstTile ∧ r.part = p.part

/-- The counters of a tile after a packet that may name one (R153, R179). -/
def countedBy (s s' : State) (p : Packet) (t : TileId) : Prop :=
  ∀ k, k < 64 → cntOf s' t k = if p.rcEn = true ∧ k = p.rcnt.toNat then (cntOf s t k + 1) % 2 ^ 32 else cntOf s t k

/-- No counter of a tile has moved. -/
def sameCounters (s s' : State) (t : TileId) : Prop := ∀ k, k < 64 → cntOf s' t k = cntOf s t k

/-- Bytes written at a tile by a packet: in its EXT mode from an offset, and no other byte. -/
def landedBytes (s s' : State) (t : TileId) (off : Nat) (data : List Byte) : Prop :=
  (∀ j, j < data.length → readByte s' (tilePlace s t none (off + j)) = data.getD j 0)
    ∧ ∀ a, (∀ j, j < data.length → a ≠ tilePlace s t none (off + j)) → readByte s' a = readByte s a

/-- WRITE, READ_REQ and CNT_INC complete at a tile: they write, answer and count, and a refused one is answered with its NAK and has no effect
(06_lines_and_signals.md R153, 02_tiles_scratchpad.md R57, 02_tiles_scratchpad.md R53, 07_collectives.md R179, 06_lines_and_signals.md
Table 6.3). -/
def Obligations.RequestsAtATile : Prop :=
  ∀ (t : TileId) (p : Packet) (s : State), atTile s p t → s.ecc = [] → armedEntries s t = [] →
    (reaches s p 0 →
      (p.poison = false → p.addr.toNat % 2 ^ 23 + p.data.length ≤ 0x600000 → keepBlocks s t (p.addr.toNat % 2 ^ 23) p.data.length = false →
        ∃ s', exec (.write p) s = .next s' ∧ landedBytes s s' t (p.addr.toNat % 2 ^ 23) p.data ∧ answeredBy s s' p 3 0 [] ∧ countedBy s s' p t)
      ∧ (p.poison = true → ∃ s', exec (.write p) s = .next s'
        ∧ answeredBy s s' p 4 (if p.nakr = 5 then 5 else 2) [] ∧ sameMemory s s' ∧ sameCounters s s' t)
      ∧ (p.poison = false → p.addr.toNat % 2 ^ 23 + p.data.length ≤ 0x600000 → keepBlocks s t (p.addr.toNat % 2 ^ 23) p.data.length = true →
        ∃ s', exec (.write p) s = .next s' ∧ answeredBy s s' p 4 3 [] ∧ sameMemory s s' ∧ fld s' (tileReg t 8) 5 5 = 1))
    ∧ (reaches s p 1 → clusterState s (t.val / 144) (clusterOf (t.val % 144)) < 2 →
      (p.xdata.toNat ≠ 0 → p.xdata.toNat ≤ 2048 → p.addr.toNat % 2 ^ 23 + p.xdata.toNat ≤ 0x600000 →
        ∃ s', exec (.readReq p) s = .next s' ∧ sameMemory s s' ∧ countedBy s s' p t
          ∧ answeredBy s s' p 2 0 (tileBytes s t none (p.addr.toNat % 2 ^ 23) p.xdata.toNat))
      ∧ ((p.xdata = 0 ∨ 2048 < p.xdata.toNat) → ∃ s', exec (.readReq p) s = .next s' ∧ answeredBy s s' p 4 4 []
        ∧ sameMemory s s' ∧ sameCounters s s' t))
    ∧ (reaches s p 5 → p.addr.toNat % 2 ^ 23 < 0x600000 →
      ∃ s', exec (.cntInc p) s = .next s' ∧ answeredBy s s' p 3 0 [] ∧ countedBy s s' p t ∧ sameMemory s s')

/-- A tile's NI with one started operation, which awaits the answer to one request. -/
def awaitsOne (s : State) (t : TileId) (x : NiStarted) (r : Packet) : Prop :=
  (tileOf s t).q.started = [x] ∧ x.await = [r] ∧ x.held = none ∧ r.tag = x.tag ∧ x.tag.toNat < 0x8000

/-- A packet is the answer that an operation awaits, at the tile that started it. -/
def answersIt (s : State) (p r : Packet) (t : TileId) : Prop :=
  p.dstDie.toNat < 40 ∧ p.dstTile.toNat < 144 ∧ packetDst p = t.val ∧ p.tag = r.tag ∧ p.addr = r.addr ∧ targetClosed s p = false ∧ p.ch = 1
    ∧ early s p = false

/-- ACK, READ_RESP, NAK and READ_REQ_RESEND complete: ACK and READ_RESP end the wait for a packet, READ_RESP lands its bytes at LOCAL, a NAK fails
the operation, and RETRY sends again after 2 us (07_collectives.md R181, 07_collectives.md R187, 05_ramyr_isa.md R143, 08_peat_streaming_updates.md R215). -/
def Obligations.AnswersAtTheSource : Prop :=
  (∀ (t : TileId) (s : State) (x : NiStarted) (p r : Packet), awaitsOne s t x r → answersIt s p r t →
    (p.type = 3 → ∃ s', exec (.ack p) s = .next s' ∧ (tileOf s' t).q.started = [{ x with await := [] }] ∧ sameMemory s s'
      ∧ s'.m.net = s.m.net.erase p)
    ∧ (p.type = 2 → p.poison = false → s.ecc = [] → x.op.loc + (p.addr.toNat - x.op.dga.toNat) + p.data.length ≤ 0x600000 →
      keepBlocks s t (x.op.loc + (p.addr.toNat - x.op.dga.toNat)) p.data.length = false →
      ∃ s', exec (.readResp p) s = .next s' ∧ (tileOf s' t).q.started = [{ x with await := [] }]
        ∧ landedBytes s s' t (x.op.loc + (p.addr.toNat - x.op.dga.toNat)) p.data)
    ∧ (p.type = 4 → p.nakr = 7 → ∃ s', exec (.nak p) s = .next s' ∧ sameMemory s s'
      ∧ (tileOf s' t).q.started = [{ x with await := [], retry := x.retry ++ [(s.now + 2000, r)] }])
    ∧ (p.type = 4 → p.nakr ≠ 7 → ∀ i : Issuer, x.op.origin = .instr i → ((tileOf s t).ctxOf i.ctx).st.live = true →
      ∃ s', exec (.nak p) s = .next s' ∧ sameMemory s s' ∧ (tileOf s' t).q.started = []
        ∧ ((tileOf s' t).ctxOf i.ctx).st = .faulted ∧ ((tileOf s' t).ctxOf i.ctx).fcode = 0x1B ∧ ((tileOf s' t).ctxOf i.ctx).pc = i.index))
  ∧ (∀ (t : TileId) (s : State) (x : NiStarted) (r : Packet) (v : Nat), (tileOf s t).q.started = [x] → x.tag.toNat < 0x8000 → x.retry = [(v, r)] →
    (tileOf s t).allow = none → routesOpen s r.srcDie.toNat r.dstDie.toNat →
    ∃ s', exec (.readReqResend t x.tag) s = .next s' ∧ v ≤ s'.now ∧ (tileOf s' t).q.started = [{ x with await := x.await ++ [r], retry := [] }]
      ∧ injected s s' (fun p => p.type = r.type ∧ p.tag = r.tag ∧ p.addr = r.addr ∧ p.data = r.data ∧ p.dstDie = r.dstDie ∧ p.dstTile = r.dstTile))

/-- DIE_BLOCK_ACCESS completes: a die block is written and read in whole aligned words, answers with ACK or its value, and refuses anything else with
NAK ACCESS
(09_hosts_partitions.md R343, 06_lines_and_signals.md R153). -/
def Obligations.RegisterBlocksServeWholeWords : Prop :=
  ∀ (p : Packet) (s : State), p.dstDie.toNat < 40 → p.dstTile = 255 → targetClosed s p = false → channelOk p = true → early s p = false →
    routesOpen s p.dstDie.toNat p.srcDie.toNat →
    (∀ w : Word, p.type = 0 → p.poison = false → p.data = leBytes 8 w.toNat → p.addr.toNat % 8 = 0 → dieBlockMapped (p.addr.toNat % 2 ^ 23) 8 = true →
      routesOpen (writeReg (absorb s p) false (dieBlockAddr p.dstDie.toNat (p.addr.toNat % 2 ^ 23)) w) p.dstDie.toNat p.srcDie.toNat →
      ∃ s', exec (.dieBlockAccess p) s = .next s' ∧ answeredBy s s' p 3 0 []
        ∧ s'.regs = (writeReg (absorb s p) false (dieBlockAddr p.dstDie.toNat (p.addr.toNat % 2 ^ 23)) w).regs)
    ∧ (p.type = 1 → p.xdata = 8 → p.addr.toNat % 8 = 0 → dieBlockMapped (p.addr.toNat % 2 ^ 23) 8 = true →
      routesOpen (readRegAt (absorb s p) (dieBlockAddr p.dstDie.toNat (p.addr.toNat % 2 ^ 23))).1 p.dstDie.toNat p.srcDie.toNat →
      ∃ s', exec (.dieBlockAccess p) s = .next s' ∧ sameMemory s s'
        ∧ answeredBy s s' p 2 0 (leBytes 8 (readRegAt (absorb s p) (dieBlockAddr p.dstDie.toNat (p.addr.toNat % 2 ^ 23))).2.toNat))
    ∧ (p.type = 0 → p.poison = false → (p.addr.toNat % 8 ≠ 0 ∨ p.data.length % 8 ≠ 0) →
      ∃ s', exec (.dieBlockAccess p) s = .next s' ∧ answeredBy s s' p 4 3 [] ∧ s'.regs = (absorb s p).regs ∧ s'.cells = s.cells)

/-- A router has passed a packet on: the packet in flight has one hop more. -/
def passedOn (s s' : State) (p : Packet) : Prop :=
  s'.m.net = s.m.net.map (fun q => if { p with hops := q.hops } = q then hopped q else q) ∧ sameMemory s s' ∧ s'.tiles = s.tiles

/-- The head of a packet's flits, the packet in flight, waits at an input port of an open router. -/
structure HeadAt (s : State) (t : TileId) (port : Dir) (p : Packet) (w : Worm) : Prop where
  openRouter : routerClosed s t = false
  inFlight   : p ∈ s.m.net
  way        : wormOf s p = some w ∧ wormById s w.id = some w ∧ w.p = p ∧ w.dests = [(p.dstDie, p.dstTile)]
  waits      : headWaits s w (portKey t p.plane (dirNum port)) = true

/-- Nothing closes the way of a packet out of a router in a direction: its next router, its scope and its crossing. -/
def wayOpen (s : State) (t : TileId) (p : Packet) (dir : Dir) : Prop :=
  outDir s p t = some dir ∧ (dir ≠ .local → closedAhead s t dir = false ∧ crossingDown s p.plane t dir = false)

/-- An output of a router is free for the head at an input port (R157): no other packet of its channel holds it, it has a siding, and it is the
head's turn. -/
def outFree (s : State) (t : TileId) (w : Worm) (k o : Nat) : Bool := !(outHeld s t w o) && mayEnter s w.p o && hasTurn s t w k o

/-- A router has taken a request out of the network, counted it in RTx_NAK and answered it with a reason (R167). -/
def refusedAt (s s' : State) (t : TileId) (p : Packet) (why : BitVec 3) : Prop :=
  fld s' (rtReg t p.plane 0x48) 31 0 = (fld s (rtReg t p.plane 0x48) 31 0 + 1) % 2 ^ 32 ∧ sameMemory s s' ∧ s'.tiles = s.tiles
    ∧ ∃ r : Packet, s'.m.net = s.m.net.erase p ++ [r] ∧ r.type = 4 ∧ r.nakr = why ∧ r.tag = p.tag ∧ r.addr = p.addr ∧ r.dstDie = p.srcDie
      ∧ r.dstTile = p.srcTile ∧ r.srcDie.toNat = t.val / 144 ∧ r.srcTile.toNat = t.val % 144

/-- PACKET_ROUTE and CREDIT_RETURN complete: a router forwards a head flit whose output is free, holds one whose output is not, and answers a
request that has no way with NOROUTE, TARGET or LINK; a credit comes back once
(06_lines_and_signals.md R155, 06_lines_and_signals.md R156, 06_lines_and_signals.md R157, 06_lines_and_signals.md R158,
06_lines_and_signals.md R165, 06_lines_and_signals.md R167). -/
def Obligations.RoutersForwardHoldAndRefuse : Prop :=
  (∀ (t : TileId) (port : Dir) (p : Packet) (w : Worm) (s : State), HeadAt s t port p w →
    (∀ (dir : Dir) (o : Nat), wayOpen s t p dir → nextPort t p.plane dir = some o →
      (outFree s t w (portKey t p.plane (dirNum port)) o = true →
        ∃ s', exec (.packetRoute t port p) s = .next s' ∧ passedOn s s' p
          ∧ (packetFlits p = 1 → w.left = 0 → w.hops = [⟨portKey t p.plane (dirNum port), [], 0⟩] →
            fld s' (rtReg t p.plane 0x40) 63 0 = (fld s (rtReg t p.plane 0x40) 63 0 + 1) % 2 ^ 64
            ∧ (∃ f ∈ (sidingsAt s' o).flits, f.ch = p.ch ∧ f.worm = w.id)
            ∧ ∃ b ∈ (sidingsAt s' (portKey t p.plane (dirNum port))).back, b.1 = p.ch))
      ∧ (outFree s t w (portKey t p.plane (dirNum port)) o = false → exec (.packetRoute t port p) s = .next s))
    ∧ (p.ch ≠ 2 → isResponse p = false → routesOpen s (t.val / 144) p.srcDie.toNat →
      (outDir s p t = none → ∃ s', exec (.packetRoute t port p) s = .next s' ∧ refusedAt s s' t p 6)
      ∧ (∀ (dir : Dir) (n : Nat), outDir s p t = some dir → dir ≠ .local → neighbour t dir = some n →
        (closedAhead s t dir = true → ∃ s', exec (.packetRoute t port p) s = .next s' ∧ refusedAt s s' t p 1)
        ∧ (closedAhead s t dir = false → crossingDown s p.plane t dir = true →
          ∃ s', exec (.packetRoute t port p) s = .next s' ∧ refusedAt s s' t p 5))))
  ∧ (∀ (t : TileId) (port : Dir) (p : Packet) (s : State), routerClosed s t = true → ∃ s', exec (.packetRoute t port p) s = .next s'
    ∧ s'.m.net = s.m.net.erase p ∧ sameMemory s s' ∧ fld s' (rtReg t p.plane 0x48) 31 0 = (fld s (rtReg t p.plane 0x48) 31 0 + 1) % 2 ^ 32)
  ∧ (∀ (t : TileId) (pl : Plane) (port : Dir) (ch : Fin 4) (shared : Bool) (s : State) (k : Nat), k = portKey t pl (dirNum port) →
    ((BitVec.ofNat 2 ch.val, shared) ∈ (sidingsAt s k).back →
      ∃ s', exec (.creditReturn t pl port ch shared) s = .next s' ∧ sameMemory s s' ∧ s'.m.net = s.m.net
        ∧ (s.m.worms = [] → sidingsAt s' k = { sidingsAt s k with back := (sidingsAt s k).back.erase (BitVec.ofNat 2 ch.val, shared) }))
    ∧ ((BitVec.ofNat 2 ch.val, shared) ∉ (sidingsAt s k).back → exec (.creditReturn t pl port ch shared) s = .next s))

/-- The counters of a crossing's link after one error: the tile's and its edge's, of errors and of replays. -/
def linkCounted (s s' : State) (t : TileId) (pl : Plane) (e : Nat) : Prop :=
  fld s' (rtReg t pl 0x50) 15 0 = (fld s (rtReg t pl 0x50) 15 0 + 1) % 2 ^ 16 ∧ fld s' (rtReg t pl 0x50) 31 16 = (fld s (rtReg t pl 0x50) 31 16 + 1) % 2 ^ 16
    ∧ fld s' (hbLink (t.val / 144) e) 23 0 = (fld s (hbLink (t.val / 144) e) 23 0 + 1) % 2 ^ 24
    ∧ fld s' (hbLink (t.val / 144) e) 47 24 = (fld s (hbLink (t.val / 144) e) 47 24 + 1) % 2 ^ 24

/-- FLIT_CRC_ERROR and LINK_RETRAIN complete: a CRC error on a crossing link is counted, a retrain maps up to 8 failing lanes to spares, and with more the
link and its crossing are down (06_lines_and_signals.md R164, 06_lines_and_signals.md R165). -/
def Obligations.CrossingLinksCountAndRetrain : Prop :=
  (∀ (t : TileId) (pl : Plane) (s : State),
    (∀ e l, crossEdges t = e :: l → ∃ s', exec (.flitCrcError t pl) s = .next s' ∧ linkCounted s s' t pl e ∧ sameMemory s s'
      ∧ s'.m = { s.m with replays := s'.m.replays })
    ∧ (crossEdges t = [] → exec (.flitCrcError t pl) s = .next s))
  ∧ (∀ (t : TileId) (pl : Plane) (e : Edge) (failing : List (Fin 1056)) (s : State), (crossEdges t).contains (edgeNum e) = true →
    ((failing.map (fun l => l.val)).eraseDups.length ≤ 8 → ∃ s', exec (.linkRetrain t pl e failing) s = .next s'
      ∧ fld s' (rtReg t pl 0x50) 35 32 = (failing.map (fun l => l.val)).eraseDups.length ∧ fld s' (rtReg t pl 0x50) 36 36 = 0 ∧ sameMemory s s')
    ∧ (8 < (failing.map (fun l => l.val)).eraseDups.length → ∃ s', exec (.linkRetrain t pl e failing) s = .next s'
      ∧ fld s' (rtReg t pl 0x50) 36 36 = 1 ∧ bit (rd s' (ncbReg (t.val / 144) 0x10)) (2 * edgeNum e + planeNum pl) = false ∧ sameMemory s s'))

/-- The network has lost a packet that was taken in, and holds what was added. -/
def netAfter (s s' : State) (p : Packet) (added : List Packet) : Prop := s'.m.net = s.m.net.erase p ++ added

/-- An RD_DATA packet that carries one unit of a slot on, with the contributions counted in it (R199, Table 7.4). -/
def carriesUnit (q : Packet) (pl : Plane) (x : PrSlot) (u c : Nat) (ls : List Lane) : Prop :=
  q.type = 9 ∧ q.ch = 2 ∧ q.plane = pl ∧ q.tgen = x.tgen ∧ q.poison = false ∧ q.addr.toNat = (x.base + 64 * u) % 2 ^ 56
    ∧ q.data = ls.flatMap (fun l => leBytes 4 l.toNat) ∧ pColl q = x.collId % 2 ^ 12 ∧ pCount q = c % 2 ^ 13 ∧ pRtype q = x.rtype % 8
    ∧ pUnit q = u % 2 ^ 8 ∧ q.group = x.group ∧ q.seg = x.seg

/-- A packet of a reduce that passes through a tile's router, bound for another tile, its partition not aborting, with nothing before it: no
earlier packet of its stream (R163) and none that waits on its port (R198, R201). -/
def passesBy (s : State) (p : Packet) (t : TileId) (port : Dir) : Prop :=
  collDead s p = false ∧ earlyAt s t p = false ∧ portHeld s t p.plane port = false ∧ ¬(p.dstDie.toNat < 40 ∧ packetDst p = t.val)

/-- The slot that a segment takes: empty, knowing its collective and the number of members below this router (R197, R198). -/
def freshSlot (s : State) (t : TileId) (p : Packet) (x : PrSlot) : Prop :=
  x.part.val = p.part.toNat ∧ x.collId = pColl p ∧ x.base = segBase p ∧ x.seg = p.seg ∧ x.group = p.group ∧ x.tgen = p.tgen
    ∧ x.total = (inputs s p t.val).length ∧ x.units = [] ∧ x.sent = [] ∧ x.poison = []

/-- RD_OPEN, RD_OPEN_SLOT_GRANT, PR_WAIT_EXPIRY, RD_DATA and PR_IDLE_FLUSH complete: RD_OPEN takes a slot, joins one, waits or passes; RD_DATA is stored or combined and forwarded when complete; waits and idle slots end in
time (07_collectives.md R197, 07_collectives.md R198, 07_collectives.md R199, 07_collectives.md R200, 11_bringup_reset_repair.md R296). -/
def Obligations.ReducersCombineSegments : Prop :=
  (∀ (t : TileId) (port : Dir) (p : Packet) (s : State),
    (collDead s p = true → ∃ s', exec (.rdOpen t port p) s = .next s' ∧ netAfter s s' p [] ∧ (tileOf s' t).coll = (tileOf s t).coll ∧ sameMemory s s')
    ∧ (passesBy s p t port →
      (combines s p t = false → ∃ s', exec (.rdOpen t port p) s = .next s' ∧ p ∈ s'.m.net ∧ (tileOf s' t).coll = (tileOf s t).coll ∧ sameMemory s s')
      ∧ (combines s p t = true →
        ((slotOf s t p).isSome = true → ∃ s', exec (.rdOpen t port p) s = .next s' ∧ netAfter s s' p [] ∧ (tileOf s' t).coll = (tileOf s t).coll)
        ∧ (∀ i, slotOf s t p = none → (tileOf s t).coll.waits p.plane = [] → freeSlot s t p.plane = some i → ∃ s' x, exec (.rdOpen t port p) s = .next s' ∧ p ∈ s'.m.net
          ∧ (tileOf s' t).coll.slots p.plane = spPut ((tileOf s t).coll.slots p.plane) i x ∧ freshSlot s t p x ∧ sameMemory s s')
        ∧ (slotOf s t p = none → ((tileOf s t).coll.waits p.plane ≠ [] ∨ freeSlot s t p.plane = none) → ∃ s', exec (.rdOpen t port p) s = .next s' ∧ netAfter s s' p []
          ∧ (tileOf s' t).coll.waits p.plane = (tileOf s t).coll.waits p.plane ++ [⟨port, p, s.now⟩]
          ∧ (tileOf s' t).coll.slots p.plane = (tileOf s t).coll.slots p.plane))))
  ∧ (∀ (t : TileId) (pl : Plane) (w : Waiter) (s : State), (tileOf s t).coll.waits pl = [w] → w.packet.plane = pl →
    (∀ i, slotOf s t w.packet = none → freeSlot s t pl = some i → ∃ s' x, exec (.rdOpenSlotGrant t pl) s = .next s' ∧ w.packet ∈ s'.m.net
      ∧ (tileOf s' t).coll.waits pl = [] ∧ (tileOf s' t).coll.slots pl = spPut ((tileOf s t).coll.slots pl) i x ∧ freshSlot s t w.packet x)
    ∧ (∃ s', exec (.prWaitExpiry t pl) s = .next s' ∧ w.since + fld s (prReg t pl 0) 15 0 * 10 ≤ s'.now ∧ w.packet ∈ s'.m.net
      ∧ (tileOf s' t).coll.waits pl = [] ∧ fld s' (prReg t pl 0x10) 31 0 = (fld s (prReg t pl 0x10) 31 0 + 1) % 2 ^ 32))
  ∧ (∀ (t : TileId) (port : Dir) (p : Packet) (s : State), passesBy s p t port →
    (intoSlot s t p = none → (outDir s p t).bind (stationAt t) = none →
      ∃ s', exec (.rdData t port p) s = .next s' ∧ p ∈ s'.m.net ∧ s'.tiles = s.tiles ∧ sameMemory s s')
    ∧ (∀ (i : Nat) (x : PrSlot) (ls : List Lane), intoSlot s t p = some (i, x) → p.poison = false → x.poison = [] → x.sent = [] → x.size ≠ some 1 →
      unitsOf p.data.length (pUnit p) (accLanes (pRtype p) p.data) = [(pUnit p, ls)] →
      (x.units = [] →
        (pCount p < x.total → ∃ s', exec (.rdData t port p) s = .next s' ∧ netAfter s s' p [] ∧ sameMemory s s' ∧ (x.size ≠ some 0 →
          (tileOf s' t).coll.slots p.plane
            = spPut ((tileOf s t).coll.slots p.plane) i { x with last := s.now, units := [(pUnit p, (pCount p, ls))] }))
        ∧ (x.total ≤ pCount p → ∃ s' q, exec (.rdData t port p) s = .next s' ∧ netAfter s s' p [q] ∧ carriesUnit q p.plane x (pUnit p) (pCount p) ls))
      ∧ (∀ (c : Nat) (old : List Lane), x.units = [(pUnit p, (c, old))] →
        (c + pCount p < x.total → ∃ s', exec (.rdData t port p) s = .next s' ∧ netAfter s s' p [] ∧ (x.size ≠ some 0 →
          (tileOf s' t).coll.slots p.plane = spPut ((tileOf s t).coll.slots p.plane) i
            { x with last := s.now, units := [(pUnit p, (c + pCount p, (combine x.rtype old ls).1))] }))
        ∧ (x.total ≤ c + pCount p → ∃ s' q, exec (.rdData t port p) s = .next s' ∧ netAfter s s' p [q]
          ∧ carriesUnit q p.plane x (pUnit p) (c + pCount p) (combine x.rtype old ls).1))))
  ∧ (∀ (t : TileId) (pl : Plane) (i : Fin 4) (x : PrSlot) (u c : Nat) (ls : List Lane) (s : State), (tileOf s t).coll.slots pl = [(i.val, x)] →
    x.units = [(u, (c, ls))] → x.sent = [] → x.poison = [] →
    ∃ s' q, exec (.prIdleFlush t pl i) s = .next s' ∧ x.last + fld s (prReg t pl 0) 31 16 * 10 ≤ s'.now ∧ (tileOf s' t).coll.slots pl = []
      ∧ s'.m.net = s.m.net ++ [q] ∧ carriesUnit q pl x u c ls
      ∧ fld s' (prReg t pl 0x18) 31 0 = (fld s (prReg t pl 0x18) 31 0 + 1) % 2 ^ 32 ∧ sameMemory s s')

/-- A tile's packet to a die meets no allowance and has a route on both planes. -/
def maySend (s : State) (t : TileId) (d : Nat) : Prop := (tileOf s t).allow = none ∧ routesOpen s (t.val / 144) d

/-- The packets of a broadcast to a target: one for each piece of at most 2 KiB, from the source bytes of a state (R193, R195). -/
def sentTo (s s' : State) (t : TileId) (r : RootRec) (m : Nat) : Prop :=
  ∀ k ∈ pieces r.op.desc.len, ∃ q ∈ s'.m.net, q.type = 0xA ∧ packetDst q = m ∧ q.plane = r.op.desc.line
    ∧ q.addr.toNat = (r.op.desc.root + k.1) % 2 ^ 56 ∧ pColl q = r.op.desc.collId % 2 ^ 12
    ∧ q.data = tileBytes s t r.op.who (r.op.desc.root % 2 ^ 23 + k.1) k.2

/-- One role of the operation with a tag has ended (R181). -/
def roleEnded (s s' : State) (t : TileId) (tag : BitVec 16) : Prop :=
  (tileOf s' t).q.started = (tileOf s t).q.started.map (fun o => if o.tag = tag then { o with roles := o.roles - 1 } else o)

/-- A packet of a collective arrives at a tile that it is for, its partition not aborting. -/
def collArrives (s : State) (p : Packet) (ty : BitVec 4) (t : TileId) : Prop :=
  p.type = ty ∧ p.ch = 2 ∧ early s p = false ∧ targetClosed s p = false ∧ collDead s p = false ∧ p.dstDie.toNat < 40 ∧ p.dstTile.toNat < 144 ∧ packetDst p = t.val

/-- No packet that waits for a record stands before a packet on its port (R193). -/
def notHeldUp (s : State) (p : Packet) (t : TileId) : Prop :=
  ∀ i, portAt s t p = some i → portHeld s t p.plane ((allDirs[i]?).getD .local) = false

/-- The bytes of a broadcast's source lie apart from those at LOCAL, where the root's own copy goes. -/
def sourceApart (s : State) (t : TileId) (o : NiOp) : Prop :=
  ∀ i j, i < o.desc.len → j < o.desc.len → tilePlace s t o.who (o.desc.root % 2 ^ 23 + i) ≠ tilePlace s t none (o.desc.loc + j)

/-- ROOT_RECORD_GRANT, BC_GRANT, MCAST_WAIT_EXPIRY, BC_DATA and LANDING_RECORD_GRANT complete: root and landing records are granted, BC_GRANT is recorded and the last admits the broadcast, MCAST_WAIT splits it, and BC_DATA lands or
is discarded (07_collectives.md R192, 07_collectives.md R193, 07_collectives.md R194, 07_collectives.md R195, 07_collectives.md R201,
07_collectives.md Table 7.4). -/
def Obligations.BroadcastsAreGrantedAdmittedAndLand : Prop :=
  (∀ (t : TileId) (s : State) (tag : BitVec 16) (rest : List (BitVec 16)) (o : NiStarted), (tileOf s t).coll.rootQ = tag :: rest →
    (8 ≤ (tileOf s t).coll.roots.length → ∃ s', exec (.rootRecordGrant t) s = .next s' ∧ (tileOf s' t).coll = (tileOf s t).coll)
    ∧ ((tileOf s t).coll.roots.length < 8 → startedOf s t tag = some o → o.op.desc.reduce = true → (tileOf s t).coll.rootW = [] →
      ∃ s', exec (.rootRecordGrant t) s = .next s' ∧ sameMemory s s' ∧ (tileOf s' t).coll = { (tileOf s t).coll with
        rootQ := rest
        roots := (tileOf s t).coll.roots ++ [⟨Fin.ofNat 8 (partNum s t), o.op.desc.collId, o.op.desc.root, o.op, tag,
          (members s o.op.desc.group).length, s.now, false, [], []⟩] }))
  ∧ (∀ (t : TileId) (p : Packet) (s : State) (r : RootRec) (m : Nat), collArrives s p 0xB t → notHeldUp s p t → s.ecc = [] → (tileOf s t).coll.roots = [r] →
    rootOf s t p = some r → r.op.desc.reduce = false → r.admitted = false → (members s r.op.desc.group)[pCount p]? = some m → pFlag p = false →
    r.granted.contains (pCount p) = false → r.op.desc.gmap + pCount p / 8 < 0x600000 → keepBlocks s t (r.op.desc.gmap + pCount p / 8) 1 = false →
    (r.granted.length + 1 < r.awaited → ∃ s', exec (.bcGrant p) s = .next s' ∧ netAfter s s' p []
      ∧ (tileOf s' t).coll.roots = [{ r with granted := r.granted ++ [pCount p] }]
      ∧ landedBytes s s' t (r.op.desc.gmap + pCount p / 8)
        [readByte s (tilePlace s t none (r.op.desc.gmap + pCount p / 8)) ||| BitVec.ofNat 8 (2 ^ (pCount p % 8))])
    ∧ (r.awaited ≤ r.granted.length + 1 → r.op.desc.standing = false → (∀ n ∈ bcTargets s r.op.desc, maySend s t (n / 144)) →
      (∀ j, j < r.op.desc.len →
        tilePlace s t r.op.who (r.op.desc.root % 2 ^ 23 + j) ≠ tilePlace s t none (r.op.desc.gmap + pCount p / 8)) → sourceApart s t r.op →
      ∃ s', exec (.bcGrant p) s = .next s' ∧ (tileOf s' t).coll.roots = [{ r with granted := r.granted ++ [pCount p], admitted := true }] ∧ roleEnded s s' t r.tag
        ∧ ∀ n ∈ bcTargets s r.op.desc, sentTo s s' t r n))
  ∧ (∀ (t : TileId) (coll : BitVec 12) (s : State) (r : RootRec), (tileOf s t).coll.roots = [r] → s.ecc = [] → r.collId = coll.toNat →
    r.admitted = false → r.op.desc.reduce = false → r.granted.length < r.awaited → (∀ n ∈ bcTargets s r.op.desc, maySend s t (n / 144)) →
    sourceApart s t r.op →
    ∃ s', exec (.mcastWaitExpiry t coll) s = .next s' ∧ r.taken + fld s (tileReg t 0x1200) 15 0 * 100 ≤ s'.now
      ∧ (tileOf s' t).coll.roots = [{ r with admitted := true }] ∧ (∀ n ∈ bcTargets s r.op.desc, sentTo s s' t r n)
      ∧ fld s' (tileReg t 0x1220) 31 0 = (fld s (tileReg t 0x1220) 31 0 + 1) % 2 ^ 32)
  ∧ (∀ (t : TileId) (p : Packet) (s : State), collArrives s p 0xA t →
    (landingOf (tileOf s t).coll p = none → ∃ s', exec (.bcData t p) s = .next s' ∧ netAfter s s' p [] ∧ sameMemory s s'
      ∧ fld s' (tileReg t 0x1218) 63 32 = (fld s (tileReg t 0x1218) 63 32 + 1) % 2 ^ 32)
    ∧ (∀ l : Landing, landingOf (tileOf s t).coll p = some l → (tileOf s t).coll.land l.op.desc.line = [l] → openBcast s p = none →
      (p.poison = true → maySend s t (dgaDie l.op.desc.root) → l.op.desc.root < 2 ^ 52 → ∃ s' q, exec (.bcData t p) s = .next s' ∧ netAfter s s' p [q] ∧ sameMemory s s'
        ∧ q.type = 0xB ∧ pFlag q = true ∧ (tileOf s' t).coll = (tileOf s t).coll)
      ∧ (∀ o : NiStarted, p.poison = false → s.ecc = [] → startedOf s t l.tag = some o → 0 < o.roles → l.op.desc.standing = false → l.later = [] →
        l.landed = [] → p.addr.toNat = l.root → p.data.length = l.op.desc.len → l.op.desc.loc + p.data.length ≤ 0x600000 →
        keepBlocks s t l.op.desc.loc p.data.length = false →
        ∃ s', exec (.bcData t p) s = .next s' ∧ netAfter s s' p [] ∧ landedBytes s s' t l.op.desc.loc p.data
          ∧ (tileOf s' t).coll.land l.op.desc.line = [] ∧ roleEnded s s' t l.tag)))
  ∧ (∀ (t : TileId) (pl : Plane) (s : State) (l : Landing), (tileOf s t).coll.lwait pl = [l] → l.op.desc.line = pl →
    (4 ≤ ((tileOf s t).coll.land pl).length → ∃ s', exec (.landingRecordGrant t pl) s = .next s' ∧ (tileOf s' t).coll = (tileOf s t).coll)
    ∧ (((tileOf s t).coll.land pl).length < 4 → l.op.desc.root < 2 ^ 52 → maySend s t (dgaDie l.op.desc.root) →
      ∃ s' q, exec (.landingRecordGrant t pl) s = .next s' ∧ (tileOf s' t).coll.land pl = (tileOf s t).coll.land pl ++ [l]
        ∧ (tileOf s' t).coll.lwait pl = [] ∧ s'.m.net = s.m.net ++ [q] ∧ q.type = 0xB ∧ q.ch = 2 ∧ pFlag q = false
        ∧ pColl q = l.op.desc.collId % 2 ^ 12 ∧ pCount q = memberIndex (members s l.op.desc.group) t % 2 ^ 13 ∧ sameMemory s s'))

/-- The physical extent of a logical extent's version for a step. -/
def versionFor (e : ExtEntry) (step : Nat) : Option Nat := (e.versions.find? (fun v => decide (v.step = step))).map (fun v => v.phys)

/-- The blocks in play of a fold: the outlet entry's place, the G and R versions of the running step, and the block's place in its extent. -/
structure FoldAt where
  gb : Nat
  ge : ExtEntry
  re : ExtEntry
  gk : Nat
  rk : Nat

/-- Where a station die folds block `b` of an outlet entry for a record (R218, R219). -/
def foldsAt (s : State) (n entry b : Nat) (o : OutletRec) (f : FoldAt) : Prop :=
  (∃ oe : OutletEntry, (partOf s o.part.val).consist.bind (fun c => c.outlets[entry]?) = some oe
    ∧ f.gb = (oe.p0.toNat + o.base / 4) / 32 + b ∧ foldExtents s n o.part.val oe f.gb = some (f.ge, f.re))
  ∧ versionFor f.ge (partOf s o.part.val).step = some f.gk ∧ versionFor f.re (partOf s o.part.val).step = some f.rk ∧ f.gk ≠ f.rk

/-- The 32 sums of a fold in FP32 (R219): in the first pass committed residual plus gradient; later the G folded so far plus the in-step
residual, plus the gradient. -/
def foldSums (s : State) (n : Nat) (o : OutletRec) (f : FoldAt) (us : List (Nat × List Lane)) (b : Nat) : List Nat :=
  let at_ := f.gb % g8PerExtent
  let old (k : Option Nat) (i : Nat) : Nat := (blockValues (physBytes (stationOf s n) k (33 * at_) 33)).getD i 0
  (List.range 32).map (fun i =>
    if spGet (stationOf s n).folded 0 (f.gk * 2 ^ 21 + at_) = 0
    then fAdd (old ((versionUpTo f.re (partOf s o.part.val).committed).map (fun v => v.phys)) i) (gradOf s o us b i)
    else fAdd (fAdd (old (some f.gk) i) (old (some f.rk) i)) (gradOf s o us b i))

/-- The results of a parameter block's update: new weight byte, state bytes and whether a result is not finite (R220). -/
def blockResults (s : State) (n : Nat) (j : UpdateJob) (we se : ExtEntry) (b : Nat) (gk : Option Nat) : List (Nat × List Byte × Bool) :=
  let sb := stateBytes j.kernel.toNat
  let x := stationOf s n
  let ws := physBytes x (beforeStep we j.step) (32 * b % extBytes) 32
  let ss := cutStates sb 32 (physBytes x (beforeStep se j.step) (32 * b * sb % extBytes) (32 * sb))
  let gs := blockValues (physBytes x gk (33 * (b % g8PerExtent)) 33)
  (List.zip gs (List.zip ws ss)).map (fun q => updateParam j q.1 (readParam j.kernel.toNat q.2.1 q.2.2))

/-- OUTLET_RD_OPEN, OUTLET_FOLD, UPDATE_BLOCK, UPDATE_COMPLETE and RES_SAVED complete: OUTLET_RD_OPEN takes a record, OUTLET_FOLD writes G and its residual, UPDATE_BLOCK applies the kernel or keeps the block, the step ends in
the journal (08_peat_streaming_updates.md R218, 08_peat_streaming_updates.md R219, 08_peat_streaming_updates.md R220,
08_peat_streaming_updates.md R221, 08_peat_streaming_updates.md R222, 08_peat_streaming_updates.md R226). -/
def Obligations.OutletsFoldAndUpdatesRun : Prop :=
  (∀ (n : StationId) (p : Packet) (s : State), p.type = 8 → p.ch = 2 → p.dstDie.toNat = 40 + n.val → p.dstTile.toNat = 1 → early s p = false →
    targetClosed s p = false → (ejected s p).isSome = true → outletHeld s n p = false →
    collDead s p = false → outletOf s n p = none → (stationOf s n).outletW = [] →
    ((stationOf s n).outlets.length < 64 → stagingUsed s (stationOf s n) + (outletShape s p).2.1 ≤ 32 * 2 ^ 20 →
      ∃ s', exec (.outletRdOpen n p) s = .next s' ∧ netAfter s s' p [] ∧ sameMemory s s' ∧ s'.tiles = s.tiles
        ∧ (stationOf s' n).outlets = (stationOf s n).outlets ++ [⟨Fin.ofNat 64 (outletEntry p.addr.toNat), Fin.ofNat 8 p.part.toNat,
          BitVec.ofNat 12 (pColl p), (members s p.group).length, (outletShape s p).2.1, 0, [], (outletShape s p).1, (outletShape s p).2.2, []⟩])
    ∧ (64 ≤ (stationOf s n).outlets.length → p ∉ s.m.net.erase p → ∃ s', exec (.outletRdOpen n p) s = .next s' ∧ netAfter s s' p []
      ∧ (stationOf s' n).outlets = (stationOf s n).outlets ∧ (stationOf s' n).outletW = [⟨.local, p, s.now⟩]))
  ∧ (∀ (n : StationId) (entry : Fin 64) (b : Nat) (s : State) (o : OutletRec) (us : List (Nat × List Lane)) (f : FoldAt),
    (stationOf s n).outlets = [o] → (stationOf s n).outletW = [] → o.entry = entry → foldUnits s o b = some us → foldsAt s n entry.val b o f →
    ∃ s', exec (.outletFold n entry b) s = .next s' ∧ sameMemory s s'
      ∧ physBytes (stationOf s' n) (some f.gk) (33 * (f.gb % g8PerExtent)) 33
        = toBytes (g8Block .rne [] ((foldSums s n o f us b).map (decodeFp fmt32))).1
      ∧ physBytes (stationOf s' n) (some f.rk) (33 * (f.gb % g8PerExtent)) 33
        = toBytes (g8Residual ((foldSums s n o f us b).map (decodeFp fmt32)) (g8Block .rne [] ((foldSums s n o f us b).map (decodeFp fmt32))).1).1)
  ∧ (∀ (n : StationId) (part : PartId) (b : Nat) (s : State) (j : UpdateJob), jobOf s n part = some j →
    ((b ≠ j.blocks ∨ totalBlocks s n part ≤ b) → exec (.updateBlock n part b) s = .next s)
    ∧ (∀ (we se : ExtEntry) (wk sk : Nat) (gk : Option Nat), b = j.blocks → b < totalBlocks s n part →
      (classEntries s n part .w)[32 * b / extBytes]? = some we → (classEntries s n part .s)[32 * b * stateBytes j.kernel.toNat / extBytes]? = some se →
      versionFor we j.step = some wk → versionFor se j.step = some sk → (∀ e ∈ classEntries s n part .s, ∀ v ∈ e.versions, v.phys ≠ wk) →
      gk = ((classEntries s n part .g)[b / g8PerExtent]?).bind (fun e => versionFor e j.step) →
      ∃ s', exec (.updateBlock n part b) s = .next s' ∧ sameMemory s s' ∧ (jobOf s' n part).map (fun k => k.blocks) = some (b + 1)
        ∧ (((blockResults s n j we se b gk).any (fun r => r.2.2) || rangeLost (stationOf s n) gk (33 * (b % g8PerExtent)) 33
              || rangeLost (stationOf s n) (beforeStep se j.step) (32 * b * stateBytes j.kernel.toNat % extBytes) (32 * stateBytes j.kernel.toNat)) = false →
            physBytes (stationOf s' n) (some wk) (32 * b % extBytes) 32 = (blockResults s n j we se b gk).map (fun r => BitVec.ofNat 8 r.1))
        ∧ ((blockResults s n j we se b gk).any (fun r => r.2.2) = true →
            physBytes (stationOf s' n) (some wk) (32 * b % extBytes) 32 = physBytes (stationOf s n) (beforeStep we j.step) (32 * b % extBytes) 32
            ∧ fld s' (psbPart n part 0x30) 31 0 = (fld s (psbPart n part 0x30) 31 0 + 1) % 2 ^ 32))
    ∧ (j.blocks < totalBlocks s n part → exec (.updateComplete n part) s = .next s)
    ∧ (totalBlocks s n part ≤ j.blocks → ∃ s', exec (.updateComplete n part) s = .next s' ∧ fld s' (psbPart n part 0) 63 32 = j.step % 2 ^ 32
      ∧ (stationOf s' n).updates = (stationOf s n).updates.filter (fun k => decide (k ≠ j)) ∧ journalRec 5 part.val j.step 0 0 ∈ (stationOf s' n).journal))
  ∧ (∀ (n : StationId) (part : PartId) (s : State), (stationOf s n).journal = [] →
    ∃ s', exec (.resSaved n part) s = .next s' ∧ (stationOf s' n).journal = [journalRec 7 part.val (partOf s part.val).committed 0 0]
      ∧ (stationsOn s = [n.val] → (partOf s' part.val).resSaved = true)
      ∧ ((∃ k ∈ stationsOn s, k ≠ n.val ∧ (stationOf s k).journal = []) → (partOf s' part.val).resSaved = (partOf s part.val).resSaved))

/-- Nothing but what units have armed and the signal box's epochs has changed. -/
def epochFrame (s s' : State) : Prop := s'.regs = s.regs ∧ sameMemory s s' ∧ s'.vco = s.vco ∧ s'.ports = s.ports ∧ s'.stations = s.stations

/-- EP_ARM, EP_READY, EPOCH_READY_DEADLINE, EP_COMMIT, EP_ABORT and EPOCH_MISS_REVERT complete: units hold what EP_ARM arms, take COMMIT and ABORT, revert
at ARM + TLIM + 20 us; the signal box commits, retries three times and then gives up (11_bringup_reset_repair.md R297, 11_bringup_reset_repair.md
R298, 11_bringup_reset_repair.md R299, 11_bringup_reset_repair.md R300, 06_lines_and_signals.md R172, 11_bringup_reset_repair.md Table 11.11). -/
def Obligations.EpochProtocolOfUnitsAndSignalBox : Prop :=
  (∀ (u : EpochUnit) (part : PartId) (id kind step : Lane) (s : State),
    ((dieOf s (unitDie u)).region = false ∨ (unitArmed s u).any (fun a => a.isFor part id) = true ∨ kind.toNat % 256 = 0 ∨ 8 ≤ kind.toNat % 256 →
      exec (.epArm u part id kind step) s = .next s)
    ∧ ((dieOf s (unitDie u)).region = true → (unitArmed s u).any (fun a => a.isFor part id) = false → 1 ≤ kind.toNat % 256 → kind.toNat % 256 ≤ 7 →
      ∃ s', exec (.epArm u part id kind step) s = .next s' ∧ epochFrame s s' ∧ unitArmed s' u = unitArmed s u ++ [⟨part, id, kind, step, s.now, none⟩]
        ∧ ∀ e ∈ s'.m.epochs, e.armedAt.isSome = true → e.id = id → e.part = part → u ∉ e.silent))
  ∧ (∀ (u : EpochUnit) (part : PartId) (id : Lane) (at_ : Word) (a : Armed) (s : State), unitArmed s u = [a] → a.isFor part id = true →
    (a.apply = none →
      (s.now ≤ at_.toNat → ∃ s', exec (.epCommit u part id at_) s = .next s' ∧ epochFrame s s' ∧ s'.m = s.m ∧ unitArmed s' u = [{ a with apply := some at_.toNat }])
      ∧ (at_.toNat < s.now → exec (.epCommit u part id at_) s = .next s)
      ∧ (∃ s', exec (.epAbort u part id) s = .next s' ∧ epochFrame s s' ∧ s'.m = s.m ∧ unitArmed s' u = []))
    ∧ (a.apply.isSome = true → ∃ s', exec (.epAbort u part id) s = .next s' ∧ epochFrame s s' ∧ unitArmed s' u = [a]))
  ∧ (∀ (u : EpochUnit) (part : PartId) (a : Armed) (s : State), unitArmed s u = [a] → a.part = part →
    (a.apply = none → ∃ s', exec (.epochMissRevert u part) s = .next s' ∧ a.rcvd + a.id.toNat / 2 ^ 16 % 256 * 1000 + 20000 ≤ s'.now ∧ unitArmed s' u = []
      ∧ fld s' (dieStateReg (unitDie u)) 14 14 = 1 ∧ sameMemory s s')
    ∧ (a.apply.isSome = true → exec (.epochMissRevert u part) s = .next s))
  ∧ (∀ (part : PartId) (e : Epoch) (a : Nat) (s : State), s.m.epochs = [e] → e.part = part → e.armedAt = some a →
    (e.apply = none → e.silent = [] → s.now ≤ a + 10000 →
      ∃ s', exec (.epReady part) s = .next s' ∧ epochFrame s s' ∧ s'.m.epochs = [{ e with apply := some (s.now + 20000) }])
    ∧ ((e.apply.isSome = true ∨ e.silent ≠ [] ∨ a + 10000 < s.now) → exec (.epReady part) s = .next s)
    ∧ (e.apply.isSome = true → exec (.epochReadyDeadline part) s = .next s)
    ∧ (e.apply = none → e.attempts < 3 → ∃ s' id, exec (.epochReadyDeadline part) s = .next s' ∧ a + 10000 < s'.now
      ∧ id = BitVec.ofNat 32 ((nextSeq s e).toNat + 30 * 2 ^ 16)
      ∧ s'.m.epochs = [{ e with id := id, armedAt := some s'.now, attempts := e.attempts + 1, silent := epochUnits s part.val e.type }])
    ∧ (e.apply = none → 3 ≤ e.attempts → e.origin = .stepBoundary → (partOf s part.val).invoke.isSome = true → (partOf s part.val).aborting = false →
      ∃ s', exec (.epochReadyDeadline part) s = .next s' ∧ s'.m.epochs = [] ∧ (partOf s' part.val).aborting = true))

/-- The one epoch of a partition, committed, that nothing else waits for: no stop, no abort asked for. -/
def onlyEpoch (s : State) (part : PartId) (type : Nat) (e : Epoch) (at_ : Nat) : Prop :=
  s.m.epochs = [e] ∧ e.type = type ∧ e.part = part ∧ e.apply = some at_ ∧ (partOf s part.val).abortAsked = false ∧ (partOf s part.val).stopAt = none

/-- A tile has applied an epoch: EPOCH_SEQ counts it and EPOCH_LAST holds it (Table 11.4). -/
def tileApplied (s s' : State) (t : Nat) (e : Epoch) : Prop :=
  (tileOf s' t).epSeq = (tileOf s t).epSeq + 1 ∧ (tileOf s' t).epLast = lastWord e.type e.step.toNat

/-- The tiles of a partition that hold the COMMIT of an epoch. -/
def holderTiles (s : State) (part : PartId) (e : Epoch) : List Nat := (tilesOfPart s part.val).filter (fun t => holdsCommit s (tileUnit t) e)

/-- The powered station dies that hold it. -/
def stationHolders (s : State) (e : Epoch) : List Nat := (stationsOn s).filter (fun n => holdsCommit s (dieUnit (40 + n)) e)

/-- No trigger entry of a tile is armed, and none will be when an invocation starts (R184). -/
def noneArmed (s : State) (t : Nat) : Prop :=
  ∀ p ∈ s.regs, trigReg t 0 0 ≤ p.1 → p.1 < trigReg t 256 0 → (p.1 - trigReg t 0 0) % 32 = 0 → bit p.2 42 = false ∧ bit p.2 43 = false

/-- STEP_COMMIT, STEP_SKIP, GATE_OPEN, START_EPOCH, END_EPOCH and INVOCATION_END_DETECT complete: they take their effect at T on every unit that holds the COMMIT, and the end is detected when
all tiles stop (02_tiles_scratchpad.md R38, 02_tiles_scratchpad.md R59, 07_collectives.md R179, 08_peat_streaming_updates.md R215,
08_peat_streaming_updates.md R228, 11_bringup_reset_repair.md R298, 11_bringup_reset_repair.md R301, 08_peat_streaming_updates.md Table
8.9). -/
def Obligations.EpochsTakeEffectAtTheirTime : Prop :=
  (∀ (part : PartId) (e : Epoch) (at_ : Nat) (s : State),
    (onlyEpoch s part 1 e at_ → ∃ s', exec (.stepCommit part) s = .next s' ∧ at_ ≤ s'.now ∧ e ∉ s'.m.epochs
      ∧ (partOf s' part.val).committed = e.step.toNat ∧ (partOf s' part.val).step = e.step.toNat + 1
      ∧ (∀ t ∈ holderTiles s part e, tileApplied s s' t e
        ∧ fld s' (tileReg t 0xA0) 1 0 = fld s (tileReg t 0xA0) 1 0 ^^^ fld s (tileReg t 0xA0) 3 2)
      ∧ (∀ n ∈ stationHolders s e, fld s' (psbPart n part 0) 6 6 = 0 ∧ fld s' (psbPart n part 0x28) 33 33 = 0))
    ∧ (onlyEpoch s part 2 e at_ → ∃ s', exec (.stepSkip part) s = .next s' ∧ at_ ≤ s'.now ∧ e ∉ s'.m.epochs
      ∧ (partOf s' part.val).committed = (partOf s part.val).committed
      ∧ (∀ t ∈ holderTiles s part e, tileApplied s s' t e ∧ rd s' (tileReg t 0xA0) = rd s (tileReg t 0xA0))
      ∧ (∀ n ∈ stationHolders s e, fld s' (psbPart n part 0) 6 6 = 0 ∧ fld s' (psbPart n part 0x28) 33 33 = 1))
    ∧ (onlyEpoch s part 3 e at_ → ∃ s', exec (.gateOpen part) s = .next s' ∧ at_ ≤ s'.now ∧ e ∉ s'.m.epochs
      ∧ (∀ n ∈ stationHolders s e, fld s' (psbPart n part 0) 6 6 = 1 ∧ (stationOf s' n).hold.any (fun h => decide (h.1 = part)) = false))
    ∧ (onlyEpoch s part 4 e at_ → ∃ s', exec (.startEpoch part) s = .next s' ∧ at_ ≤ s'.now ∧ e ∉ s'.m.epochs
      ∧ (partOf s' part.val).step = (partOf s part.val).committed + 1 ∧ (partOf s' part.val).locked = true
      ∧ (∀ t ∈ holderTiles s part e, tileApplied s s' t e ∧ (tileOf s' t).running = !(enabledCtxs s t).isEmpty ∧ (noneArmed s t → ∀ k, k < 64 → cntOf s' t k = 0)
        ∧ ∀ c : CtxId, (bit (rd s (tileReg t (0x100 + 8 * c.val))) 32 = true →
            (tileOf s' t).ctxOf c = ⟨if (enabledCtxs s t).head? = some c then .running else .ready,
              (fld s (tileReg t (0x100 + 8 * c.val)) 12 0 : Nat), 0, [], [], [], none⟩)
          ∧ (bit (rd s (tileReg t (0x100 + 8 * c.val))) 32 = false → ((tileOf s' t).ctxOf c).st = .idle)))
    ∧ (onlyEpoch s part 5 e at_ → ∀ c : HostCmd, (partOf s part.val).invoke = some c → (partOf s part.val).quiet = false → partState s part.val = 4 →
      ∃ s', exec (.endEpoch part) s = .next s' ∧ at_ ≤ s'.now ∧ e ∉ s'.m.epochs ∧ partState s' part.val = 3
        ∧ (partOf s' part.val).locked = false ∧ (partOf s' part.val).invoke = none
        ∧ (portOf s' c.port.val).done = (portOf s c.port.val).done
          ++ [⟨c.q, BitVec.ofNat 16 (bits c.w0 31 16), 0, 0, BitVec.ofNat 64 ((partOf s part.val).committed % 2 ^ 32)⟩]
        ∧ (∀ t ∈ holderTiles s part e, tileApplied s s' t e ∧ (tileOf s' t).running = false)))
  ∧ (∀ (part : PartId) (s : State),
    ((tilesOfPart s part.val).any (fun t => (tileOf s t).running) = true → exec (.invocationEndDetect part) s = .next s)
    ∧ (s.m.epochs = [] → (partOf s part.val).invoke.isSome = true → (partOf s part.val).locked = true → (partOf s part.val).aborting = false →
      (tilesOfPart s part.val).any (fun t => (tileOf s t).running) = false →
      ∃ s' e, exec (.invocationEndDetect part) s = .next s' ∧ s'.m.epochs = [e] ∧ e.type = 5 ∧ e.part = part ∧ e.armedAt = some s.now
        ∧ e.silent = epochUnits s part.val 5 ∧ sameMemory s s' ∧ s'.regs = s.regs))

/-- ROUTER_FAILURE, ROUTE_GEN, ROUTE_GENERATION_UNLOCK, PLANE, STEP_ABORT, ABORT_QUIET_POLL and ROUTE_TABLE_WRITE complete: ROUTE_GEN and PLANE take
effect at T, a locked route table keeps its words, a failed router disables its plane, and a step abort ends all work quietly (05_ramyr_isa.md R149,
06_lines_and_signals.md R160, 06_lines_and_signals.md R166, 11_bringup_reset_repair.md R296, 11_bringup_reset_repair.md R298, 00_scope.md R15,
12_health_reedline.md R312). -/
def Obligations.RouteGenerationsPlanesAndStepAborts : Prop :=
  (∀ (g : Fin 2) (e : Epoch) (at_ : Nat) (s : State), s.m.epochs = [e] → e.type = 6 → e.apply = some at_ →
    (e.arg % 2 ≠ g.val → ∃ s', exec (.routeGen g) s = .next s' ∧ s'.dies = s.dies ∧ s'.m = s.m)
    ∧ (∀ c : HostCmd, e.arg % 2 = g.val → e.origin = .commit (some c) → (∀ p, (partOf s p).abortAsked = false) →
      ∃ s', exec (.routeGen g) s = .next s' ∧ at_ ≤ s'.now ∧ s'.m.epochs = []
        ∧ (∀ d, d < 48 → (dieOf s d).region = true → holdsCommit s (dieUnit d) e = true →
          (dieOf s' d).genCur = decide (g = 1) ∧ fld s' (ncbReg d 0) 2 2 = g.val ∧ (dieOf s' d).epSeq = (dieOf s d).epSeq + 1)
        ∧ (portOf s' c.port.val).done = (portOf s c.port.val).done ++ [⟨c.q, BitVec.ofNat 16 (bits c.w0 31 16), 0, 0, 0⟩]))
  ∧ (∀ (up dn : Bool) (e : Epoch) (at_ : Nat) (s : State), s.m.epochs = [e] → e.type = 7 → e.apply = some at_ → e.arg % 4 = b2n up + 2 * b2n dn →
    (∀ p, p < 8 → partExists s p = false) → ∃ s', exec (.plane up dn) s = .next s' ∧ at_ ≤ s'.now ∧ s'.m.epochs = []
      ∧ ∀ d, d < 48 → (dieOf s d).region = true → holdsCommit s (dieUnit d) e = true →
        fld s' (ncbReg d 0) 0 0 = b2n up ∧ fld s' (ncbReg d 0) 1 1 = b2n dn)
  ∧ (∀ (d : DieId) (g : Fin 2) (pl : Plane) (w : Fin 6) (v : Word) (s : State),
    (genLocked s d.val g.val = false → ∃ s', exec (.routeTableWrite d g pl w v) s = .next s' ∧ rd s' (routeKey d g pl w) = v
      ∧ ∀ k, k ≠ routeKey d g pl w → rd s' k = rd s k)
    ∧ (genLocked s d.val g.val = true → ∃ s', exec (.routeTableWrite d g pl w v) s = .next s' ∧ rd s' (routeKey d g pl w) = rd s (routeKey d g pl w)
      ∧ fld s' (healthReg d 0x48) 31 0
        = if v = rd s (routeKey d g pl w) then fld s (healthReg d 0x48) 31 0 else (fld s (healthReg d 0x48) 31 0 + 1) % 2 ^ 32))
  ∧ (∀ (g : Fin 2) (d : DieId) (x : Die) (v : Nat) (s : State), s.dies = [(d.val, x)] → x.stopped = [(g.val, v)] →
    ∃ s', exec (.routeGenerationUnlock g) s = .next s' ∧ v + 1000000 ≤ s'.now ∧ (dieOf s' d.val).stopped = [] ∧ s'.regs = s.regs ∧ s'.m = s.m)
  ∧ (∀ (t : TileId) (pl : Plane) (s : State), s.m.epochs = [] → ∃ s' e, exec (.routerFailure t pl) s = .next s' ∧ s'.m.epochs = [e] ∧ e.type = 7
    ∧ e.arg / 2 ^ planeNum pl % 2 = 0 ∧ e.armedAt = some s.now ∧ s'.regs = s.regs ∧ sameMemory s s')
  ∧ (∀ (part : PartId) (s : State),
    (((partOf s part.val).invoke = none ∨ (partOf s part.val).aborting = true) → exec (.stepAbort part) s = .next s)
    ∧ ((partOf s part.val).invoke.isSome = true → (partOf s part.val).aborting = false → commitPending s part.val = true →
      ∃ s', exec (.stepAbort part) s = .next s' ∧ (partOf s' part.val) = { partOf s part.val with abortAsked := true } ∧ s'.tiles = s.tiles ∧ s'.regs = s.regs)
    ∧ ((partOf s part.val).invoke.isSome = true → (partOf s part.val).aborting = false → commitPending s part.val = false →
      ∃ s', exec (.stepAbort part) s = .next s' ∧ (partOf s' part.val).aborting = true ∧ sameMemory s s'
        ∧ (∀ q ∈ s'.m.net, ¬(q.ch = 2 ∧ q.part.toNat = part.val))
        ∧ ∀ t ∈ tilesOfPart s part.val, (tileOf s' t).running = false ∧ (tileOf s' t).q.te = [] ∧ (tileOf s' t).q.ve = [] ∧ (tileOf s' t).q.sh = []
          ∧ (tileOf s' t).q.ni = [] ∧ (tileOf s' t).q.fire = [] ∧ (tileOf s' t).q.halted = 0xFFFF
          ∧ ∀ c : CtxId, ((tileOf s t).ctxOf c).st.live = true → ((tileOf s' t).ctxOf c).st = .faulted ∧ ((tileOf s' t).ctxOf c).fcode = 0x1D
            ∧ ((tileOf s' t).ctxOf c).pc = ((tileOf s t).ctxOf c).pc))
  ∧ (∀ (part : PartId) (s : State),
    ((partOf s part.val).aborting = false → exec (.abortQuietPoll part) s = .next s)
    ∧ (∀ c : HostCmd, (partOf s part.val).aborting = true → partBusy s part.val = false → (partOf s part.val).invoke = some c →
      (partOf s part.val).quiet = false → (partOf s part.val).abortCmds = [] →
      ∃ s' r, exec (.abortQuietPoll part) s = .next s' ∧ (partOf s' part.val).aborting = false ∧ (partOf s' part.val).invoke = none
        ∧ (partState s part.val = 4 → partState s' part.val = 3)
        ∧ (portOf s' c.port.val).done = (portOf s c.port.val).done ++ [⟨c.q, BitVec.ofNat 16 (bits c.w0 31 16), 0x11, 0, r⟩])
    ∧ ((partOf s part.val).aborting = true → partBusy s part.val = true → s.now + 100000 + 28 < (partOf s part.val).abortAt + 1000000 →
      ∃ s', exec (.abortQuietPoll part) s = .next s' ∧ s.now + 100000 ≤ s'.now ∧ s'.m = s.m ∧ s'.tiles = s.tiles))

/-- What a node holds of the flags of a partition once a contribution has come (R172). -/
def orWith (s : State) (k p : Nat) (c : Contributor) (v : Lane) : List (Contributor × Lane) :=
  (combineOf s k p).orIn.filter (fun x => decide (x.1 ≠ c)) ++ [(c, v)]

/-- The same of the sums. -/
def cpWith (s : State) (k p : Nat) (c : Contributor) (hi lo : Lane) : List (Contributor × Lane × Lane) :=
  (combineOf s k p).cpIn.filter (fun x => decide (x.1 ≠ c)) ++ [(c, hi, lo)]

/-- Every contribution that a node expects is among those that have come. -/
def allHere {α : Type} (s : State) (k p : Nat) (l : List (Contributor × α)) : Bool :=
  (expected s k p).all (fun x => l.any (fun y => decide (y.1 = x)))

/-- A node of a powered die. -/
def nodeOn (s : State) (k : Nat) : Bool := (dieOf s (nodeDie k)).region

/-- The signal network carries only messages: memory, tiles and dies are as they were. -/
def signalFrame (s s' : State) : Prop := sameMemory s s' ∧ s'.tiles = s.tiles ∧ s'.dies = s.dies ∧ s'.ports = s.ports ∧ s'.stations = s.stations

/-- A message with bad parity that a node's port has had `n` times in a row (R174). -/
def parityCount (s : State) (k port : Nat) (msg : BitVec 16) : Nat :=
  if (spGet (nodeOf s k).errs (msg, 0) port).1 = msg then (spGet (nodeOf s k).errs (msg, 0) port).2 else 0

/-- SIG_ERR of a tile's node counts one more discarded message. -/
def parityCounted (s s' : State) (t : TileId) : Prop := fld s' (tileReg t 0x4210) 15 0 = (fld s (tileReg t 0x4210) 15 0 + 1) % 2 ^ 16

/-- RED_OR, RED_CPSUM, RED_RESULT, REPORT, DISCOVER, TREE_QUIET_TIMER and SIGNAL_PARITY_ERROR complete: nodes hold and combine RED_OR, RED_CPSUM
and REPORT, the root guards the step, DISCOVER builds the tree, and a link goes DOWN at the fourth error of a message
(06_lines_and_signals.md R170, 06_lines_and_signals.md R171, 06_lines_and_signals.md R172, 06_lines_and_signals.md R174,
08_peat_streaming_updates.md R227, 08_peat_streaming_updates.md R228, 11_bringup_reset_repair.md R291, 06_lines_and_signals.md Table 6.6). -/
def Obligations.SignalMessagesCombineAndTheTreeForms : Prop :=
  (∀ (n : SigNode) (part : PartId) (c : Contributor) (v v' hi lo hi' lo' : Lane) (s : State) (k : Nat), k = nodeKey n →
    mayContribute s k part c = true → v' = ownOr s k part c v → (hi', lo') = ownCp s k part c hi lo →
    (k ≠ rootNode s →
      (allHere s k part (orWith s k part c v') = false → ∃ s', exec (.redOr n part c v) s = .next s' ∧ signalFrame s s'
        ∧ (combineOf s' k part).orIn = orWith s k part c v' ∧ (combineOf s' k part).cpIn = (combineOf s k part).cpIn)
      ∧ (allHere s k part (cpWith s k part c hi' lo') = false → ∃ s', exec (.redCpsum n part c hi lo) s = .next s' ∧ signalFrame s s'
        ∧ (combineOf s' k part).cpIn = cpWith s k part c hi' lo' ∧ (combineOf s' k part).orIn = (combineOf s k part).orIn)
      ∧ (∀ q port, parentOf s k = some (q, port) → q ≠ k → q ≠ rootNode s →
        (allHere s k part (orWith s k part c v') = true → allHere s q part (orWith s q part (childAt port) (orAll (orWith s k part c v'))) = false →
          ∃ s', exec (.redOr n part c v) s = .next s' ∧ signalFrame s s' ∧ (combineOf s' k part).orIn = []
            ∧ (combineOf s' q part).orIn = orWith s q part (childAt port) (orAll (orWith s k part c v')))
        ∧ (∀ x : Nat × Nat, x = cpAll (cpWith s k part c hi' lo') → allHere s k part (cpWith s k part c hi' lo') = true →
          allHere s q part (cpWith s q part (childAt port) (BitVec.ofNat 32 x.1) (BitVec.ofNat 32 x.2)) = false →
          ∃ s', exec (.redCpsum n part c hi lo) s = .next s' ∧ signalFrame s s' ∧ (combineOf s' k part).cpIn = []
            ∧ (combineOf s' q part).cpIn = cpWith s q part (childAt port) (BitVec.ofNat 32 x.1) (BitVec.ofNat 32 x.2))))
    ∧ (k = rootNode s → allHere s k part (orWith s k part c v') = true → allHere s k part (combineOf s k part).cpIn = true →
      (combineOf s k part).cpIn ≠ [] → (partOf s part.val).invoke.isSome = true → (partOf s part.val).aborting = false → s.m.epochs = [] →
      ((orAll (orWith s k part c v')).toNat % 2 = 1 →
        ∃ s' e, exec (.redOr n part c v) s = .next s' ∧ s'.m.epochs = [e] ∧ e.type = 2 ∧ e.part = part ∧ e.step = BitVec.ofNat 32 (partOf s part.val).step)
      ∧ ((orAll (orWith s k part c v')).toNat % 2 = 0 → fld s (psbPart (boxStation s) part 0x20) 31 0 = 0x7F800000 → (partOf s part.val).resSaved = true →
        ∃ s' e, exec (.redOr n part c v) s = .next s' ∧ s'.m.epochs = [e] ∧ e.type = 1 ∧ e.part = part ∧ e.step = BitVec.ofNat 32 (partOf s part.val).step)))
  ∧ (∀ (n : SigNode) (part : PartId) (c : Contributor) (v hi lo : Lane) (s : State), mayContribute s (nodeKey n) part c = false →
    exec (.redOr n part c v) s = .next s ∧ exec (.redCpsum n part c hi lo) s = .next s)
  ∧ (∀ (n : SigNode) (part : PartId) (b hi lo : Lane) (s : State),
    (∀ t, n = .tile t → exec (.redResult n part b hi lo) s = .next s)
    ∧ (∀ k, n = .station k → ∃ s', exec (.redResult n part b hi lo) s = .next s' ∧ signalFrame s s' ∧ s'.m = s.m
      ∧ fld s' (psbPart k part 0x28) 31 0 = hi.toNat ∧ fld s' (psbPart k part 0x28) 32 32 = b.toNat % 2
      ∧ fld s' (psbPart k part 0x28) 33 33 = fld s (psbPart k part 0x28) 33 33))
  ∧ (∀ (n : SigNode) (part : PartId) (id : BitVec 13) (what : ReportWhat) (count : BitVec 4) (detail : Lane) (s : State),
    (nodeOn s (nodeKey n) = false → exec (.report n part id what count detail) s = .next s)
    ∧ (nodeOn s (nodeKey n) = true → nodeKey n ≠ rootNode s → parentOf s (nodeKey n) = none →
      ((nodeOf s (nodeKey n)).reports = [] → ∃ s', exec (.report n part id what count detail) s = .next s' ∧ signalFrame s s'
        ∧ (nodeOf s' (nodeKey n)).reports = [⟨part, id, what, count, detail⟩])
      ∧ (∀ r : Report, (nodeOf s (nodeKey n)).reports = [r] → r.part = part → r.what = what → r.id.toNat < id.toNat →
        ∃ s', exec (.report n part id what count detail) s = .next s' ∧ signalFrame s s'
          ∧ (nodeOf s' (nodeKey n)).reports = [{ r with count := BitVec.ofNat 4 (min 15 (r.count.toNat + count.toNat)) }]))
    ∧ (nodeOn s (nodeKey n) = true → nodeKey n = rootNode s → (nodeOf s (nodeKey n)).reports = [] →
      (what = .ctxFault ∨ what = .watchdog ∨ what = .trigFail) → (partOf s part.val).invoke.isSome = true → (partOf s part.val).aborting = false →
      commitPending s part.val = false → ∃ s', exec (.report n part id what count detail) s = .next s' ∧ (partOf s' part.val).aborting = true))
  ∧ (∀ (n : SigNode) (port : Fin 5) (prio : BitVec 2) (stn : BitVec 3) (hops : BitVec 8) (s : State) (k : Nat) (b : Claim), k = nodeKey n →
    nodeOn s k = true → (nodeOf s k).down.contains port.val = false → bestOf s k = some b →
    (claimBeats ⟨prio, stn, hops⟩ b = true → ∃ s', exec (.discover n port prio stn hops) s = .next s' ∧ signalFrame s s'
      ∧ bestOf s' k = some ⟨prio, stn, hops⟩ ∧ (nodeOf s' k).improved = s.now ∧ bits (nodeStatus s' k) 6 4 = port.val
      ∧ bits (nodeStatus s' k) 7 7 = 0 ∧ bits (nodeStatus s' k) 15 8 = hops.toNat)
    ∧ (claimBeats ⟨prio, stn, hops⟩ b = false → ∃ s', exec (.discover n port prio stn hops) s = .next s' ∧ signalFrame s s'
      ∧ bestOf s' k = some b ∧ nodeStatus s' k = nodeStatus s k))
  ∧ (∀ (n : SigNode) (s : State) (k : Nat), k = nodeKey n → (bestOf s k = none → exec (.treeQuietTimer n) s = .next s)
    ∧ (∀ b, bestOf s k = some b → bits (nodeStatus s k) 7 7 = 0 → ∃ s', exec (.treeQuietTimer n) s = .next s'
      ∧ (nodeOf s k).improved + 1000000 ≤ s'.now ∧ bits (nodeStatus s' k) 7 7 = 1
      ∧ (k = 5760 + b.station.toNat → b.prio = 2 → s'.m.sboxS4 = decide (b.station = 4))))
  ∧ (∀ (n : SigNode) (port : Fin 5) (msg : BitVec 16) (s : State), nodeOn s (nodeKey n) = false →
    exec (.signalParityError ⟨n, port⟩ ⟨msg, false⟩) s = .next s ∧ exec (.signalParityError ⟨n, port⟩ ⟨msg, true⟩) s = .next s)
  ∧ (∀ (t : TileId) (port : Fin 5) (msg : BitVec 16) (s : State), nodeOn s t.val = true →
    (∃ s', exec (.signalParityError ⟨.tile t, port⟩ ⟨msg, true⟩) s = .next s' ∧ signalFrame s s' ∧ parityCounted s s' t ∧ s'.m = s.m)
    ∧ (parityCount s t port msg < 3 → ∃ s', exec (.signalParityError ⟨.tile t, port⟩ ⟨msg, false⟩) s = .next s' ∧ signalFrame s s'
      ∧ parityCounted s s' t ∧ fld s' (tileReg t 0x4210) 31 16 = (fld s (tileReg t 0x4210) 31 16 + 1) % 2 ^ 16
      ∧ parityCount s' t port msg = parityCount s t port msg + 1)
    ∧ (3 ≤ parityCount s t port msg → ∃ s', exec (.signalParityError ⟨.tile t, port⟩ ⟨msg, false⟩) s = .next s' ∧ signalFrame s s'
      ∧ (nodeOf s' t).down.contains port.val = true ∧ parityCounted s s' t))

/-- No memory, tile or network state has changed. -/
def healthFrame (s s' : State) : Prop := sameMemory s s' ∧ s'.tiles = s.tiles ∧ s'.m.net = s.m.net

/-- A record more does not fill the extent of a die's ledger. -/
def ledgerHasRoom (s : State) (d : Nat) : Prop := (ledgerOf s d).length + 1 < ledgerRoom

/-- TSYNC_TICK, TSYNC, ECHO, TRIG, CENSUS_REQ, CENSUS_DATA, CENSUS_SWEEP_START, CENSUS_CHAIN_PHASE, CENSUS_PUBLISH, LEDGER_HOURLY and
LEDGER_DAY_BOUNDARY complete: the root ticks every 1 ms, TSYNC corrects a die, TRIG counts, a census sweep starts every 10 ms, reads every powered die, publishes, and the ledger is kept hourly
and daily (06_lines_and_signals.md R175, 06_lines_and_signals.md R176, 07_collectives.md R179, 12_health_reedline.md R312,
12_health_reedline.md R313, 12_health_reedline.md R314, 12_health_reedline.md R315, 12_health_reedline.md R316, 11_bringup_reset_repair.md
Table 11.1). -/
def Obligations.GlobalTimeTriggersCensusAndLedger : Prop :=
  (∀ s : State, (stageOf s = 4 → fld s modStatus 1 1 = 0 → bits (nodeStatus s (rootNode s)) 7 7 = 1 →
      ∃ s', exec .tsyncTick s = .next s' ∧ stageOf s' = 5 ∧ healthFrame s s')
    ∧ ∃ s', exec .tsyncTick s = .next s' ∧ s.m.power.tsyncAt ≤ s'.now ∧ s'.m.power.tsyncAt = s'.now + 1000000 ∧ healthFrame s s'
      ∧ (bits (nodeStatus s (rootNode s)) 7 7 = 0 → s'.regs = s.regs))
  ∧ (∀ (d : DieId) (T : Word) (s : State), (dieOf s d).region = true → dieNode s d = rootNode s → 0 ≤ (s.now : Int) + offsetOf s d →
    (gtimeOf s d + 20 < T.toNat → ∃ s', exec (.tsync d T) s = .next s' ∧ gtimeOf s' d = T.toNat ∧ fld s' (ncbReg d 0x20) 16 16 = 1 ∧ healthFrame s s')
    ∧ (gtimeOf s d ≤ T.toNat + 20 → T.toNat ≤ gtimeOf s d + 20 → ∃ s', exec (.tsync d T) s = .next s' ∧ gtimeOf s' d = gtimeOf s d ∧ healthFrame s s'
      ∧ (fld s' (ncbReg d 0x20) 15 0 : Int) = ((gtimeOf s d : Int) - T.toNat) % 65536))
  ∧ (∀ (d : DieId) (e : Edge) (rt ta : Nat) (s : State), ∃ s', exec (.echo d e rt ta) s = .next s' ∧ healthFrame s s'
    ∧ ∀ i, i < 4 → fld s' (ncbReg d 0x28) (16 * i + 15) (16 * i)
      = if i = edgeNum e then (rt - ta) / 2 % 65536 else fld s (ncbReg d 0x28) (16 * i + 15) (16 * i))
  ∧ (∀ (src : SigNode) (t : TileId) (k : BitVec 6) (n : BitVec 16) (s : State),
    ((sigReaches sigFuel s (nodeKey src) (t.val / 144) (t.val % 144) = false ∨ goodTile s t = false) → exec (.trig ⟨src, t⟩ k n) s = .next s)
    ∧ (sigReaches sigFuel s (nodeKey src) (t.val / 144) (t.val % 144) = true → goodTile s t = true → armedEntries s t = [] →
      ∃ s', exec (.trig ⟨src, t⟩ k n) s = .next s' ∧ sameMemory s s'
      ∧ ∀ i, i < 64 → cntOf s' t i = if i = k.toNat then (cntOf s t i + n.toNat) % 2 ^ 32 else cntOf s t i))
  ∧ (∀ (d : DieId) (page seq : BitVec 16) (s : State), (sigReaches sigFuel s (rootNode s) d 255 = false → exec (.censusReq d page seq) s = .next s)
    ∧ (sigReaches sigFuel s (rootNode s) d 255 = true → ∃ s', exec (.censusReq d page seq) s = .next s' ∧ healthFrame s s'
      ∧ rd s' (healthReg d 0x98) = BitVec.ofNat 64 (seq.toNat + gtimeOf s d % 2 ^ 48 * 2 ^ 16)))
  ∧ (∀ (d : DieId) (page : BitVec 16) (seq : BitVec 10) (v : Word) (s : State),
    ((s.m.census.active = false ∨ seq.toNat ≠ s.m.census.sweep % 1024) → exec (.censusData d page seq v) s = .next s)
    ∧ (s.m.census.active = true → seq.toNat = s.m.census.sweep % 1024 → (∃ o ∈ censusOffsets, o / 8 = page.toNat) →
      ∃ s', exec (.censusData d page seq v) s = .next s' ∧ healthFrame s s' ∧ (page.toNat, v) ∈ (dieOf s' d).answered ∧ (dieOf s' d).reach = 0))
  ∧ (∀ s : State, (powered s = false → exec .censusSweepStart s = .next s)
    ∧ (powered s = true → s.m.census.startAt % 10000000 = 0 → ∃ s', exec .censusSweepStart s = .next s' ∧ healthFrame s s' ∧ s'.m.census.active = true
      ∧ s'.m.census.sweep = s.m.census.sweep + 1 ∧ s'.m.census.startAt % 10000000 = 0 ∧ s'.m.census.startAt ≤ s'.now
      ∧ ∀ d, d < 48 → (dieOf s' d).answered = [])
    ∧ (s.m.census.active = true → ∃ s', exec (.censusChainPhase [] []) s = .next s' ∧ healthFrame s s' ∧ s.m.census.startAt + 6000000 ≤ s'.now
      ∧ ∀ d, d < 48 → (dieOf s d).region = true → answeredAll s d = false → (dieOf s' d).reach = 1 ∧ answeredAll s' d = true)
    ∧ (s.m.census.active = true → s.m.tap.mchain = none → (∀ d, d < 48 → reachOf s d ≠ 2) →
      (∀ p, p < 8 → ∀ t ∈ tilesOfPart s p, (tileOf s t).epSeq = (partOf s p).applied) →
      ∃ s', exec .censusPublish s = .next s' ∧ healthFrame s s' ∧ s'.m.census.active = false
        ∧ s'.m.census.records = (List.range 48).map (fun d => (d, censusRecord s d))
        ∧ spGet s'.m.census.snapshot [] (s.m.census.sweep % 2) = s'.m.census.header ++ s'.m.census.records.flatMap (fun r => r.2)
        ∧ s'.m.census.header.head? = some (BitVec.ofNat 64 s.m.census.sweep)))
  ∧ (∀ (d : DieId) (s : State), ((dieOf s d).region = false → exec (.ledgerHourly d) s = .next s)
    ∧ ((dieOf s d).region = true → ∃ s', exec (.ledgerHourly d) s = .next s' ∧ healthFrame s s' ∧ (dieOf s d).life.hourAt ≤ s'.now
      ∧ s'.now < (dieOf s' d).life.hourAt
      ∧ (ledgerHasRoom s d → ∃ r, (stationOf s' (homeOf d)).ledger = (stationOf s (homeOf d)).ledger ++ [r] ∧ r.die = d
        ∧ bits (r.words.getD 0 0) 3 0 = 1 ∧ bits (r.words.getD 0 0) 9 4 = d.val)))
  ∧ (∀ s : State, ∃ s', exec .ledgerDayBoundary s = .next s' ∧ healthFrame s s' ∧ s.m.power.dayAt ≤ s'.now
    ∧ ∀ d, d < 48 → (dieOf s d).region = true → fld s' (healthReg d 0x18) 47 32 = 0xFFFF ∧ (dieOf s' d).life.dayMin = fld s (healthReg d 0x18) 47 32)

/-- Power control of a die's clusters leaves memory, the module's own state, station dies and ports alone. -/
def powerFrame (s s' : State) : Prop := sameMemory s s' ∧ s'.m = s.m ∧ s'.stations = s.stations ∧ s'.ports = s.ports

/-- A POWER message for a die whose time has not come waits there. -/
def powerWaits (s s' : State) (d : DieId) (q : PowerMsg) : Prop := s' = setDie s d { dieOf s d with powerQ := (dieOf s d).powerQ ++ [q] }

/-- A bad POWER message is discarded: the die's node counts it in SIG_ERR.PARITY, and nothing else changes. -/
def powerDiscarded (s s' : State) (d : DieId) : Prop :=
  (40 ≤ d.val → signalFrame s s' ∧ s'.regs = s.regs
    ∧ bits (nodeOf s' (dieNode s d)).sigErr 15 0 = (bits (nodeOf s (dieNode s d)).sigErr 15 0 + 1) % 2 ^ 16) ∧ (d.val < 40 → powerFrame s s' ∧ s'.tiles = s.tiles ∧ s'.dies = s.dies
    ∧ fld s' (tileReg (dieNode s d) 0x4210) 15 0 = (fld s (tileReg (dieNode s d) 0x4210) 15 0 + 1) % 2 ^ 16
    ∧ ∀ k, k ≠ tileReg (dieNode s d) 0x4210 → rd s' k = rd s k)

/-- The voltage of CL_VCL, and the highest cluster voltage in mV among the clusters of a die that run. -/
def vclOf (s : State) (d c : Nat) : Nat := fld s (clVcl d c) 5 0

/-- The highest cluster voltage of a die, in mV. -/
def highestVcl (s : State) (d : Nat) : Nat :=
  (((List.range 16).filter (fun c => decide (clusterState s d c = 0))).map (fun c => 600 + 5 * vclOf s d c)).foldl max 0

/-- The lowest headroom of the die regulator, for a dropout -/
def headroomNow (s : State) (d : Nat) (dropout : Nat) : Nat := fld s (powerReg d 8) 9 0 - highestVcl s d - dropout

/-- POWER_GEAR, POWER_CSTATE, POWER_REGION and POWER_GEARMAX complete: they wait for their time, set gears, cluster states, regions and GEAR_MAX of the die, and bad ones are discarded and counted
(10_power_clocks_mere.md R268, 10_power_clocks_mere.md R269, 10_power_clocks_mere.md R274, 10_power_clocks_mere.md Table 10.7,
11_bringup_reset_repair.md Table 11.6). -/
def Obligations.PowerMessagesSetGearsClustersAndRegions : Prop :=
  ∀ (d : DieId) (cl : BitVec 16) (a : BitVec 4) (T : Word) (s : State),
    (∀ pad : BitVec 2,
      ((powerOk d ⟨1, cl, a, T.toNat⟩ = false ∨ pad ≠ 0) → ∃ s', exec (.powerGear ⟨d, pad⟩ cl a T) s = .next s' ∧ powerDiscarded s s' d)
      ∧ ((powerOk d ⟨2, cl, a, T.toNat⟩ = false ∨ pad ≠ 0) → ∃ s', exec (.powerCstate ⟨d, pad⟩ cl a T) s = .next s' ∧ powerDiscarded s s' d)
      ∧ ((1 < a.toNat ∨ pad ≠ 0) → ∃ s', exec (.powerRegion ⟨d, pad⟩ a T) s = .next s' ∧ powerDiscarded s s' d)
      ∧ ((powerOk d ⟨4, cl, a, T.toNat⟩ = false ∨ pad ≠ 0) → ∃ s', exec (.powerGearmax ⟨d, pad⟩ cl a T) s = .next s' ∧ powerDiscarded s s' d))
    ∧ (s.now < T.toNat →
      (powerOk d ⟨1, cl, a, T.toNat⟩ = true → ∃ s', exec (.powerGear ⟨d, 0⟩ cl a T) s = .next s' ∧ powerWaits s s' d ⟨1, cl, a, T.toNat⟩)
      ∧ (powerOk d ⟨2, cl, a, T.toNat⟩ = true → ∃ s', exec (.powerCstate ⟨d, 0⟩ cl a T) s = .next s' ∧ powerWaits s s' d ⟨2, cl, a, T.toNat⟩)
      ∧ (a.toNat ≤ 1 → ∃ s', exec (.powerRegion ⟨d, 0⟩ a T) s = .next s' ∧ powerWaits s s' d ⟨3, 0, a, T.toNat⟩)
      ∧ (powerOk d ⟨4, cl, a, T.toNat⟩ = true → ∃ s', exec (.powerGearmax ⟨d, 0⟩ cl a T) s = .next s' ∧ powerWaits s s' d ⟨4, cl, a, T.toNat⟩))
    ∧ (T.toNat ≤ s.now →
      (d.val < 40 → a.toNat ≤ 4 → ∃ s', exec (.powerGear ⟨d, 0⟩ cl a T) s = .next s' ∧ powerFrame s s'
        ∧ ∀ c, c < 16 → cl.getLsbD c = true → spGet (dieOf s' d).govGear 0 c = a.toNat ∧ wantedGear s' d c ≤ gearOf s' d c)
      ∧ (d.val < 40 → (a.toNat = 0 ∨ a.toNat = 2 ∨ a.toNat = 3) → ∃ s', exec (.powerCstate ⟨d, 0⟩ cl a T) s = .next s'
        ∧ ∀ c, c < 16 → spGet (dieOf s' d).cstate 0 c = if cl.getLsbD c then a.toNat else spGet (dieOf s d).cstate 0 c)
      ∧ (a.toNat = 1 → ((dieOf s d).region = true ∨ s.m.fencedDies.contains d.val = true → exec (.powerRegion ⟨d, 0⟩ a T) s = .next s)
        ∧ ((dieOf s d).region = false → s.m.fencedDies.contains d.val = false → ∃ s', exec (.powerRegion ⟨d, 0⟩ a T) s = .next s'
          ∧ (dieOf s' d).region = true ∧ fld s' (dieStateReg d) 1 0 = 0 ∧ sameMemory s s' ∧ s'.m = s.m ∧ s'.tiles = s.tiles))
      ∧ (a.toNat = 0 → ((dieOf s d).region = false → exec (.powerRegion ⟨d, 0⟩ a T) s = .next s)
        ∧ ((dieOf s d).region = true → ∃ s', exec (.powerRegion ⟨d, 0⟩ a T) s = .next s' ∧ (dieOf s' d).region = false ∧ fld s' (dieStateReg d) 1 0 = 3
          ∧ ∀ t : TileId, t.val / 144 = d.val → tileOf s' t = Tile.reset))
      ∧ (d.val < 40 → a.toNat ≤ 4 → ∃ s', exec (.powerGearmax ⟨d, 0⟩ cl a T) s = .next s' ∧ powerFrame s s'
        ∧ fld s' (powerReg d 0) 22 20 = a.toNat ∧ ∀ c, c < 16 → spGet (dieOf s d).govGear 0 c ≤ 4 → wantedGear s' d c ≤ gearOf s' d c))

/-- Every register but one reads as it did. -/
def otherRegs (s s' : State) (key : Nat) : Prop := ∀ k, k ≠ key → rd s' k = rd s k

/-- GEAR_RAISE_SWITCH, CLUSTER_MARGIN_LOOP, DIE_REGULATOR_LOOP, DROOP, ILIM_HIT and PHASE_FAULT complete: gear raises, the cluster and die regulator loops, droops, ILIM and phase faults move their registers as the rules say
(10_power_clocks_mere.md R264, 10_power_clocks_mere.md R265, 10_power_clocks_mere.md R266, 10_power_clocks_mere.md R267,
10_power_clocks_mere.md R268, 10_power_clocks_mere.md Table 10.2, 10_power_clocks_mere.md Table 10.7, 10_power_clocks_mere.md Table 10.8). -/
def Obligations.RegulatorsGearsDroopsAndPhases : Prop :=
  (∀ (d : ComputeDie) (c : Fin 16) (m : BitVec 16) (s : State) (g w v tgt : Nat), g = gearOf s d c → w = wantedGear s d c → v = vclOf s d c →
      tgt = fld s (powerReg d 0x18) 15 8 →
    (¬ w < g → exec (.gearRaiseSwitch d c m) s = .next s)
    ∧ (w < g → ∃ s', exec (.gearRaiseSwitch d c m) s = .next s' ∧ powerFrame s s' ∧ vclOf s' d c = min 52 (v + 5 * (g - w))
      ∧ fld s' (clVcl d c) 31 16 = m.toNat ∧ gearOf s' d c = (if tgt ≤ m.toNat then w else g))
    ∧ (m.toNat < tgt → v < 52 → ∃ s', exec (.clusterMarginLoop d c m) s = .next s' ∧ powerFrame s s' ∧ s'.tiles = s.tiles ∧ s'.dies = s.dies
      ∧ vclOf s' d c = v + 1 ∧ fld s' (clVcl d c) 31 16 = m.toNat ∧ gearOf s' d c = g)
    ∧ (m.toNat < tgt → 52 ≤ v → ∃ s', exec (.clusterMarginLoop d c m) s = .next s' ∧ powerFrame s s' ∧ vclOf s' d c = v
      ∧ fld s' (clVcl d c) 31 16 = m.toNat ∧ spGet (dieOf s' d).govGear 0 c = min 4 (g + 1) ∧ wantedGear s' d c ≤ gearOf s' d c)
    ∧ (tgt + 10 < m.toNat → ∃ s', exec (.clusterMarginLoop d c m) s = .next s' ∧ powerFrame s s' ∧ s'.tiles = s.tiles ∧ s'.dies = s.dies
      ∧ vclOf s' d c = v - 1 ∧ fld s' (clVcl d c) 31 16 = m.toNat ∧ gearOf s' d c = g)
    ∧ (tgt ≤ m.toNat → m.toNat ≤ tgt + 10 → ∃ s', exec (.clusterMarginLoop d c m) s = .next s' ∧ powerFrame s s' ∧ s'.tiles = s.tiles
      ∧ s'.dies = s.dies ∧ vclOf s' d c = v ∧ fld s' (clVcl d c) 31 16 = m.toNat ∧ gearOf s' d c = g))
  ∧ (∀ (d : ComputeDie) (drop : Nat) (s : State) (vdie tgt : Nat), vdie = fld s (powerReg d 8) 9 0 → tgt = fld s (powerReg d 0x18) 23 16 →
    ∃ s', exec (.dieRegulatorLoop d drop) s = .next s' ∧ powerFrame s s' ∧ s'.tiles = s.tiles ∧ s'.dies = s.dies
      ∧ (∀ k, k ≠ powerReg d 8 → rd s' k = rd s k) ∧ fld s' (powerReg d 8) 19 10 = headroomNow s d drop % 1024
      ∧ (headroomNow s d drop < tgt → vdie < 900 → vdie < fld s' (powerReg d 8) 9 0 ∧ 700 ≤ fld s' (powerReg d 8) 9 0 ∧ fld s' (powerReg d 8) 9 0 ≤ 900)
      ∧ (tgt + 20 < headroomNow s d drop → 700 < vdie →
        fld s' (powerReg d 8) 9 0 < vdie ∧ 700 ≤ fld s' (powerReg d 8) 9 0 ∧ fld s' (powerReg d 8) 9 0 ≤ 900)
      ∧ (tgt ≤ headroomNow s d drop → headroomNow s d drop ≤ tgt + 20 → fld s' (powerReg d 8) 9 0 = vdie))
  ∧ (∀ (d : ComputeDie) (c : Fin 16) (n : Nat) (s : State), ∃ s', exec (.droop d c n) s = .next s' ∧ powerFrame s s' ∧ s'.dies = s.dies
    ∧ fld s' (clPwr d c) 63 32 = (fld s (clPwr d c) 63 32 + n) % 2 ^ 32 ∧ fld s' (powerReg d 0x30) 3 3 = 1
    ∧ ∀ t, t < 5760 → tileOf s' t
      = if t ∈ clusterTiles d c ∧ (tileOf s t).running = true then { tileOf s t with stallAt := (tileOf s t).stallAt + n } else tileOf s t)
  ∧ (∀ (d : DieId) (s : State),
    (d.val < 40 → (∀ c, c < 16 → wantedGear s d c ≤ gearOf s d c) → ∃ s', exec (.ilimHit d) s = .next s' ∧ powerFrame s s'
      ∧ fld s' (powerReg d 0x30) 2 2 = 1 ∧ ∀ c, c < 16 → gearOf s' d c = if gearOf s d c < 4 then gearOf s d c + 1 else gearOf s d c)
    ∧ (40 ≤ d.val → ∃ s', exec (.ilimHit d) s = .next s' ∧ powerFrame s s' ∧ s'.tiles = s.tiles ∧ s'.dies = s.dies
      ∧ fld s' (powerReg d 0x30) 2 2 = 1 ∧ otherRegs s s' (powerReg d 0x30)))
  ∧ (∀ (d : DieId) (ph : Fin 24) (r : BitVec 2) (s : State),
    (((dieOf s d).region = false ∨ phaseCount d ≤ ph.val ∨ bit (rd s (powerReg d 0x20)) ph = true ∨ r = 3) → exec (.phaseFault d ph r) s = .next s)
    ∧ (d.val < 40 → (dieOf s d).region = true → bit (rd s (powerReg d 0x20)) ph = false → r ≠ 3 → 19 ≤ activePhases s d →
      ∃ s', exec (.phaseFault d ph r) s = .next s' ∧ sameMemory s s' ∧ bit (rd s' (powerReg d 0x20)) ph = true
        ∧ fld s' (powerReg d 0) 4 0 + 1 = activePhases s d ∧ fld s' (powerReg d 0x30) 0 0 = 1
        ∧ (bit (rd s (powerReg d 0x28)) 63 = true → rd s' (powerReg d 0x28) = rd s (powerReg d 0x28))
        ∧ (bit (rd s (powerReg d 0x28)) 63 = false → bits (rd s' (powerReg d 0x28)) 4 0 = ph.val ∧ bits (rd s' (powerReg d 0x28)) 7 5 = r.toNat)))

/-- A packet of a type for unit `u` of station die Sn reaches it in its partition's turn, and the answer can go back on either plane. -/
def atStation (s : State) (p : Packet) (n u : Nat) (ty : BitVec 4) : Prop :=
  p.dstDie.toNat = 40 + n ∧ p.dstTile.toNat = u ∧ reaches s p ty ∧ (ejected s p).isSome = true ∧ routesOpen s p.dstDie.toNat p.srcDie.toNat

/-- A station die as another one, but for the deficits of its arbiters, which a packet that leaves its routers spends (R249). -/
def sameStation (s' : State) (n : Nat) (x : Station) : Prop := stationOf s' n = { x with arbs := (stationOf s' n).arbs }

/-- Every station die is as it was, but for the deficits of its arbiters. -/
def sameStations (s s' : State) : Prop := ∀ n, sameStation s' n (stationOf s n)

/-- Every register that satisfies a condition is as it was, but for the flit counters of routers, which a siding left free lets go on (R155). -/
def keptRegs (s s' : State) (k : Nat → Prop) : Prop :=
  ∀ key, k key → (∀ u pl, u < 5760 → key ≠ rtReg u pl 0x40) → rd s' key = rd s key

/-- The map entry that a packet's Peat address names. -/
def peatEntry (s : State) (n : Nat) (p : Packet) : ExtEntry := entryOf s n (peatNs p.addr.toNat) (peatExt p.addr.toNat)

/-- The pages that a packet reads. -/
def readPages (p : Packet) : List Nat := pagesOf (peatOff p.addr.toNat) (readLen p)

/-- The bytes that a read of physical extent k returns. -/
def peatData (s : State) (n k : Nat) (p : Packet) : List Byte := physBytes (stationOf s n) (some k) (peatOff p.addr.toNat) (readLen p)

/-- What the Peat leaves alone: the tiles' memory, tiles and partitions. -/
def peatFrame (s s' : State) : Prop := sameMemory s s' ∧ s'.tiles = s.tiles ∧ s'.m.parts = s.m.parts

/-- A station die that has taken a block out of use. -/
def withRetired (x : Station) (k : Nat) : Station := { x with retired := x.retired ++ [k] }

/-- PEAT_READ_REQ and FLASH_READ_COMPLETE complete: Peat reads are refused, held at a closed gate, answered from the depot cache, or wait for flash, whose
completion answers or loses them (01_organisation.md R31, 08_peat_streaming_updates.md R207, 08_peat_streaming_updates.md R209,
08_peat_streaming_updates.md R213, 08_peat_streaming_updates.md R215, 08_peat_streaming_updates.md R217, 08_peat_streaming_updates.md Table 8.2,
08_peat_streaming_updates.md Table 8.3). -/
def Obligations.PeatReadsAreServedHeldAndCounted : Prop :=
  (∀ (n : Fin 8) (p : Packet) (s : State) (q : Nat), q = p.part.toNat → atStation s p n 3 1 →
    (readLenOk p = false → ∃ s', exec (.peatReadReq p) s = .next s' ∧ answeredBy s s' p 4 4 [] ∧ peatFrame s s')
    ∧ (readLenOk p = true → peatMapped s q p.addr.toNat (readLen p) = false →
      ∃ s', exec (.peatReadReq p) s = .next s' ∧ answeredBy s s' p 4 3 [] ∧ peatFrame s s')
    ∧ (readLenOk p = true → peatMapped s q p.addr.toNat (readLen p) = true →
      ((peatEntry s n p).cls = .w → gateOpen s n q = false →
        (((stationOf s n).hold.filter (fun h => decide (h.1.val = q))).length < 4096 → ∃ s', exec (.peatReadReq p) s = .next s' ∧ peatFrame s s'
          ∧ s'.m.net = s.m.net.erase p ∧ sameStation s' n { stationOf s n with hold := (stationOf s n).hold ++ [(Fin.ofNat 8 q, p)] })
        ∧ (4096 ≤ ((stationOf s n).hold.filter (fun h => decide (h.1.val = q))).length → ∃ s', exec (.peatReadReq p) s = .next s' ∧ peatFrame s s'
          ∧ answeredBy s s' p 4 7 [] ∧ sameStation s' n (stationOf s n)
          ∧ fld s' (psbReg n 0x58) 47 16 = (fld s (psbReg n 0x58) 47 16 + 1) % 2 ^ 32 ∧ keptRegs s s' (fun key => key ≠ psbReg n 0x58)))
      ∧ (((peatEntry s n p).cls ≠ .w ∨ gateOpen s n q = true) →
        (resolve s n q (peatEntry s n p) = none →
          ∃ s', exec (.peatReadReq p) s = .next s' ∧ peatFrame s s' ∧ answeredBy s s' p 2 0 (List.replicate (readLen p) 0))
        ∧ (∀ k, resolve s n q (peatEntry s n p) = some k →
          ((readPages p).any (fun g => (stationOf s n).lost.contains (k, g)) = true →
            ∃ s', exec (.peatReadReq p) s = .next s' ∧ peatFrame s s' ∧ answeredBy s s' p 4 2 [])
          ∧ ((readPages p).any (fun g => (stationOf s n).lost.contains (k, g)) = false →
            (cached (stationOf s n) k (readPages p) = true → ∃ s', exec (.peatReadReq p) s = .next s' ∧ peatFrame s s'
              ∧ answeredBy s s' p 2 0 (peatData s n k p) ∧ fld s' (psbReg n 0x48) 63 0 = (fld s (psbReg n 0x48) 63 0 + 1) % 2 ^ 64
              ∧ keptRegs s s' (fun key => key ≠ psbReg n 0x48))
            ∧ (cached (stationOf s n) k (readPages p) = false → ∃ s', exec (.peatReadReq p) s = .next s' ∧ peatFrame s s'
              ∧ s'.m.net = s.m.net.erase p ∧ sameStation s' n { stationOf s n with reads := (stationOf s n).reads ++ [(k, p)] }
              ∧ fld s' (psbReg n 0x50) 63 0 = (fld s (psbReg n 0x50) 63 0 + 1) % 2 ^ 64 ∧ keptRegs s s' (fun key => key ≠ psbReg n 0x50)))))))
  ∧ (∀ (n : StationId) (pg : PhysPage) (r : Fin 8) (dec : Bool) (s : State) (p : Packet) (page k : Nat), page = pg.row * 15 + pg.page.val → k = pg.extent →
    (stationOf s n).reads = [(k, p)] → readPages p = [page] → setLines (stationOf s n) ⟨0, k, page⟩ = [] →
    (readTurn s n k page r.val).isSome = true →
    (deadChannels (stationOf s n) k).contains (pageChannel pg.row pg.page.val) = false → (stationOf s n).lost.contains (k, page) = false →
    routesOpen s p.dstDie.toNat p.srcDie.toNat →
    ((dec = true ∨ rebuildable (stationOf s n) k pg.row pg.page.val = true) → ∃ s' a, exec (.flashReadComplete n pg r dec) s = .next s' ∧ peatFrame s s'
      ∧ cached (stationOf s' n) k [page] = true ∧ (stationOf s' n).reads = [] ∧ s'.m.net = s.m.net ++ [a]
      ∧ a.ch = 1 ∧ a.type = 2 ∧ a.data = peatData s n k p ∧ a.tag = p.tag ∧ a.addr = p.addr ∧ a.dstDie = p.srcDie ∧ a.dstTile = p.srcTile
      ∧ fld s' (psbReg n 0x18) 23 0 = (fld s (psbReg n 0x18) 23 0 + r.val) % 2 ^ 24
      ∧ fld s' (psbReg n 0x18) 47 24 = (fld s (psbReg n 0x18) 47 24 + if dec then 0 else 1) % 2 ^ 24
      ∧ fld s' (psbReg n 0x18) 63 48 = fld s (psbReg n 0x18) 63 48)
    ∧ (dec = false → rebuildable (stationOf s n) k pg.row pg.page.val = false → ∃ s' a, exec (.flashReadComplete n pg r dec) s = .next s' ∧ peatFrame s s'
      ∧ (k, page) ∈ (stationOf s' n).lost ∧ (stationOf s' n).lines = (stationOf s n).lines ∧ (stationOf s' n).reads = []
      ∧ s'.m.net = s.m.net ++ [a] ∧ a.type = 4 ∧ a.nakr = 2 ∧ a.tag = p.tag ∧ a.dstDie = p.srcDie
      ∧ fld s' (psbReg n 0x18) 63 48 = (fld s (psbReg n 0x18) 63 48 + 1) % 2 ^ 16))

/-- PEAT_WRITE, PROGRAM_FAIL, NAND_DIE_FAIL, REBUILD_EXTENT, HOST_MEMORY_READ and HOST_MEMORY_WRITE complete: Peat writes go to fresh extents or are
refused, blocks and NAND dies retire and rebuild, and a port serves reads and writes of host memory (08_peat_streaming_updates.md R207,
08_peat_streaming_updates.md R208, 08_peat_streaming_updates.md R209, 08_peat_streaming_updates.md R211, 08_peat_streaming_updates.md R212,
08_peat_streaming_updates.md R217, 08_peat_streaming_updates.md R226, 09_hosts_partitions.md R233, 06_lines_and_signals.md Table 6.3,
08_peat_streaming_updates.md Table 8.4, 09_hosts_partitions.md Table 9.6). -/
def Obligations.PeatWritesBlocksAndHostMemory : Prop :=
  (∀ (n : Fin 8) (p : Packet) (s : State) (q k : Nat) (e : ExtEntry), q = p.part.toNat → e = peatEntry s n p → atStation s p n 3 0 → peatStn p.addr.toNat = n →
    (p.poison = true → ∃ s', exec (.peatWrite p) s = .next s' ∧ answeredBy s s' p 4 (if p.nakr = 5 then 5 else 2) []
        ∧ peatFrame s s' ∧ sameStations s s')
    ∧ (p.poison = false → (peatMapped s q p.addr.toNat p.data.length = false ∨ e.cls = .w ∨ e.cls = .s ∨ e.cls = .r ∨ e.cls = .g
        ∨ (e.cls = .d ∧ spareFree s n < 256)) →
      ∃ s', exec (.peatWrite p) s = .next s' ∧ answeredBy s s' p 4 3 [] ∧ peatFrame s s' ∧ sameStations s s')
    ∧ (p.poison = false → peatMapped s q p.addr.toNat p.data.length = true → e.cls = .d → 256 ≤ spareFree s n → freeExtent (stationOf s n) = some k →
      ∃ s', exec (.peatWrite p) s = .next s' ∧ answeredBy s s' p 3 0 [] ∧ peatFrame s s'
        ∧ (e.versions = [] → peatEntry s' n p = { e with versions := [⟨0, k⟩] })
        ∧ (∀ v, e.versions = [v] → peatEntry s' n p = { e with versions := [{ v with phys := k }] })
        ∧ physBytes (stationOf s' n) (some k) (peatOff p.addr.toNat) p.data.length = p.data)
    ∧ (∀ v, p.poison = false → peatMapped s q p.addr.toNat p.data.length = true → e.cls = .k →
      e.versions.find? (fun v => decide (v.step = (partOf s q).committed)) = some v →
      ((partOf s q).resSaved = false → ∃ s', exec (.peatWrite p) s = .next s' ∧ answeredBy s s' p 3 0 [] ∧ peatFrame s s' ∧ peatEntry s' n p = e
        ∧ physBytes (stationOf s' n) (some v.phys) (peatOff p.addr.toNat) p.data.length = p.data)
      ∧ ((partOf s q).resSaved = true → freeExtent (stationOf s n) = some k →
        ∃ s', exec (.peatWrite p) s = .next s' ∧ answeredBy s s' p 3 0 [] ∧ peatFrame s s'
          ∧ peatEntry s' n p = { e with versions := e.versions.map (fun x => if x.phys = v.phys then { x with phys := k } else x) }
          ∧ physBytes (stationOf s' n) (some k) (peatOff p.addr.toNat) p.data.length = p.data)))
  ∧ (∀ (n : StationId) (k : Nat) (c : Fin 16) (s : State), ∃ s', exec (.programFail n k c) s = .next s' ∧ peatFrame s s'
    ∧ (stationOf s' n).retired.contains k = true ∧ fld s' (psbReg n 0x10) 31 0 = fld s (psbReg n 0x10) 31 0 - 1
    ∧ fld s' (psbReg n 0x10) 63 32 = (fld s (psbReg n 0x10) 63 32 + 1) % 2 ^ 32
    ∧ ((stationOf s n).retired.contains k = false → (freeExtent (withRetired (stationOf s n) k)).isSome = true → (physUsed (stationOf s' n)).contains k = false))
  ∧ (∀ (n : StationId) (c w : Fin 16) (s : State), ((stationOf s n).nandFail.contains (c, w) = true → exec (.nandDieFail n c w) s = .next s)
    ∧ ((stationOf s n).nandFail.any (fun f => decide (f.2 = w)) = false → ∃ s', exec (.nandDieFail n c w) s = .next s' ∧ peatFrame s s'
      ∧ stationOf s' n = { stationOf s n with nandFail := (stationOf s n).nandFail ++ [(c, w)] }
      ∧ fld s' (psbReg n 0) (16 + c) (16 + c) = 1
      ∧ fld s' (psbReg n 0x28) 63 32 = (fld s (psbReg n 0x28) 63 32 + ((physUsed (stationOf s n)).filter (fun k => decide (nandOf k = w.val))).length) % 2 ^ 32))
  ∧ (∀ (n : StationId) (k : Nat) (s : State),
    ((fld s (psbReg n 0x28) 63 32 = 0 ∨ (physUsed (stationOf s n)).contains k = false ∨ deadChannels (stationOf s n) k = []) →
      exec (.rebuildExtent n k) s = .next s)
    ∧ (fld s (psbReg n 0x28) 63 32 ≠ 0 → (physUsed (stationOf s n)).contains k = true → deadChannels (stationOf s n) k ≠ [] →
      ∃ s', exec (.rebuildExtent n k) s = .next s' ∧ peatFrame s s' ∧ fld s' (psbReg n 0x28) 63 32 = fld s (psbReg n 0x28) 63 32 - 1
        ∧ fld s' (psbReg n 0x10) 31 0 = fld s (psbReg n 0x10) 31 0 - 1
        ∧ (fld s (psbReg n 0x28) 63 32 = 1 → fld s' (psbReg n 0) 31 16 = 0)
        ∧ ((freeExtent (withRetired (stationOf s n) k)).isSome = true → (physUsed (stationOf s' n)).contains k = false)))
  ∧ (∀ (n : PortId) (p : Packet) (res : HostReadResult) (s : State), atStation s p n 2 1 →
    (readLenOk p = false → ∃ s', exec (.hostMemoryRead n p res) s = .next s' ∧ answeredBy s s' p 4 4 [] ∧ peatFrame s s')
    ∧ (readLenOk p = true → (∀ bs, (portOf s n).linkUp = true → res = .data bs → bs.length = readLen p →
        ∃ s', exec (.hostMemoryRead n p res) s = .next s' ∧ answeredBy s s' p 2 0 bs ∧ peatFrame s s' ∧ keptRegs s s' (fun _ => True))
      ∧ (((portOf s n).linkUp = false ∨ ∀ bs, res ≠ .data bs) → ∃ s', exec (.hostMemoryRead n p res) s = .next s' ∧ answeredBy s s' p 4 2 []
        ∧ peatFrame s s' ∧ fld s' (portErr n) 15 0 = (fld s (portErr n) 15 0 + 1) % 2 ^ 16)))
  ∧ (∀ (n : PortId) (p : Packet) (s : State) (a : Nat), a = hostAddr n p.addr.toNat → atStation s p n 2 0 →
    (((portOf s n).linkUp = false ∨ p.nakr = 5) → ∃ s', exec (.hostMemoryWrite n p) s = .next s' ∧ answeredBy s s' p 4 5 [] ∧ peatFrame s s')
    ∧ ((portOf s n).linkUp = true → p.nakr ≠ 5 → p.poison = false → ∃ s', exec (.hostMemoryWrite n p) s = .next s' ∧ answeredBy s s' p 3 0 []
      ∧ keptRegs s s' (fun _ => True)
      ∧ s'.tiles = s.tiles ∧ (∀ j, j < p.data.length → readByte s' (a + j) = p.data.getD j 0)
      ∧ ∀ b, (b < a ∨ a + p.data.length ≤ b) → readByte s' b = readByte s b))

/-- The state in which a fetched command begins: it has left its port's list (R240). -/
def taken (s : State) (c : HostCmd) : State := updPort s c.port.val (fun x => { x with fetched := x.fetched.erase c })

/-- A command is next from its queue, the module is ready for it or it may come early, and no reserved bit is set (R232, R240, R241). -/
def accepted (s : State) (c : HostCmd) (op : Nat) (masks : Nat × Nat × Nat) (early : Bool) : Prop :=
  mayStart s c op = true ∧ (early = true ∨ bit (rd s modStatus) 0 = true) ∧ firstReserved c masks = none

/-- A command has completed on its port: after what the port held and what came meanwhile, its identifier, status and detail wait in its queue. -/
def completed (s s' : State) (c : HostCmd) (st de : Byte) (res : Word → Prop) : Prop :=
  (portOf s' c.port.val).fetched = (portOf s c.port.val).fetched.erase c
    ∧ ∃ l x, (portOf s' c.port.val).done = (portOf s c.port.val).done ++ l ++ [x] ∧ x.q = c.q
      ∧ x.cid = BitVec.ofNat 16 (bits c.w0 31 16) ∧ x.status = st ∧ x.detail = de ∧ res x.result

/-- A command turned away: it completes with a failure and nothing else of the module changes. -/
def turnedAway (s s' : State) (c : HostCmd) (st de : Nat) : Prop :=
  completed s s' c (BitVec.ofNat 8 st) (BitVec.ofNat 8 de) (fun _ => True) ∧ s'.regs = s.regs ∧ sameMemory s s' ∧ s'.tiles = s.tiles
    ∧ s'.dies = s.dies ∧ s'.stations = s.stations ∧ s'.m = s.m ∧ ∀ n, n ≠ c.port.val → portOf s' n = portOf s n

/-- Who may send a command: any port even before READY, any port, the administration port, or a port bound to a partition. -/
inductive Sender where
  | early
  | anyPort
  | admin
  | bound
deriving DecidableEq, Repr

/-- The commands of Table 9.7: row, opcode, named bits of words 1 to 3, and sender. -/
def hostRows : List ((HostCmd → Instr) × Nat × (Nat × Nat × Nat) × Sender) := [
  (.nopCmd, 0, (0, 0, 0), .early), (.identify, 1, (2 ^ 64 - 1, 0, 0), .early), (.partCreate, 2, (0xFFFFFFFF, 0xFFFFFFFFFF, 0x3FFFF), .admin),
  (.partDestroy, 3, (7, 0, 0), .admin), (.partSet, 4, (0xFFFFFFFF, 0xFFFFFFFFFF, 0x3FFFF), .admin), (.nsCreate, 5, (0xF, 0x3FFFF, 0), .bound),
  (.nsDelete, 6, (0xF, 0, 0), .bound), ((fun c => .consistLoad ⟨c, true⟩), 7, (2 ^ 56 - 1, 2 ^ 40 - 1, 1), .bound), (.invoke, 8, (1, 0, 0), .bound),
  (.abort, 9, (0, 0, 0), .bound), ((fun c => .copy ⟨c, none⟩), 10, (2 ^ 56 - 1, 2 ^ 56 - 1, 0xFFFFFFFF), .bound), (.routeCommit, 11, (0, 0, 0), .admin),
  (.eventWait, 12, (0, 0, 0), .anyPort), (.fenceDie, 13, (0x3F, 0, 0), .admin)]

/-- What the fields of PARTp_CFG and the guarantees hold after PART_CREATE or PART_SET (Table 9.12). -/
def partSetTo (s' : State) (c : HostCmd) (p : Nat) : Prop :=
  fld s' (partReg p 0) 1 1 = bits c.w1 15 15 ∧ fld s' (partReg p 0) 21 14 = bits c.w1 23 16 ∧ fld s' (partReg p 0) 29 22 = bits c.w1 31 24
    ∧ rd s' (partReg p 8) = BitVec.ofNat 64 (bits c.w2 39 0) ∧ (partOf s' p).quota = bits c.w3 17 0

/-- NOP_CMD, IDENTIFY, PART_CREATE, PART_DESTROY, PART_SET, NS_CREATE and NS_DELETE complete: host commands are checked in order, and NOP, IDENTIFY,
PART_CREATE, PART_DESTROY, PART_SET, NS_CREATE and NS_DELETE do their work (09_hosts_partitions.md R232, 09_hosts_partitions.md R240,
09_hosts_partitions.md R241, 09_hosts_partitions.md R242, 09_hosts_partitions.md R246, 09_hosts_partitions.md R247, 08_peat_streaming_updates.md R210,
12_health_reedline.md R317, 09_hosts_partitions.md Table 9.7, 09_hosts_partitions.md Table 9.8, 09_hosts_partitions.md Table 9.12,
12_health_reedline.md Table 12.7). -/
def Obligations.HostCommandsAreCheckedAndAdministerPartitions : Prop :=
  (∀ r ∈ hostRows, ∀ (c : HostCmd) (s : State),
    (mayStart s c r.2.1 = false → exec (r.1 c) s = .next s)
    ∧ (mayStart s c r.2.1 = true → r.2.2.2 ≠ .early → bit (rd s modStatus) 0 = false → ∃ s', exec (r.1 c) s = .next s' ∧ turnedAway s s' c 3 (stageOf s))
    ∧ (∀ k, mayStart s c r.2.1 = true → (r.2.2.2 = .early ∨ bit (rd s modStatus) 0 = true) → firstReserved c r.2.2.1 = some k →
      ∃ s', exec (r.1 c) s = .next s' ∧ turnedAway s s' c 2 k)
    ∧ (accepted s c r.2.1 r.2.2.1 false → r.2.2.2 = .admin → adminPort s ≠ c.port.val → ∃ s', exec (r.1 c) s = .next s' ∧ turnedAway s s' c 4 0)
    ∧ (accepted s c r.2.1 r.2.2.1 false → r.2.2.2 = .bound → boundPart s c.port = none → ∃ s', exec (r.1 c) s = .next s' ∧ turnedAway s s' c 5 0))
  ∧ (∀ (c : HostCmd) (s : State), accepted s c 0 (0, 0, 0) true → ∃ s', exec (.nopCmd c) s = .next s' ∧ completed s s' c 0 0 (· = 0)
    ∧ s'.regs = s.regs ∧ sameMemory s s' ∧ s'.tiles = s.tiles ∧ s'.m = s.m)
  ∧ (∀ (c : HostCmd) (s : State), accepted s c 1 (2 ^ 64 - 1, 0, 0) true → c.w1.toNat % 4096 = 0 → c.w1.toNat < 2 ^ 52 → (portOf s c.port).linkUp = true →
    s.m.fuses.moduleId.length = 16 → s.m.fuses.mac.length = 6 → ∃ s', exec (.identify c) s = .next s' ∧ completed s s' c 0 0 (· = 0) ∧ s'.regs = s.regs ∧ s'.m = s.m
      ∧ (∀ j, j < 4096 → readByte s' (hostAddr c.port c.w1.toNat + j) = (identityPage s).getD j 0)
      ∧ ∀ a, (a < hostAddr c.port c.w1.toNat ∨ hostAddr c.port c.w1.toNat + 4096 ≤ a) → readByte s' a = readByte s a)
  ∧ (∀ (c : HostCmd) (s : State) (p : Nat), p = bits c.w1 2 0 → adminPort s = c.port.val →
    (accepted s c 2 (0xFFFFFFFF, 0xFFFFFFFFFF, 0x3FFFF) false → partExists s p = false → bits c.w1 5 3 ≤ bits c.w1 8 6 → bits c.w1 11 9 ≤ bits c.w1 14 12 →
      bits c.w1 14 12 ≤ 4 → (shapeDies c.w1).all (fun d => (partOfDie s d).isNone && !(s.m.fencedDies.contains d)) = true → partChecks s c p = none →
      ∃ s', exec (.partCreate c) s = .next s' ∧ completed s s' c 0 0 (· = BitVec.ofNat 64 (fld s (moduleReg 8) 31 0)) ∧ partExists s' p = true
        ∧ partState s' p = 1 ∧ fld s' (partReg p 0) 13 2 = bits c.w1 14 3 ∧ partSetTo s' c p ∧ fld s' (partReg p 0) 63 32 = fld s (moduleReg 8) 31 0
        ∧ fld s' (moduleReg 8) 31 0 = (fld s (moduleReg 8) 31 0 + 1) % 2 ^ 32
        ∧ ∀ d, d < 40 → (partHolds s' p d = true ↔ d ∈ shapeDies c.w1) ∧ (d ∈ shapeDies c.w1 → (dieOf s' d).region = true))
    ∧ (accepted s c 3 (7, 0, 0) false → partExists s p = true → partState s p ≠ 2 → partState s p ≠ 4 →
      ∃ s', exec (.partDestroy c) s = .next s' ∧ completed s s' c 0 0 (· = 0) ∧ partExists s' p = false ∧ boundPorts s' p = [] ∧ s'.m.nss = s.m.nss
        ∧ ∀ d, d < 40 → partHolds s p d = true → (dieOf s' d).region = false)
    ∧ (accepted s c 4 (0xFFFFFFFF, 0xFFFFFFFFFF, 0x3FFFF) false → partExists s p = true → bits c.w1 14 3 = fld s (partReg p 0) 13 2 →
      partChecks s c p = none → ∃ s', exec (.partSet c) s = .next s' ∧ completed s s' c 0 0 (· = 0) ∧ partSetTo s' c p ∧ partExists s' p = true
        ∧ fld s' (partReg p 0) 13 2 = fld s (partReg p 0) 13 2 ∧ sameMemory s s' ∧ s'.tiles = s.tiles ∧ s'.dies = s.dies))
  ∧ (∀ (c : HostCmd) (s : State) (p : PartId), boundPart s c.port = some p.val →
    (accepted s c 5 (0xF, 0x3FFFF, 0) false → partState s p ≠ 2 → nsOf s (bits c.w1 3 0) = none →
      (∀ k, k < 8 → mayAllocate s k p (bits c.w2 17 0) = true) → ∃ s', exec (.nsCreate c) s = .next s' ∧ completed s s' c 0 0 (· = 0)
        ∧ s'.m = { s.m with nss := s.m.nss ++ [⟨BitVec.ofNat 4 (bits c.w1 3 0), p, bits c.w2 17 0⟩] } ∧ s'.regs = s.regs ∧ sameMemory s s'
        ∧ s'.tiles = s.tiles ∧ s'.stations = s.stations)
    ∧ (∀ x, accepted s c 6 (0xF, 0, 0) false → partState s p ≠ 2 → partState s p ≠ 4 → nsOf s (bits c.w1 3 0) = some x → x.part = p →
      ((partOf s p).consist.all (fun k => k.peatmap.all (fun e => decide (e.nsid.toNat ≠ bits c.w1 3 0)))) = true →
      ∃ s', exec (.nsDelete c) s = .next s' ∧ completed s s' c 0 0 (· = 0) ∧ nsOf s' (bits c.w1 3 0) = none ∧ sameMemory s s' ∧ s'.tiles = s.tiles
        ∧ s'.regs = s.regs ∧ ∀ n, n < 8 → (stationOf s' n).map = (stationOf s n).map.filter (fun e => decide (e.nsid.toNat ≠ bits c.w1 3 0))))

/-- The bytes of an image pass checks 2 to 8 of CONSIST_LOAD for a partition and parse to it (R254 to R257, R280). -/
def imagePasses (s : State) (p : Nat) (bs : List Byte) (img : Image) : Prop :=
  128 ≤ bs.length ∧ field bs 8 8 = bs.length ∧ headerOk bs = true ∧ rectOk s p bs = true ∧ field bs 32 8 = partFenced s p
    ∧ (bs.drop 40).take 32 = mapHash s (maskDies (field bs 32 8)) ∧ parseImage s p bs = some img ∧ peatCheck s p img.consist = 0
    ∧ (img.resident = true → mereAdmits s p (img.consist.resident.toNat, liveDies s p) img.consist.mereReq.toNat = true)

/-- The state in which a load validates its routes: its clusters are awake and the inactive generation holds the image's tables (check 9). -/
def loadRoutes (s : State) (p : Nat) (img : Image) : State :=
  mergeRoutes (untilUnlocked s (1 - boxGen s)) p (1 - boxGen s) img.routes

/-- CONSIST_LOAD, INVOKE, ABORT, COPY, ROUTE_COMMIT, EVENT_WAIT and FENCE_DIE complete: INVOKE, ABORT, COPY, CONSIST_LOAD, ROUTE_COMMIT, EVENT_WAIT and
FENCE_DIE do their work on the partition and the module (06_lines_and_signals.md R160, 06_lines_and_signals.md R161, 09_hosts_partitions.md R241,
09_hosts_partitions.md R243, 09_hosts_partitions.md R244, 09_hosts_partitions.md R253, 09_hosts_partitions.md R257, 09_hosts_partitions.md R258,
11_bringup_reset_repair.md R296, 11_bringup_reset_repair.md R298, 11_bringup_reset_repair.md R307, 09_hosts_partitions.md Table 9.7). -/
def Obligations.HostCommandsRunPartitions : Prop :=
  (∀ (c : HostCmd) (s : State) (p : PartId), boundPart s c.port = some p.val →
    (accepted s c 8 (1, 0, 0) false →
      ((partOf s p).aborting = true → (partState s p = 5 ∨ partState s p = 6) → exec (.invoke c) s = .next s)
      ∧ ((partOf s p).aborting = false → (partOf s p).invoke = none →
          (partState s p = 3 ∨ ((partState s p = 5 ∨ partState s p = 6) ∧ bit c.w1 0 = true ∧ uncoveredPart s p = false)) →
        ∃ s' e, exec (.invoke c) s = .next s' ∧ partState s' p = 4 ∧ (partOf s' p).invoke = some c ∧ e ∈ s'.m.epochs ∧ e.type = 4
          ∧ e.part = p ∧ e.origin = .invoke ∧ e.arg = bits c.w1 0 0 ∧ e.step = BitVec.ofNat 32 (partOf s p).committed
          ∧ (portOf s' c.port).fetched = (portOf s c.port).fetched.erase c ∧ (s.m.epochs = [] → e.armedAt = some s.now) ∧ sameMemory s s')
      ∧ ((partState s p = 1 ∨ partState s p = 2 ∨ partState s p = 4 ∨ ((partState s p = 5 ∨ partState s p = 6) ∧ (partOf s p).aborting = false
          ∧ (bit c.w1 0 = false ∨ uncoveredPart s p = true))) →
        ∃ s', exec (.invoke c) s = .next s' ∧ turnedAway s s' c 6 (partState s p)))
    ∧ (accepted s c 9 (0, 0, 0) false →
      (partState s p = 2 → ∃ s', exec (.abort c) s = .next s' ∧ turnedAway s s' c 6 2)
      ∧ (partState s p = 4 → (partOf s p).invoke.isSome = true → (partOf s p).aborting = false → commitPending s p = false → ∃ s', exec (.abort c) s = .next s'
        ∧ (partOf s' p).aborting = true ∧ (partOf s' p).abortCmds = (partOf s p).abortCmds ++ [c] ∧ (partOf s' p).abortAt = s.now ∧ sameMemory s s')
      ∧ (partState s p ≠ 2 → partState s p ≠ 4 → ∃ s', exec (.abort c) s = .next s' ∧ completed s s' c 0 0 (· = 0) ∧ s'.m = s.m ∧ s'.regs = s.regs
        ∧ sameMemory s s' ∧ s'.tiles = s.tiles))
    ∧ (∀ (t : TileId) (off n h : Nat), accepted s c 10 (2 ^ 56 - 1, 2 ^ 56 - 1, 0xFFFFFFFF) false → bits c.w3 31 0 = n → 0 < n → n ≤ 2048 →
      (portOf s c.port).linkUp = true → off + n ≤ 0x600000 → partHolds s p (t.val / 144) = true → barClosed s c.port (tileAddr t off) = false →
      s.m.fuses.fused.contains t.val = false → clusterState s (t.val / 144) (clusterOf (t.val % 144)) ≠ 3 → s.ecc = [] →
      (c.w1.toNat = (8 + c.port.val) * 2 ^ 52 + h → h + n ≤ 2 ^ 52 → c.w2.toNat = tileAddr t off → keepBlocks s t off n = false →
        ∃ s', exec (.copy ⟨c, none⟩) s = .next s'
        ∧ completed s s' c 0 0 (· = 0) ∧ landedBytes s s' t off (readBytes s (hostAddr c.port h) n))
      ∧ (c.w1.toNat = tileAddr t off → c.w2.toNat = (8 + c.port.val) * 2 ^ 52 + h → h + n ≤ 2 ^ 52 → ∃ s', exec (.copy ⟨c, none⟩) s = .next s'
        ∧ completed s s' c 0 0 (· = 0) ∧ (∀ j, j < n → readByte s' (hostAddr c.port h + j) = readByte s (tilePlace s t none (off + j)))
        ∧ ∀ a, (a < hostAddr c.port h ∨ hostAddr c.port h + n ≤ a) → readByte s' a = readByte s a))
    ∧ (∀ (bs : List Byte) (img : Image) (h : Nat) (w : State), w = wakePart (taken s c) p → accepted s c 7 (2 ^ 56 - 1, 2 ^ 40 - 1, 1) false →
      c.w1.toNat = (8 + c.port.val) * 2 ^ 52 + h → h < 2 ^ 52 → (portOf s c.port).linkUp = true → partState s p ≠ 2 → partState s p ≠ 4 → (partOf s p).aborting = false →
      bs = readBytes s (hostAddr c.port h) (bits c.w2 39 0) → imagePasses w p bs img → bit c.w3 0 = false →
      (validate (loadRoutes w p img) (1 - boxGen w)).ok = true → ∃ s' e, exec (.consistLoad ⟨c, true⟩) s = .next s' ∧ partState s' p = 2
        ∧ (partOf s' p).consist = some img.consist ∧ fld s' (partReg p 0x18) 31 0 = (if img.resident then img.consist.mereReq.toNat else 0)
        ∧ e ∈ s'.m.epochs ∧ e.type = 6 ∧ e.origin = .load p (some c)
        ∧ (img.settings = [] → ∀ r ∈ img.tilemap, rd s' (tileReg r.gtid 0x40) = BitVec.ofNat 64 r.mode)))
  ∧ (∀ (c : HostCmd) (s : State) (v : RouteCheck), adminPort s = c.port.val → accepted s c 11 (0, 0, 0) false → v = validate s (1 - boxGen s) →
    (v.ok = true → ∃ s' e, exec (.routeCommit c) s = .next s' ∧ e ∈ s'.m.epochs ∧ e.type = 6 ∧ e.arg = 1 - boxGen s ∧ e.origin = .commit (some c) ∧ sameMemory s s')
    ∧ (v.ok = false → ∃ s', exec (.routeCommit c) s = .next s' ∧ completed s s' c 0x0D (BitVec.ofNat 8 v.reason) (fun _ => True) ∧ s'.m = s.m ∧ sameMemory s s'))
  ∧ (∀ (c : HostCmd) (s : State), accepted s c 12 (0, 0, 0) false → (portOf s c.port).waiting = [] →
    (∀ e x, (portOf s c.port).takeEvent = some (e, x) → ∃ s', exec (.eventWait c) s = .next s' ∧ completed s s' c 0 0 (· = e)
      ∧ (portOf s' c.port).events = x.events ∧ (portOf s' c.port).lost = x.lost ∧ (portOf s' c.port).waiting = [] ∧ s'.m = s.m ∧ s'.regs = s.regs)
    ∧ ((portOf s c.port).takeEvent = none → ∃ s', exec (.eventWait c) s = .next s' ∧ (portOf s' c.port).waiting = [c]
      ∧ (portOf s' c.port).done = (portOf s c.port).done ∧ s'.m = s.m ∧ s'.regs = s.regs))
  ∧ (∀ (c : HostCmd) (s : State) (d : Nat), d = bits c.w1 5 0 → adminPort s = c.port.val → accepted s c 13 (0x3F, 0, 0) false →
    (40 ≤ d → ∃ s', exec (.fenceDie c) s = .next s' ∧ turnedAway s s' c 2 1)
    ∧ (d < 40 → s.m.fencedDies.contains d = false → ∃ s', exec (.fenceDie c) s = .next s' ∧ completed s s' c 0 0 (· = 0) ∧ s'.m.fencedDies = s.m.fencedDies ++ [d]
      ∧ (dieOf s' d).region = false ∧ fld s' (dieStateReg d) 2 2 = 1 ∧ fld s' (dieStateReg d) 6 3 = 7))

/-- A port's access leaves memory, tiles, dies, station dies, the module's own state and other ports alone. -/
def portFrame (s s' : State) (n : PortId) : Prop :=
  sameMemory s s' ∧ s'.tiles = s.tiles ∧ s'.dies = s.dies ∧ s'.stations = s.stations ∧ s'.m = s.m ∧ ∀ k, k ≠ n.val → portOf s' k = portOf s k

/-- The queues of a port after FLR, hot reset or PERST# (R233): disabled, empty and forgotten; its MSI-X and base address registers are reset. -/
def queuesReset (s s' : State) (n : PortId) : Prop :=
  (∀ q, q < 16 → rd s' (qSize n q) = regReset (qSize n q) ∧ rd s' (qStat n q) = regReset (qStat n q) ∧ rd s' (qBase n q) = regReset (qBase n q))
    ∧ (∀ k, ofFunction n k = true → rd s' k = regReset k) ∧ (portOf s' n).stopped = []
    ∧ (portOf s' n).fetched = [] ∧ (portOf s' n).done = [] ∧ (portOf s' n).waiting = [] ∧ (portOf s' n).sqTail = [] ∧ (portOf s' n).cqHead = []
    ∧ sameMemory s s' ∧ s'.tiles = s.tiles ∧ s'.dies = s.dies ∧ s'.stations = s.stations ∧ ∀ k, k ≠ n.val → portOf s' k = portOf s k

/-- A doorbell that stops its queue: STAT holds the reason and DB_ERR counts it; the stored values stay. -/
def doorbellFault (s s' : State) (n : PortId) (q : Nat) : Prop :=
  portFrame s s' n ∧ portOf s' n = { portOf s n with stopped := q :: (portOf s n).stopped.filter (fun k => decide (k ≠ q)) }
    ∧ fld s' (qStat n q) 32 32 = 1 ∧ fld s' (portErr n) 63 48 = (fld s (portErr n) 63 48 + 1) % 2 ^ 16

/-- A port whose queue `q` may fetch again once its FAULT is cleared and its EN is cleared (R240). -/
def unstopped (s : State) (n q : Nat) (v : Word) : Port :=
  if bit v 40 = false ∧ bit (rd s (qStat n q)) 32 = false then { portOf s n with stopped := (portOf s n).stopped.filter (fun k => decide (k ≠ q)) }
  else portOf s n

/-- The order in which a port serves its queues next. -/
def turnOrder (s : State) (n : Nat) : List Nat := (List.range 16).map (fun k => ((portOf s n).turn + k) % 16)

/-- The second word of a completion (Table 9.8). -/
def cqWord (s : State) (n q : Nat) (c : Completion) : Word :=
  BitVec.ofNat 64 (c.cid.toNat + q * 2 ^ 16 + fld s (qStat n q) 11 0 * 2 ^ 20 + c.status.toNat * 2 ^ 32 + c.detail.toNat * 2 ^ 40
    + b2n (spGet (portOf s n).phase false q) * 2 ^ 48)

/-- SQ_TAIL_DOORBELL, CQ_HEAD_DOORBELL, QUEUE_ENABLE, COMMAND_FETCH, COMPLETION_WRITE, PERST, LINK_UP, FUNCTION_LEVEL_RESET, PORT_LINK_DOWN and D3HOT
complete: PERST#, links, resets and power states of a port; doorbells, enabling, fetching and completing its queues (09_hosts_partitions.md R231,
09_hosts_partitions.md R232, 09_hosts_partitions.md R233, 09_hosts_partitions.md R239, 09_hosts_partitions.md R240, 09_hosts_partitions.md R242,
13_module_physical.md R335, 09_hosts_partitions.md Table 9.5, 09_hosts_partitions.md Table 9.6, 09_hosts_partitions.md Table 9.8). -/
def Obligations.PortsTrainResetQueueAndComplete : Prop :=
  (∀ (n : PortId) (s : State),
    (∃ s', exec (.perst n true) s = .next s' ∧ portFrame s s' n ∧ s'.regs = s.regs ∧ portOf s' n = { portOf s n with perst := false })
    ∧ (∃ s', exec (.perst n false) s = .next s' ∧ queuesReset s s' n ∧ (portOf s' n).perst = true ∧ (portOf s' n).linkUp = false ∧ fld s' (portLink n) 7 0 = 0)
    ∧ (∃ s', exec (.functionLevelReset n) s = .next s' ∧ queuesReset s s' n ∧ (portOf s' n).linkUp = (portOf s n).linkUp ∧ rd s' (portLink n) = rd s (portLink n))
    ∧ (∃ s', exec (.portLinkDown n) s = .next s' ∧ portFrame s s' n ∧ portOf s' n = { portOf s n with linkUp := false } ∧ fld s' (portLink n) 7 0 = 0
      ∧ otherRegs s s' (portLink n))
    ∧ (∀ d3 pme : Bool, ∃ s', exec (.d3hot n d3 pme) s = .next s' ∧ portFrame s s' n ∧ s'.regs = s.regs ∧ portOf s' n = { portOf s n with d3 := d3, pmeEn := pme })
    ∧ (∀ (r : BitVec 2) (w : BitVec 5) (flit : Bool), (mayTrain s n = false → exec (.linkUp n r w flit) s = .next s)
      ∧ (mayTrain s n = true →
        (r = 0 → ∃ s', exec (.linkUp n r w flit) s = .next s' ∧ portFrame s s' n ∧ (portOf s' n).linkUp = false ∧ fld s' (portLink n) 7 0 = 0
          ∧ fld s' (portLink n) 8 8 = 1 ∧ otherRegs s s' (portLink n) ∧ s.m.power.inputAt + 100000000 ≤ s'.now)
        ∧ (r ≠ 0 → w ≠ 4 → w ≠ 8 → w ≠ 16 → ∃ s', exec (.linkUp n r w flit) s = .next s' ∧ portFrame s s' n ∧ portOf s' n = portOf s n ∧ s'.regs = s.regs)
        ∧ (r ≠ 0 → (w = 4 ∨ w = 8 ∨ w = 16) → ∃ s', exec (.linkUp n r w flit) s = .next s' ∧ portFrame s s' n ∧ portOf s' n = { portOf s n with linkUp := true }
          ∧ fld s' (portLink n) 1 0 = r.toNat ∧ fld s' (portLink n) 6 2 = w.toNat ∧ fld s' (portLink n) 7 7 = b2n (flit || decide (r = 3))
          ∧ otherRegs s s' (portLink n) ∧ s.m.power.inputAt + 100000000 ≤ s'.now))))
  ∧ (∀ (n : PortId) (q : Fin 16) (v : Lane) (s : State) (i : Nat), i = v.toNat % 4096 →
    (qEnabled s n q = false → (∃ s', exec (.sqTailDoorbell n q v) s = .next s' ∧ doorbellFault s s' n q)
      ∧ ∃ s', exec (.cqHeadDoorbell n q v) s = .next s' ∧ doorbellFault s s' n q)
    ∧ (qEnabled s n q = true →
      (i ≤ fld s (qSize n q) 11 0 → ∃ s', exec (.sqTailDoorbell n q v) s = .next s' ∧ portFrame s s' n ∧ s'.regs = s.regs
        ∧ portOf s' n = { portOf s n with sqTail := spSet (portOf s n).sqTail 0 q i })
      ∧ (fld s (qSize n q) 11 0 < i → ∃ s', exec (.sqTailDoorbell n q v) s = .next s' ∧ doorbellFault s s' n q ∧ fld s' (qStat n q) 35 33 = 0)
      ∧ (i ≤ fld s (qSize n q) 27 16 → ∃ s', exec (.cqHeadDoorbell n q v) s = .next s' ∧ portFrame s s' n ∧ s'.regs = s.regs
        ∧ portOf s' n = { portOf s n with cqHead := spSet (portOf s n).cqHead 0 q i })
      ∧ (fld s (qSize n q) 27 16 < i → ∃ s', exec (.cqHeadDoorbell n q v) s = .next s' ∧ doorbellFault s s' n q ∧ fld s' (qStat n q) 35 33 = 0)))
  ∧ (∀ (n : PortId) (q : Fin 16) (v : Word) (s : State),
    (qEnabled s n q = false → bit v 40 = true → ∃ s', exec (.queueEnable n q v) s = .next s' ∧ portFrame s s' n ∧ qEnabled s' n q = true
      ∧ fld s' (qSize n q) 11 0 = bits v 11 0 ∧ fld s' (qSize n q) 27 16 = bits v 27 16 ∧ fld s' (qStat n q) 11 0 = 0 ∧ fld s' (qStat n q) 27 16 = 0
      ∧ spGet (portOf s' n).sqTail 0 q = 0 ∧ spGet (portOf s' n).cqHead 0 q = 0 ∧ spGet (portOf s' n).phase false q = true
      ∧ ((bits v 11 0 = 0 ∨ bits v 27 16 = 0) → fld s' (qStat n q) 32 32 = 1 ∧ fld s' (qStat n q) 35 33 = 1))
    ∧ (qEnabled s n q = false → bit v 40 = false → ∃ s', exec (.queueEnable n q v) s = .next s' ∧ portFrame s s' n ∧ portOf s' n = unstopped s n q v
      ∧ qEnabled s' n q = false ∧ fld s' (qSize n q) 11 0 = bits v 11 0 ∧ fld s' (qSize n q) 27 16 = bits v 27 16 ∧ otherRegs s s' (qSize n q))
    ∧ (qEnabled s n q = true → ∃ s', exec (.queueEnable n q v) s = .next s' ∧ portFrame s s' n ∧ portOf s' n = unstopped s n q v ∧ qEnabled s' n q = bit v 40
      ∧ fld s' (qSize n q) 11 0 = fld s (qSize n q) 11 0 ∧ fld s' (qSize n q) 27 16 = fld s (qSize n q) 27 16
      ∧ fld s' (portErr n) 63 48 = (fld s (portErr n) 63 48 + if bits v 11 0 = fld s (qSize n q) 11 0 ∧ bits v 27 16 = fld s (qSize n q) 27 16 then 0 else 1) % 2 ^ 16))
  ∧ (∀ (n : PortId) (ok : Bool) (s : State), (((portOf s n).linkUp = false ∨ (turnOrder s n).find? (sqReady s n) = none) → exec (.commandFetch n ok) s = .next s)
    ∧ (∀ (q head : Nat) (c : HostCmd), (portOf s n).linkUp = true → (turnOrder s n).find? (sqReady s n) = some q → head = fld s (qStat n q) 11 0 →
      c = readCmd s n q head →
      (ok = false → ∃ s', exec (.commandFetch n ok) s = .next s' ∧ portFrame s s' n ∧ portOf s' n = { portOf s n with turn := (q + 1) % 16, stopped := q :: (portOf s n).stopped.filter (fun k => decide (k ≠ q)) }
        ∧ fld s' (qStat n q) 32 32 = 1 ∧ fld s' (qStat n q) 35 33 = 2 ∧ fld s' (qStat n q) 11 0 = head
        ∧ fld s' (portErr n) 15 0 = (fld s (portErr n) 15 0 + 1) % 2 ^ 16)
      ∧ (ok = true → bits c.w0 7 0 ≤ 0x0D → ∃ s', exec (.commandFetch n ok) s = .next s' ∧ portFrame s s' n
        ∧ portOf s' n = { portOf s n with turn := (q + 1) % 16, fetched := (portOf s n).fetched ++ [c] } ∧ c.port = n ∧ c.q.val = q
        ∧ c.w0 = readWord s (hostAddr n ((rd s (qBase n q)).toNat + 64 * head)) ∧ c.w7 = readWord s (hostAddr n ((rd s (qBase n q)).toNat + 64 * head) + 56)
        ∧ fld s' (qStat n q) 11 0 = (head + 1) % (fld s (qSize n q) 11 0 + 1) ∧ otherRegs s s' (qStat n q))
      ∧ (ok = true → 0x0D < bits c.w0 7 0 → ∃ s' x, exec (.commandFetch n ok) s = .next s' ∧ portFrame s s' n ∧ (portOf s' n).done = (portOf s n).done ++ [x]
        ∧ x.q.val = q ∧ (bit (rd s modStatus) 0 = true → x.status = 1 ∧ x.detail = 0)
        ∧ (bit (rd s modStatus) 0 = false → x.status = 3 ∧ x.detail = BitVec.ofNat 8 (stageOf s)) ∧ x.cid = BitVec.ofNat 16 (bits c.w0 31 16) ∧ fld s' (qStat n q) 11 0 = (head + 1) % (fld s (qSize n q) 11 0 + 1))))
  ∧ (∀ (n : PortId) (q : Fin 16) (s : State) (slots tail : Nat), slots = fld s (qSize n q) 27 16 + 1 → tail = fld s (qStat n q) 27 16 →
    (((portOf s n).done.find? (fun c => decide (c.q.val = q.val)) = none ∨ (portOf s n).linkUp = false ∨ qEnabled s n q = false
      ∨ (tail + 1) % slots = spGet (portOf s n).cqHead 0 q) → exec (.completionWrite n q) s = .next s)
    ∧ (∀ (c : Completion) (a : Nat), (portOf s n).done.find? (fun c => decide (c.q.val = q.val)) = some c → (portOf s n).linkUp = true → qEnabled s n q = true →
      (tail + 1) % slots ≠ spGet (portOf s n).cqHead 0 q → a = hostAddr n ((rd s (portReg n (0x1008 + 0x40 * q))).toNat + 16 * tail) →
      ∃ s', exec (.completionWrite n q) s = .next s' ∧ readWord s' a = c.result ∧ readWord s' (a + 8) = cqWord s n q c
        ∧ (∀ b, (b < a ∨ a + 16 ≤ b) → readByte s' b = readByte s b) ∧ fld s' (qStat n q) 27 16 = (tail + 1) % slots
        ∧ (∀ k, k ≠ qStat n q → k ≠ msixPending n → rd s' k = rd s k)
        ∧ (portOf s' n).done = (portOf s n).done.erase c
        ∧ spGet (portOf s' n).phase false q = (if (tail + 1) % slots = 0 then !(spGet (portOf s n).phase false q) else spGet (portOf s n).phase false q)
        ∧ (bit (rd s (qSize n q)) 41 = false → (portOf s' n).msix = (portOf s n).msix ∧ rd s' (msixPending n) = rd s (msixPending n))
        ∧ (∀ v, v = fld s (qSize n q) 37 32 → bit (rd s (qSize n q)) 41 = true →
          (bit (rd s (msixCtl n v)) 32 = false → (portOf s' n).msix = (portOf s n).msix ++ [BitVec.ofNat 6 v] ∧ rd s' (msixPending n) = rd s (msixPending n))
          ∧ (bit (rd s (msixCtl n v)) 32 = true → (portOf s' n).msix = (portOf s n).msix ∧ bit (rd s' (msixPending n)) v = true))))

/-- A host's access lies inside the scratchpad of a tile whose cluster runs, and neither the port nor the engine refuses it. -/
def barAt (s : State) (n : PortId) (o : BitVec 37) (t : TileId) (off len : Nat) : Prop :=
  o.toNat = tileAddr t off ∧ off + len ≤ 0x600000 ∧ barRefused s n (tileAddr t off) len = false ∧ barClosed s n (tileAddr t off) = false
    ∧ clusterState s (t.val / 144) (clusterOf (t.val % 144)) < 2

/-- The port whose GIVE hands over administration: the administration port, and where Reedline has handed it over in this UCLK cycle, the port
that held it before (R245). -/
def mayGive (s : State) : Nat := match s.ticks.handed with
  | some (p, false) => p
  | _ => adminPort s

/-- BAR2_READ, BAR2_WRITE, CLUSTER_REGISTER_READ_C2, CLUSTER_WAKE, C2_ENTRY and GIVE complete: BAR2 reads and writes reach the engine or are refused and
counted; clusters enter C2, answer from it and wake; GIVE hands over administration (02_tiles_scratchpad.md R57, 02_tiles_scratchpad.md R72,
09_hosts_partitions.md R237, 09_hosts_partitions.md R245, 11_bringup_reset_repair.md R302, 11_bringup_reset_repair.md R303, 09_hosts_partitions.md
R343, 09_hosts_partitions.md Table 9.4, 11_bringup_reset_repair.md Table 11.6). -/
def Obligations.BarAccessesAndSleepingClusters : Prop :=
  (∀ (n : PortId) (o : BitVec 37) (len : Nat) (s : State),
    ((barAddr o.toNat).all (fun a => barRefused s n a len) = true → ∃ s', exec (.bar2Read n o len) s = .next s' ∧ portFrame s s' n ∧ s'.regs = s.regs
      ∧ (portOf s' n).answer = some .unsupported ∧ (portOf s' n).aerUr = (portOf s n).aerUr + 1)
    ∧ (∀ a, barAddr o.toNat = some a → barRefused s n a len = false → barClosed s n a = true → ∃ s', exec (.bar2Read n o len) s = .next s' ∧ portFrame s s' n
      ∧ s'.regs = s.regs ∧ portOf s' n = { portOf s n with answer := some .abort })
    ∧ (∀ t off, barAt s n o t off len → s.ecc = [] → ∃ s' bs, exec (.bar2Read n o len) s = .next s' ∧ portFrame s s' n ∧ s'.regs = s.regs
      ∧ portOf s' n = { portOf s n with answer := some (.data bs) } ∧ bs.length = len
      ∧ ∀ j, j < len → bs.getD j 0 = readByte s (tilePlace s t none (off + j))))
  ∧ (∀ (n : PortId) (o : BitVec 37) (bs : List Byte) (s : State),
    ((barAddr o.toNat).all (fun a => barRefused s n a bs.length) = true → ∃ s', exec (.bar2Write n o bs) s = .next s' ∧ portFrame s s' n ∧ portOf s' n = portOf s n
      ∧ fld s' (portErr n) 47 32 = (fld s (portErr n) 47 32 + 1) % 2 ^ 16 ∧ otherRegs s s' (portErr n))
    ∧ (∀ a, barAddr o.toNat = some a → barRefused s n a bs.length = false → barClosed s n a = true → ∃ s', exec (.bar2Write n o bs) s = .next s'
      ∧ portFrame s s' n ∧ portOf s' n = portOf s n ∧ fld s' (portErr n) 31 16 = (fld s (portErr n) 31 16 + 1) % 2 ^ 16 ∧ otherRegs s s' (portErr n))
    ∧ (∀ t off, barAt s n o t off bs.length → s.ecc = [] →
      (keepBlocks s t off bs.length = false → ∃ s', exec (.bar2Write n o bs) s = .next s' ∧ landedBytes s s' t off bs ∧ s'.regs = s.regs
        ∧ s'.tiles = s.tiles ∧ s'.dies = s.dies ∧ s'.ports = s.ports ∧ s'.m = s.m)
      ∧ (keepBlocks s t off bs.length = true → ∃ s', exec (.bar2Write n o bs) s = .next s' ∧ sameMemory s s' ∧ fld s' (tileReg t 8) 5 5 = 1
        ∧ fld s' (portErr n) 31 16 = (fld s (portErr n) 31 16 + 1) % 2 ^ 16 ∧ s'.tiles = s.tiles)))
  ∧ (∀ (d : ComputeDie) (c : Fin 16) (o : BitVec 8) (s : State),
    (2 ≤ clusterState s d c → ∃ s', exec (.clusterRegisterReadC2 d c o) s = .next s' ∧ s'.regs = s.regs ∧ sameMemory s s' ∧ s'.tiles = s.tiles ∧ s'.m = s.m
      ∧ dieOf s' d = { dieOf s d with clAnswer := some (regView s (clusterReg d c o.toNat)) } ∧ clusterState s' d c = clusterState s d c)
    ∧ (clusterState s d c < 2 → exec (.clusterRegisterReadC2 d c o) s = .next s)
    ∧ (spGet (dieOf s d).cstate 0 c = 2 → ∃ s', exec (.clusterWake d c) s = .next s' ∧ s'.regs = s.regs ∧ sameMemory s s' ∧ s'.tiles = s.tiles ∧ s'.m = s.m
      ∧ dieOf s' d = { dieOf s d with cstate := spDel (dieOf s d).cstate c, idleAt := s.now })
    ∧ (spGet (dieOf s d).cstate 0 c ≠ 2 → exec (.clusterWake d c) s = .next s)
    ∧ ((partOfDie s d = none ∨ clusterState s d c ≠ 0 ∨ (dieOf s d).region = false ∨ (clusterTiles d c).all (tileQuiet s) = false) →
      exec (.c2Entry d c) s = .next s)
    ∧ (∀ p, partOfDie s d = some p → (partState s p = 1 ∨ partState s p = 3) → clusterState s d c = 0 → (dieOf s d).region = true →
      (clusterTiles d c).all (tileQuiet s) = true → (∀ q, q < 8 → partExists s q = true → q ≠ p → transits s q d c = false) →
      ∃ s', exec (.c2Entry d c) s = .next s' ∧ spGet (dieOf s' d).cstate 0 c = 2 ∧ (dieOf s d).idleAt + 10000000 ≤ s'.now ∧ sameMemory s s'
        ∧ ∀ e, e < 16 → e ≠ c.val → spGet (dieOf s' d).cstate 0 e = spGet (dieOf s d).cstate 0 e))
  ∧ (∀ (n dst : PortId) (s : State), (mayGive s = n.val → ∃ s', exec (.give n dst) s = .next s' ∧ adminPort s' = dst.val ∧ otherRegs s s' (moduleReg 0)
      ∧ sameMemory s s' ∧ s'.tiles = s.tiles ∧ s'.ports = s.ports ∧ s'.m = s.m)
    ∧ (mayGive s ≠ n.val → exec (.give n dst) s = .next s))

/-- What a register's word becomes under a write, field by field (R342). -/
def writtenWord (s : State) (key : Nat) (v : Word) : Word := writeFields key (keyLocked s key) (roseNow s key) (keyFields key) (rd s key) v

/-- The Reedline selection that a NODE_ID gives (R319). -/
def modeOf (id : Nat) : Nat := if id = 255 then 0 else if id = 0 then 3 else 1

/-- PART_WDOG_WRITE, RNG_SEED_WRITE, TILE_KEEP_WRITE, INSTRUCTION_STORE_WRITE, TRIGGER_ENTRY_WRITE, MPWR_CAP_WRITE, MERE_RESLIM_WRITE, RL_KEY3_WRITE,
NODE_ID_WRITE, RC_COUNTER_READ and REGISTER_WRITE complete: register writes with an effect of their own, reads that clear, and plain writes
(00_scope.md R14, 02_tiles_scratchpad.md R45, 02_tiles_scratchpad.md R55, 03_number_formats.md R86, 07_collectives.md R183, 09_hosts_partitions.md
R238, 10_power_clocks_mere.md R276, 10_power_clocks_mere.md R280, 12_health_reedline.md R319, 12_health_reedline.md R326, 00_scope.md R342,
09_hosts_partitions.md Table 9.5). -/
def Obligations.RegisterCommandsTakeTheirEffect : Prop :=
  (∀ (n : PortId) (v : Word) (s : State), (boundPart s n = none → exec (.partWdogWrite n v) s = .next s)
    ∧ (∀ p, boundPart s n = some p → 1000000 ≤ bits v 35 0 → ∃ s', exec (.partWdogWrite n v) s = .next s' ∧ sameMemory s s' ∧ s'.m = s.m ∧ s'.ports = s.ports
      ∧ (∀ k ∈ boundPorts s p, fld s' (portReg k 0x28) 35 0 = bits v 35 0) ∧ ∀ t ∈ tilesOfPart s p, fld s' (tileReg t 0x208) 35 0 = bits v 35 0))
  ∧ (∀ (t : TileId) (v : Word) (s : State), clusterState s (t.val / 144) (clusterOf (t.val % 144)) = 3 → exec (.rngSeedWrite t v) s = .next s
    ∧ (∀ n, exec (.tileKeepWrite t n v) s = .next s) ∧ (∀ i, exec (.instructionStoreWrite t i v) s = .next s)
    ∧ ∀ e w, exec (.triggerEntryWrite t e w v) s = .next s)
  ∧ (∀ (t : TileId) (v : Word) (s : State), clusterState s (t.val / 144) (clusterOf (t.val % 144)) ≠ 3 →
    (∃ s', exec (.rngSeedWrite t v) s = .next s' ∧ rd s' (tileReg t 0x840) = writtenWord s (tileReg t 0x840) v
      ∧ (∀ sh, rd s' (rngReg t sh) = rngSeed (rngConst sh) (writtenWord s (tileReg t 0x840) v)) ∧ sameMemory s s' ∧ s'.m = s.m)
    ∧ (∀ (n : Fin 4) (w : Word), w = writtenWord s (keepReg t n) v →
      (keepLegal w = true → (∀ m, m < 4 → m ≠ n.val → keepClash w (rd s (keepReg t m)) = false) → ∃ s', exec (.tileKeepWrite t n v) s = .next s'
        ∧ rd s' (keepReg t n) = w ∧ otherRegs s s' (keepReg t n) ∧ sameMemory s s')
      ∧ ((keepLegal w = false ∨ ∃ m, m < 4 ∧ m ≠ n.val ∧ keepClash w (rd s (keepReg t m)) = true) → ∃ s', exec (.tileKeepWrite t n v) s = .next s'
        ∧ rd s' (keepReg t n) &&& ~~~(0x180000000000 : Word) = rd s (keepReg t n) &&& ~~~(0x180000000000 : Word)
        ∧ fld s' (healthReg (t.val / 144) 0x48) 63 32 = (fld s (healthReg (t.val / 144) 0x48) 63 32 + 1) % 2 ^ 32 ∧ sameMemory s s'))
    ∧ (∀ (i : BitVec 15) (a : Nat), a = tileAddr t (0x700000 + 8 * i.toNat) →
      ((istoreCtxs (0x700000 + 8 * i.toNat) 8).all (istoreOpen s t) = true → ∃ s', exec (.instructionStoreWrite t i v) s = .next s' ∧ readWord s' a = v
        ∧ (∀ b, (b < a ∨ a + 8 ≤ b) → readByte s' b = readByte s b) ∧ s'.regs = s.regs ∧ tileOf s' t = { tileOf s t with t1 := false }
        ∧ ∀ u, u ≠ t.val → tileOf s' u = tileOf s u)
      ∧ ((istoreCtxs (0x700000 + 8 * i.toNat) 8).all (istoreOpen s t) = false → ∃ s', exec (.instructionStoreWrite t i v) s = .next s' ∧ sameMemory s s'
        ∧ fld s' (tileReg t 8) 6 6 = 1 ∧ tileOf s' t = { tileOf s t with t1 := false } ∧ ∀ u, u ≠ t.val → tileOf s' u = tileOf s u))
    ∧ (∀ (e : BitVec 8) (w : Fin 4),
      (armed s t e.toNat = true → ∃ s', exec (.triggerEntryWrite t e w v) s = .next s' ∧ otherRegs s s' (tileReg t 0x1218) ∧ sameMemory s s'
        ∧ fld s' (tileReg t 0x1218) 31 0 = (fld s (tileReg t 0x1218) 31 0 + 1) % 2 ^ 32)
      ∧ (armed s t e.toNat = false → ∃ s', exec (.triggerEntryWrite t e w v) s = .next s' ∧ sameMemory s s'
        ∧ rd s' (trigReg t e.toNat w) = writtenWord s (trigReg t e.toNat w) v)))
  ∧ (∀ (n : PortId) (v : Word) (draw : Fin 5001) (s : State),
    (adminPort s ≠ n.val → exec (.mpwrCapWrite n v) s = .next s ∧ exec (.mereReslimWrite n v) s = .next s ∧ exec (.rlKey3Write n v) s = .next s
      ∧ exec (.nodeIdWrite n v draw) s = .next s)
    ∧ (adminPort s = n.val →
      (∃ s', exec (.mpwrCapWrite n v) s = .next s' ∧ otherRegs s s' (s0Power 0x808) ∧ sameMemory s s' ∧ s'.m = s.m ∧ s'.tiles = s.tiles
        ∧ fld s' (s0Power 0x808) 15 0 = if 1000 ≤ bits v 15 0 ∧ bits v 15 0 ≤ 2600 then bits v 15 0 else fld s (s0Power 0x808) 15 0)
      ∧ (∃ s', exec (.mereReslimWrite n v) s = .next s' ∧ otherRegs s s' (s0Power 0x840) ∧ sameMemory s s' ∧ s'.m = s.m ∧ s'.tiles = s.tiles
        ∧ fld s' (s0Power 0x840) 15 0 = bits v 15 0)
      ∧ (∃ s', exec (.rlKey3Write n v) s = .next s' ∧ sameMemory s s' ∧ s'.tiles = s.tiles ∧ keySet s' = true ∧ rd s' (s0Health 0xF258) = 0
        ∧ s'.m.reedline.cache = none ∧ s'.m.reedline.key = ([0, 1, 2].flatMap (fun j => leBytes 8 (spGet s.m.reedline.stage 0 j).toNat)) ++ leBytes 8 v.toNat)
      ∧ (∃ s', exec (.nodeIdWrite n v draw) s = .next s' ∧ sameMemory s s' ∧ s'.tiles = s.tiles ∧ fld s' (s0Health 0xF200) 7 0 = bits v 7 0
        ∧ fld s' (s0Health 0xF208) 1 0 = modeOf (bits v 7 0) ∧ s'.m.reedline.listenEnd = s.now + 20000000 + draw.val * 1000
        ∧ s'.m.reedline.lastBeacon = s.now)))
  ∧ (∀ (n : PortId) (s : State) (old : Word), old = spGet s.ticks.before (rd s (portErr n)) (portErr n) → ∃ s', exec (.rcCounterRead (.bar0 n 0x18)) s = .next s'
    ∧ (portOf s' n).regRead = old ∧ otherRegs s s' (portErr n) ∧ portFrame s s' n
    ∧ ∀ f ∈ [(15, 0), (31, 16), (47, 32), (63, 48)], fld s' (portErr n) f.1 f.2 = (fld s (portErr n) f.1 f.2 + 2 ^ 16 - bits old f.1 f.2) % 2 ^ 16)
  ∧ (∀ (n : PortId) (q : Fin 16) (v : Word) (s : State), qEnabled s n q = false → ∃ s', exec (.registerWrite (.bar0 n (BitVec.ofNat 25 (0x1000 + 0x40 * q))) v) s = .next s'
    ∧ fld s' (qBase n q) 63 6 = bits v 63 6 ∧ otherRegs s s' (qBase n q) ∧ portFrame s s' n)
  ∧ (∀ (n : PortId) (i : Fin 64) (v : Word) (s : State), bit v 32 = false → bit (rd s (msixPending n)) i = true →
    ∃ s', exec (.registerWrite (.bar4 n (BitVec.ofNat 20 (0x80008 + 16 * i))) v) s = .next s' ∧ fld s' (msixCtl n i) 32 0 = bits v 32 0
      ∧ bit (rd s' (msixPending n)) i = false ∧ (portOf s' n).msix = (portOf s n).msix ++ [BitVec.ofNat 6 i])

/-- A reset is recorded in DIE_STATE and DIE_RSTLOG of its die (Table 11.9). -/
def resetLogged (s s' : State) (d code target : Nat) : Prop :=
  fld s' (dieStateReg d) 13 11 = code ∧ fld s' (dieStateReg d) 63 32 = (fld s (dieStateReg d) 63 32 + 1) % 2 ^ 32
    ∧ fld s' (healthReg d 0xF008) 2 0 = code ∧ fld s' (healthReg d 0xF008) 15 8 = target

/-- A tile has been reset: no context runs, its queues are empty and its scope is open (Table 11.7). -/
def tileIsReset (s s' : State) (t : Nat) : Prop :=
  (tileOf s' t).ctx = [] ∧ (tileOf s' t).running = false ∧ (tileOf s' t).core = none ∧ (tileOf s' t).scope = .openScope
    ∧ (tileOf s' t).q = { Queues.reset with tag := (tileOf s t).q.tag }

/-- What a reset of a tile keeps of its memory (R60, R305): the bytes in enabled KEEP ranges and the instruction store. -/
def keptMemory (s s' : State) (t : Nat) : Prop :=
  (∀ n, n < 4 → bits (rd s' (keepReg t n)) 42 0 = bits (rd s (keepReg t n)) 42 0
    ∧ (bit (rd s (keepReg t n)) 40 = true → ∀ o, keepBase (rd s (keepReg t n)) ≤ o → o < keepEnd (rd s (keepReg t n)) → readByte s' (tileAddr t o) = readByte s (tileAddr t o)))
    ∧ ∀ o, 0x700000 ≤ o → o < 0x740000 → readByte s' (tileAddr t o) = readByte s (tileAddr t o)

/-- No step runs in the partition of a die. -/
def noStepOn (s : State) (d : Nat) : Prop := ∀ p, partOfDie s d = some p → (partOf s p).invoke = none

/-- One ledger record of a die has been added, of a type and with a word 2, where the extent had room for it. -/
def ledgerAdded (s s' : State) (d type w2 : Nat) : Prop :=
  ledgerHasRoom s d → ∃ r, (stationOf s' (homeOf d)).ledger = (stationOf s (homeOf d)).ledger ++ [r] ∧ r.die.val = d ∧ bits (r.words.getD 0 0) 3 0 = type
    ∧ r.words.getD 2 0 = BitVec.ofNat 64 w2

/-- TILE_RESET, CLUSTER_RESET, DIE_LOGIC_RESET, PARTITION_RESET, SCOPE_DRAIN_END, TILE_FENCE and DIE_FENCE complete: tile, cluster, die and partition
resets, the end of their drain, and fences of tiles and dies (02_tiles_scratchpad.md R55, 02_tiles_scratchpad.md R60, 06_lines_and_signals.md R166,
11_bringup_reset_repair.md R290, 11_bringup_reset_repair.md R294, 11_bringup_reset_repair.md R295, 11_bringup_reset_repair.md R305,
11_bringup_reset_repair.md R306, 11_bringup_reset_repair.md R307, 11_bringup_reset_repair.md Table 11.3, 11_bringup_reset_repair.md Table 11.7,
11_bringup_reset_repair.md Table 11.9). -/
def Obligations.ResetsDrainAndFencesStopWhatTheyCover : Prop :=
  (∀ (t : TileId) (s : State), (dieClosed s (t.val / 144) = true → exec (.tileReset t) s = .next s)
    ∧ (dieClosed s (t.val / 144) = false → noStepOn s (t.val / 144) →
      (tileQuiet s t = false → ∃ s', exec (.tileReset t) s = .next s' ∧ tileOf s' t = { tileOf s t with scope := .closing .tile s.now } ∧ sameMemory s s'
        ∧ s'.regs = s.regs ∧ s'.m = s.m ∧ ∀ u, u ≠ t.val → tileOf s' u = tileOf s u)
      ∧ (tileQuiet s t = true → ∃ s', exec (.tileReset t) s = .next s' ∧ tileIsReset s s' t ∧ keptMemory s s' t ∧ resetLogged s s' (t.val / 144) 1 (t.val % 144)
        ∧ (∀ u, u ≠ t.val → tileOf s' u = tileOf s u) ∧ s'.m = s.m)))
  ∧ (∀ (d : ComputeDie) (c : Fin 16) (s : State), (dieClosed s d = true → exec (.clusterReset d c) s = .next s)
    ∧ (dieClosed s d = false → noStepOn s d →
      ((clusterTiles d c).all (tileQuiet s) = false → ∃ s', exec (.clusterReset d c) s = .next s' ∧ sameMemory s s' ∧ s'.regs = s.regs ∧ s'.m = s.m
        ∧ ∀ u, tileOf s' u = if u ∈ clusterTiles d c then { tileOf s u with scope := .closing .cluster s.now } else tileOf s u)
      ∧ ((clusterTiles d c).all (tileQuiet s) = true → ∃ s', exec (.clusterReset d c) s = .next s' ∧ resetLogged s s' d 2 c
        ∧ (∀ t ∈ clusterTiles d c, tileIsReset s s' t ∧ keptMemory s s' t) ∧ ∀ u, u ∉ clusterTiles d c → tileOf s' u = tileOf s u)))
  ∧ (∀ (d : DieId) (s : State), (dieClosed s d = true → exec (.dieLogicReset d) s = .next s)
    ∧ (dieClosed s d = false → noStepOn s d →
      ((if d.val < 40 then (List.range 144).all (fun i => tileQuiet s (d * 144 + i)) else stationQuiet s (d - 40)) = false →
        exec (.dieLogicReset d) s = .next (setDie s d { dieOf s d with scope := .closing .die s.now }))
      ∧ (d.val < 40 → (List.range 144).all (fun i => tileQuiet s (d * 144 + i)) = true → ∃ s', exec (.dieLogicReset d) s = .next s' ∧ resetLogged s s' d 3 0xFF
        ∧ (dieOf s' d).tokens = [] ∧ (dieOf s' d).region = (dieOf s d).region ∧ (dieOf s' d).scope = .openScope
        ∧ ∀ i, i < 144 → tileIsReset s s' (d * 144 + i) ∧ keptMemory s s' (d * 144 + i))
      ∧ (40 ≤ d.val → stationQuiet s (d - 40) = true → (dieOf s d).epMissed = none → ∃ s', exec (.dieLogicReset d) s = .next s' ∧ resetLogged s s' d 3 0xFF ∧ sameMemory s s' ∧ s'.tiles = s.tiles
        ∧ (stationOf s' (d - 40)).lines = [] ∧ (stationOf s' (d - 40)).map = (stationOf s (d - 40)).map)))
  ∧ (∀ (p : PartId) (s : State), commitPending s p = false → ∃ s', exec (.partitionReset p) s = .next s' ∧ (partOf s' p).applied = 0
    ∧ (∀ k ∈ s'.m.net, k.part.toNat ≠ p.val)
    ∧ (∀ d, d < 40 → partHolds s p d = true → fld s' (dieStateReg d) 13 11 = 4 ∧ ∀ i, i < 144 → (tileOf s' (d * 144 + i)).ctx = []
      ∧ (tileOf s' (d * 144 + i)).running = false ∧ (tileOf s' (d * 144 + i)).scope = .openScope)
    ∧ ((partOf s p).invoke.isSome = true → (partOf s p).aborting = false → partState s p = 4 → partState s' p = 3 ∧ (partOf s' p).invoke = none))
  ∧ (∀ (d : DieId) (a : Nat) (s : State), (closingScopes s d = [] → exec (.scopeDrainEnd d) s = .next s)
    ∧ ((dieOf s d).scope = .closing .die a → closingScopes s d = [(a, false)] → ∃ s', exec (.scopeDrainEnd d) s = .next s' ∧ a + 1000000 ≤ s'.now
      ∧ fld s' (dieStateReg d) 13 11 = 3 ∧ fld s' (dieStateReg d) 15 15 = 1 ∧ (dieOf s' d).scope = .openScope)
    ∧ ((dieOf s d).scope = .closing .die a → closingScopes s d = [(a, true)] → ∃ s', exec (.scopeDrainEnd d) s = .next s' ∧ s'.now = s.now
      ∧ resetLogged s s' d 3 0xFF ∧ fld s' (dieStateReg d) 15 15 = fld s (dieStateReg d) 15 15 ∧ (dieOf s' d).scope = .openScope))
  ∧ (∀ (t : TileId) (r : BitVec 3) (s : State),
    ((s.m.fencedTiles.contains t.val = true ∨ s.m.fuses.fused.contains t.val = true) → exec (.tileFence t r) s = .next s)
    ∧ (s.m.fencedTiles.contains t.val = false → s.m.fuses.fused.contains t.val = false → ∃ s', exec (.tileFence t r) s = .next s'
      ∧ s'.m.fencedTiles = s.m.fencedTiles ++ [t.val] ∧ goodTile s' t = false ∧ (tileOf s' t).running = false ∧ sameMemory s s'
      ∧ ledgerAdded s s' (t.val / 144) 4 (t.val + r.toNat * 2 ^ 13)
      ∧ ∀ p, partOfDie s (t.val / 144) = some p → partState s p ≠ 0 → partState s' p = 5))
  ∧ (∀ (d : DieId) (r : BitVec 4) (s : State), (s.m.fencedDies.contains d.val = true → exec (.dieFence d r) s = .next s)
    ∧ (s.m.fencedDies.contains d.val = false → ∃ s', exec (.dieFence d r) s = .next s' ∧ s'.m.fencedDies = s.m.fencedDies ++ [d.val]
      ∧ (dieOf s' d).region = false ∧ fld s' (dieStateReg d) 2 0 = 7 ∧ fld s' (dieStateReg d) 6 3 = r.toNat ∧ ledgerAdded s s' d 5 r.toNat
      ∧ ∀ p, partOfDie s d = some p → partState s p ≠ 2 → partState s' p = 6))

/-- The module's fuses, fences, namespaces and Peat outlive a module reset and M2 (Table 11.7). -/
def moduleKept (s s' : State) : Prop :=
  s'.m.fuses = s.m.fuses ∧ s'.m.fencedTiles = s.m.fencedTiles ∧ s'.m.fencedDies = s.m.fencedDies ∧ s'.m.nss = s.m.nss
    ∧ (∀ n, n < 8 → (stationOf s' n).map = (stationOf s n).map ∧ (stationOf s' n).flash = (stationOf s n).flash ∧ (stationOf s' n).ledger = (stationOf s n).ledger)
    ∧ ∀ a, 8 * 2 ^ 52 ≤ a → readByte s' a = readByte s a

/-- Every region is off, no tile, epoch, packet or partition is left. -/
def moduleWiped (s' : State) : Prop :=
  (∀ d, d < 48 → (dieOf s' d).region = false) ∧ s'.tiles = [] ∧ s'.m.epochs = [] ∧ s'.m.net = [] ∧ s'.m.parts = [] ∧ ∀ p, p < 8 → partExists s' p = false

/-- Bring-up starts from stage 1 with a wake cause (R288, R310). -/
def wokenFor (s' : State) (cause : Nat) : Prop :=
  s'.m.power.phase = .bringup ∧ stageOf s' = 1 ∧ fld s' modState 4 2 = cause

/-- The SHUTDOWN records that a station die writes in a flush: one for each powered die that it is home to. -/
def homeDies (s : State) (n : Nat) : List Nat := (List.range 48).filter (fun d => decide (homeOf d = n) && (dieOf s d).region)

/-- POWER_LOSS, MOD_RESET, LAMP_TRIP, EPOCH_ROLLFORWARD, POWER_LOSS_FLUSH, FLUSH_CLOSE and INPUT_RETURN_WAKE complete: the lamp trip, POWER_LOSS,
roll-forward, flush, its close into M2, the wake from it, and MOD_RESET# (01_organisation.md R27, 10_power_clocks_mere.md R282,
10_power_clocks_mere.md R283, 10_power_clocks_mere.md R284, 10_power_clocks_mere.md R285, 11_bringup_reset_repair.md R294, 11_bringup_reset_repair.md
R302, 11_bringup_reset_repair.md R304, 13_module_physical.md R335, 11_bringup_reset_repair.md Table 11.7). -/
def Obligations.PowerLossFlushesAndTheModuleWakes : Prop :=
  (∀ s : State, (¬ (powered s = true ∧ max s.m.power.feedA s.m.power.feedB < 440) → exec .lampTrip s = .next s)
    ∧ (powered s = true → max s.m.power.feedA s.m.power.feedB < 440 → ∃ s', exec .lampTrip s = .next s' ∧ s'.m.power.phase = .flushing ∧ s'.m.power.pwrfail = true
      ∧ s'.m.power.mere = .discharging ∧ s'.m.power.tripAt = s.now
      ∧ ∀ d c, d < 40 → c < 16 → (dieOf s d).region = true → (holdsData s d c = false → clusterState s' d c = 3)
        ∧ (holdsData s d c = true → clusterState s' d c = clusterState s d c ∧ gearOf s' d c = 4)))
  ∧ (∀ s : State, (s.m.power.phase = .flushing → s.m.power.mere = .discharging → exec .powerLoss s
        = .next (updM s (fun m => { m with power := { m.power with pwrfail := true } })))
    ∧ ((s.m.power.phase ≠ .flushing ∨ s.m.power.mere ≠ .discharging) → exec .powerLoss s = .next s))
  ∧ (∀ s : State, (s.m.power.phase = .flushing → s.now ≤ s.m.power.tripAt + 1000000 → ∃ s', exec .epochRollforward s = .next s' ∧ s'.m.epochs = []
      ∧ s'.m.power.rolled = (s.m.power.rolled || (someDue s || someMissed s)) ∧ s'.m.power.phase = .flushing)
    ∧ ((s.m.power.phase ≠ .flushing ∨ s.m.power.tripAt + 1000000 < s.now) → exec .epochRollforward s = .next s))
  ∧ (∀ (n : StationId) (s : State), ((s.m.power.phase ≠ .flushing ∨ (dieOf s (40 + n)).region = false) → exec (.powerLossFlush n) s = .next s)
    ∧ (s.m.power.phase = .flushing → (dieOf s (40 + n)).region = true → (stationOf s n).ploss = none → ∃ s' i, exec (.powerLossFlush n) s = .next s'
      ∧ (stationOf s' n).ploss = some i ∧ i.closed = false ∧ i.saved.map (fun x => (x.1.val, x.2))
        = ((allParts s).filter (needsFlush s)).map (fun p => (p, (partOf s p).committed, setOnStation (residentOf s p) n))
      ∧ ((∀ d ∈ homeDies s n, ledgerHasRoom s d) → ((stationOf s' n).ledger.drop (stationOf s n).ledger.length).map (fun r => (r.die.val, bits (r.words.getD 0 0) 3 0))
        = (homeDies s n).map (fun d => (d, 2)))
      ∧ (stationOf s' n).map = (stationOf s n).map))
  ∧ (∀ (us : Lane) (s : State), ((s.m.power.phase ≠ .flushing ∨ (List.range 8).all (flushed s) = false) → exec (.flushClose us) s = .next s)
    ∧ (s.m.power.phase = .flushing → (List.range 8).all (flushed s) = true → ∃ s', exec (.flushClose us) s = .next s' ∧ s'.m.power.phase = .lampOnly
      ∧ s'.m.power.byOff = false ∧ s'.m.power.flushUs = us ∧ moduleWiped s' ∧ moduleKept s s'
      ∧ ∀ n ∈ stationsOn s, (stationOf s' n).ploss = (stationOf s n).ploss.map (fun i => { i with closed := true })))
  ∧ (∀ s : State, (s.m.power.phase = .lampOnly → s.m.power.byOff = false → inputOk s = true → s.m.power.tIn ≤ 400 → ∃ s', exec .inputReturnWake s = .next s'
      ∧ s.m.power.inputAt + 100000000 ≤ s'.now ∧ s'.m.power.bootAt = s.m.power.inputAt ∧ wokenFor s' (if s.m.power.wakeAsked then 2 else 1) ∧ fld s' modState 1 0 = 2 ∧ moduleKept s s')
    ∧ ((s.m.power.phase ≠ .lampOnly ∨ s.m.power.byOff = true ∨ inputOk s = false ∨ 400 < s.m.power.tIn) → exec .inputReturnWake s = .next s))
  ∧ (∀ (ns : Nat) (s : State), (ns < 10000 → exec (.modReset ns) s = .next s)
    ∧ (10000 ≤ ns →
      (s.m.power.phase = .off → exec (.modReset ns) s = .next s)
      ∧ (s.m.power.phase = .flushing → exec (.modReset ns) s = .next (updM s (fun m => { m with power := { m.power with wakeAsked := true } })))
      ∧ (s.m.power.phase = .lampOnly → s.m.power.byOff = true → s.m.power.tIn ≤ 400 → ∃ s', exec (.modReset ns) s = .next s' ∧ wokenFor s' 2 ∧ moduleKept s s')
      ∧ (powered s = true → ∃ s', exec (.modReset ns) s = .next s' ∧ wokenFor s' 2 ∧ moduleWiped s' ∧ moduleKept s s'
        ∧ ∀ d, d < 48 → fld s' (dieStateReg d) 13 11 = 5)))

/-- An alarm of a code stands in the module's list: it was sent, or an equal one of the last second counts it (R324). -/
def alarmOut (s : State) (code : Nat) : Prop := s.m.reedline.alarms.any (fun a => decide (a.code = BitVec.ofNat 16 code)) = true

/-- A feed has been read: MPWR_IN shows its voltage and whether it is in range, and the one that carries load takes it, else both share it
(R261, R262). -/
def feedRead (s s' : State) (feedB : Bool) (dv : Nat) : Prop :=
  s'.m.power.feedA = (if feedB then s.m.power.feedA else dv) ∧ s'.m.power.feedB = (if feedB then dv else s.m.power.feedB)
    ∧ (feedB = true → fld s' mpwrIn 19 10 = dv ∧ fld s' mpwrIn 41 41 = b2n (feedOk dv))
    ∧ (feedB = false → fld s' mpwrIn 9 0 = dv ∧ fld s' mpwrIn 40 40 = b2n (feedOk dv))
    ∧ ∀ a b : Bool, a = carries s'.m.power.feedA s'.m.power.feedB → b = carries s'.m.power.feedB s'.m.power.feedA →
      s'.m.power.shareA = (if a = b then 50 else if a then 100 else 0) ∧ s'.m.power.shareB = (if a = b then 50 else if b then 100 else 0)

/-- The supply acts on the module's own state, its registers and the ports: memory, tiles, dies and station dies are as they were. -/
def supplyFrame (s s' : State) : Prop := sameMemory s s' ∧ s'.tiles = s.tiles ∧ s'.dies = s.dies ∧ s'.stations = s.stations

/-- The partitions whose guarantee on a resource stands. -/
def standing (s : State) (r : Nat) : List Nat := (holders s r).filter (fun p => !(withdrawn s p r))

/-- FEED_OUT_OF_RANGE, FEED_RETURN, FEED_OVERCURRENT, BUS_CONVERTER_FAIL, TIMETABLE_ACTION, OSCILLATOR_SWITCH, MERE_DISCHARGE_DONE, MERE_MEASUREMENT,
MERE_ESTIMATE_TICK, CROSSING_ALLOWANCE and MERE_FULL_CHARGE complete: feeds, converters and the oscillator, the Mere and its estimates, withdrawal and
restoring of guarantees, and crossing allowances (09_hosts_partitions.md R250, 09_hosts_partitions.md R252, 09_hosts_partitions.md R253,
10_power_clocks_mere.md R261, 10_power_clocks_mere.md R262, 10_power_clocks_mere.md R263, 10_power_clocks_mere.md R272, 10_power_clocks_mere.md R276,
10_power_clocks_mere.md R277, 10_power_clocks_mere.md R278, 10_power_clocks_mere.md Table 10.4). -/
def Obligations.FeedsConvertersTheMereAndTheTimetable : Prop :=
  (∀ (b : Bool) (v : BitVec 10) (s : State), (feedOk v.toNat = true → exec (.feedOutOfRange b v) s = .next s)
    ∧ (feedOk v.toNat = false → ∃ s', exec (.feedOutOfRange b v) s = .next s' ∧ feedRead s s' b v.toNat ∧ supplyFrame s s' ∧ alarmOut s' 1
      ∧ (440 ≤ v.toNat → v.toNat < 460 → alarmOut s' 2) ∧ s'.m.power.phase = s.m.power.phase)
    ∧ (feedOk v.toNat = false → exec (.feedReturn b v) s = .next s)
    ∧ (feedOk v.toNat = true → ∃ s', exec (.feedReturn b v) s = .next s' ∧ feedRead s s' b v.toNat ∧ supplyFrame s s' ∧ s'.ports = s.ports
      ∧ s'.m.power.returned = (s.m.power.returned || decide (s.m.power.phase = .flushing))))
  ∧ (∀ (b : Bool) (a : BitVec 10) (s : State), ∃ s', exec (.feedOvercurrent b a) s = .next s'
    ∧ fld s' mpwrIn (if b then 39 else 29) (if b then 30 else 20) = a.toNat ∧ sameMemory s s' ∧ s'.m = s.m
    ∧ (a.toNat ≤ 540 → s'.dies = s.dies ∧ s'.tiles = s.tiles)
    ∧ ∀ d, d < 40 → (∀ c, c < 16 → wantedGear s d c ≤ gearOf s d c) → ∀ c, c < 16 →
      gearOf s' d c = if 540 < a.toNat ∧ (dieOf s d).region = true ∧ gearOf s d c < 4 then gearOf s d c + 1 else gearOf s d c)
  ∧ (∀ (i : Fin 10) (s : State), (bit (rd s (s0Power 0x810)) i = false → exec (.busConverterFail i) s = .next s)
    ∧ (bit (rd s (s0Power 0x810)) i = true → ∃ s', exec (.busConverterFail i) s = .next s' ∧ alarmOut s' 3
      ∧ (∀ j, j < 10 → bit (rd s' (s0Power 0x810)) j = (bit (rd s (s0Power 0x810)) j && decide (j ≠ i.val)))
      ∧ (9 ≤ convertersOk s → supplyFrame s s' ∧ s'.m.power = s.m.power ∧ (convertersOk s = 9 → effectiveCap s' ≤ 2300))
      ∧ (convertersOk s ≤ 8 → powered s = true → s'.m.power.phase = .flushing ∧ s'.m.power.pwrfail = true ∧ s'.m.power.mere = .discharging ∧ s'.m.power.tripAt = s.now)))
  ∧ (∀ s : State, exec .oscillatorSwitch s = .next (updM s (fun m => { m with power := { m.power with osc := !m.power.osc } })))
  ∧ (∀ s : State, ((s.m.power.mere ≠ .discharging ∨ s.m.power.phase = .flushing) → exec .mereDischargeDone s = .next s)
    ∧ (s.m.power.mere = .discharging → s.m.power.phase ≠ .flushing → ∃ s', exec .mereDischargeDone s = .next s' ∧ supplyFrame s s'
      ∧ s'.m.power = { s.m.power with mere := .charging } ∧ fld s' mereStat 9 0 = 480 ∧ fld s' mereStat 11 11 = 1 ∧ fld s' mereStat 63 32 = fld s mereStat 63 32)
    ∧ (s.m.power.mere ≠ .charging → exec .mereFullCharge s = .next s ∧ ∀ ms, exec (.mereMeasurement ms) s = .next s)
    ∧ (s.m.power.mere = .charging → (∃ s', exec .mereFullCharge s = .next s' ∧ supplyFrame s s' ∧ s'.m.power.mere = .idle
        ∧ s'.m.power.charge = ((fld s mereCap 47 32 * 60000 : Nat) : Int) ∧ fld s' mereStat 9 0 = 1000 ∧ fld s' mereStat 11 11 = 0)
      ∧ ∀ ms, ∃ s', exec (.mereMeasurement ms) s = .next s' ∧ supplyFrame s s' ∧ s'.m = s.m ∧ fld s' mereCap 47 32 = min (ms / 4) 65535
        ∧ fld s' mereCap 31 0 = usableJ (min (ms / 4) 65535) ∧ fld s' mereStat 10 10 = 1 ∧ fld s' mereStat 9 0 = 900))
  ∧ (∀ (v : BitVec 10) (uc : Int) (s : State) (c ev eq : Nat), c = fld s mereCap 47 32 → ev = energyV c v.toNat → eq = energyQ c (s.m.power.charge + uc) →
    ∃ s', exec (.mereEstimateTick v uc) s = .next s' ∧ s.m.power.mereAt ≤ s'.now ∧ s'.m.power.mereAt = s'.now + 1000000
      ∧ s'.m.power.charge = s.m.power.charge + uc
      ∧ ((v.toNat ≤ 400 ∧ s.m.power.phase = .flushing ∧ s.m.power.mere = .discharging) → s'.m.power.phase = .lampOnly ∧ s'.m.power.byOff = false ∧ s'.tiles = [])
      ∧ (¬ (v.toNat ≤ 400 ∧ s.m.power.phase = .flushing ∧ s.m.power.mere = .discharging) → supplyFrame s s' ∧ s'.m.power.phase = s.m.power.phase
        ∧ fld s' mereStat 9 0 = v.toNat ∧ rd s' (s0Power 0x828) = BitVec.ofNat 64 (ev % 2 ^ 32 + eq % 2 ^ 32 * 2 ^ 32)
        ∧ fld s' mereStat 12 12 = b2n (decide (v.toNat ≤ 400))
        ∧ (v.toNat ≤ 400 → fld s' mereStat 63 32 = 0 ∧ (fld s mereStat 12 12 = 0 → alarmOut s' 5))
        ∧ (400 < v.toNat → max ev eq < 10 * (max ev eq - min ev eq) → fld s' mereStat 63 32 = min ev eq % 2 ^ 32 ∧ fld s' mereStat 13 13 = 1
          ∧ (fld s mereStat 13 13 = 0 → alarmOut s' 5))
        ∧ (400 < v.toNat → 10 * (max ev eq - min ev eq) ≤ max ev eq → fld s' mereStat 63 32 = ev % 2 ^ 32 ∧ fld s' mereStat 13 13 = fld s mereStat 13 13)))
  ∧ (∀ (delay : Fin 1000001) (pOut : Nat) (s w : State), w = acting s delay pOut → ∃ s', exec (.timetableAction delay pOut) s = .next s' ∧ supplyFrame s s'
    ∧ s.now + delay ≤ s'.now ∧ s'.now = w.now
    ∧ s'.m.power = { s.m.power with outside := pOut, caps := (List.range 5).map (capacityOf w) }
    ∧ (∀ (r : Fin 5) (fit : Bool), fit = guaranteesFit s (standing s r) r (capacityOf w r) → holders s' r = holders s r
      ∧ guaranteesFit s' (standing s' r) r (capacityOf w r) = true
      ∧ (fit = true → capacityOf w r ≤ s.m.power.caps.getD r 0 → ∀ p, p < 8 → withdrawn s' p r = withdrawn s p r)
      ∧ (fit = true → s.m.power.caps.getD r 0 < capacityOf w r → ∀ p ∈ holders s r, (withdrawn s p r = false → withdrawn s' p r = false)
        ∧ (withdrawn s' p r = true → guaranteesFit s' (standing s' r ++ [p]) r (capacityOf w r) = false))
      ∧ (fit = false → (∀ p ∈ holders s r, withdrawn s p r = true → withdrawn s' p r = true)
        ∧ ∀ l p k, holders s r = l ++ p :: k → withdrawn s p r = false → withdrawn s' p r = true → ∀ q ∈ k, withdrawn s' q r = true))
    ∧ ∀ p ∈ holders s 1, withdrawn s p 1 = false → withdrawn s' p 1 = true →
      ((partOf s p).invoke.isSome = true → (partOf s' p).stopAt = some 1)
      ∧ ((partOf s p).invoke = none → partState s p ≠ 2 → partState s' p = 5))
  ∧ (∀ s : State, ∃ s', exec .crossingAllowance s = .next s' ∧ s.m.power.xingAt ≤ s'.now ∧ s'.m.power.xingAt = s'.now + 10000
    ∧ ((∀ t, (tileOf s t).heldOut = []) → sameMemory s s' ∧ s'.regs = s.regs ∧ s'.dies = s.dies ∧ s'.ports = s.ports
      ∧ (∀ t, tileOf s' t = { tileOf s t with allow := (tileOf s' t).allow })
      ∧ ∀ p t, p < 8 → t ∈ tilesOfPart s p → (∀ q, q < 8 → t ∈ tilesOfPart s q → q = p) →
        (tileOf s' t).allow = (partAllowance s p).map (fun n => n / (tilesOfPart s p).length)))

/-- Whether every die of the partitions with a weight is at G4, so that nothing slower is left (R275). -/
def allSlowest (s : State) : Bool :=
  ((allParts s).filter (fun p => decide (fld s (partReg p 0) 29 22 ≠ 0))).all (fun p => (liveDies s p).all (dieSlowest s))

/-- The module's power in a tick, in W. -/
def modulePower (pDie : List Nat) (pOut : Nat) : Nat := ((List.range 40).map (fun d => pDie.getD d 0)).foldl (fun a b => a + b) 0 + pOut

/-- The power that the partitions share in a tick, in W: the cap less what is outside the compute dies. -/
def tickPool (s : State) (pOut : Nat) : Nat := effectiveCap s * 10 - pOut

/-- The thermal gear of a compute die after a sample of its hottest reading at a time (Table 13.10). -/
def gearAfter (x : Die) (c now : Nat) : Nat :=
  if x.thermGear < thermalTarget c then thermalTarget c
  else if x.thermGear = 5 then (if c < 100 then 4 else 5)
  else if 0 < x.thermGear ∧ c + 3 ≤ entryPoint x.thermGear then
    (match x.coolSince with
     | some a => if a + 1000000 ≤ now then x.thermGear - 1 else x.thermGear
     | none => x.thermGear)
  else x.thermGear

/-- Bring-up runs stage 1 with a wake cause (R288, R310). -/
def wokenBy (s' : State) (cause : Nat) : Prop := s'.m.power.phase = .bringup ∧ stageOf s' = 1 ∧ fld s' modState 4 2 = cause

/-- GOVERNOR_TICK, THERMAL_SAMPLE, COOLANT_SAMPLE and COOLANT_SHUTDOWN complete: a governor tick records power and sets gears, a thermal sample moves the
thermal gear, and the coolant caps, warns and shuts down (09_hosts_partitions.md R249, 10_power_clocks_mere.md R275, 10_power_clocks_mere.md R276,
11_bringup_reset_repair.md R304, 13_module_physical.md R338, 13_module_physical.md R339, 13_module_physical.md R340, 13_module_physical.md R341,
10_power_clocks_mere.md Table 10.6, 13_module_physical.md Table 13.10, 13_module_physical.md Table 13.11). -/
def Obligations.TheGovernorThermalGearsAndTheCoolant : Prop :=
  (∀ (pDie : List Nat) (pOut : Nat) (dem : List Nat) (s : State),
    (powered s = false → ∃ s', exec (.governorTick pDie pOut dem) s = .next s' ∧ s'.regs = s.regs ∧ s'.dies = s.dies ∧ s'.tiles = s.tiles ∧ sameMemory s s')
    ∧ (powered s = true → ∃ s', exec (.governorTick pDie pOut dem) s = .next s' ∧ s.m.power.govAt ≤ s'.now ∧ s'.m.power.govAt = s'.now + 1000000 ∧ sameMemory s s'
      ∧ s'.stations = s.stations
      ∧ (∀ d, d < 48 → (dieOf s d).region = true → fld s' (powerReg d 0x10) 31 0 = pDie.getD d 0 % 2 ^ 32
        ∧ fld s' (powerReg d 0x10) 63 32 = (fld s (powerReg d 0x10) 63 32 + ((dieOf s d).milliJ + pDie.getD d 0) / 1000) % 2 ^ 32
        ∧ (dieOf s' d).milliJ = ((dieOf s d).milliJ + pDie.getD d 0) % 1000)
      ∧ fld s' (s0Power 0x808) 15 0 = fld s (s0Power 0x808) 15 0 ∧ s'.m.power.outside = pOut
      ∧ fld s' (s0Power 0x808) 31 16 = min 65535 (modulePower pDie pOut / 10) ∧ fld s' (s0Power 0x808) 47 32 = min 65535 (tickPool s pOut / 10)
      ∧ fld s' (s0Power 0x808) 48 48 = b2n (decide (effectiveCap s * 10 < modulePower pDie pOut) && allSlowest s)
      ∧ (fld s' (s0Power 0x808) 48 48 = 1 → fld s (s0Power 0x808) 48 48 = 0 → alarmOut s' 4)
      ∧ ∀ x d, d < 40 → (allowances s (tickPool s pOut) dem).filter (fun y => decide (d ∈ liveDies s y.part)) = [x] → governorGear s d ≤ 4 →
        governorGear s' d = nextGear (governorGear s d) (pDie.getD d 0) x.has (liveDies s x.part).length))
  ∧ (∀ (d : DieId) (se cl : List Byte) (s : State) (c : Nat), ((dieOf s d).region = false → exec (.thermalSample d se cl) s = .next s)
    ∧ ((dieOf s d).region = true → d.val < 40 → c = max (hottest (se.take 8)) (hottest (cl.take 16)) →
      ∃ s', exec (.thermalSample d se cl) s = .next s' ∧ (dieOf s d).sampledAt ≤ s'.now ∧ (dieOf s' d).sampledAt = s'.now + 10000 ∧ sameMemory s s'
        ∧ s'.stations = s.stations
        ∧ (∀ i, i < 8 → fld s' (healthReg d 8) (8 * i + 7) (8 * i) = (se.getD i 0).toNat) ∧ (∀ i, i < 16 → fld s' (clPwr d i) 15 8 = (cl.getD i 0).toNat)
        ∧ fld s' (healthReg d 0x10) 7 0 = max (fld s (healthReg d 0x10) 7 0) (hottest (se.take 8)) ∧ (dieOf s' d).thermGear = gearAfter (dieOf s d) c s'.now
        ∧ ((dieOf s d).thermGear < thermalTarget c → alarmOut s' 6 ∧ fld s' (powerReg d 0x30) 4 4 = 1
          ∧ ((∀ i, i < 16 → spGet (dieOf s d).govGear 0 i ≤ 4) → ∀ i, i < 16 → min 4 (thermalTarget c) ≤ gearOf s' d i))
        ∧ (thermalTarget c ≤ (dieOf s d).thermGear → s'.m = s.m ∧ s'.ports = s.ports)
        ∧ ∀ e, e ≠ d.val → dieOf s' e = dieOf s e)
    ∧ ((dieOf s d).region = true → 40 ≤ d.val → c = hottest (se.take 8) → ∃ s', exec (.thermalSample d se cl) s = .next s' ∧ (dieOf s d).sampledAt ≤ s'.now
      ∧ ((c ≤ 105 ∨ (dieOf s d).hotSince = none) → sameMemory s s' ∧ s'.m = s.m ∧ (∀ i, i < 8 → fld s' (healthReg d 8) (8 * i + 7) (8 * i) = (se.getD i 0).toNat)
        ∧ (dieOf s' d).hotSince = (if 105 < c then some s'.now else none)
        ∧ fld s' (powerReg d 0) 24 24 = b2n (decide (fld s (powerReg d 0) 4 0 = 10 ∨ 100 ≤ c)))
      ∧ (∀ a, 105 < c → (dieOf s d).hotSince = some a → a + 1000000 ≤ s.now → s'.m.fencedDies.contains d.val = true
        ∧ (s.m.fencedDies.contains d.val = false → (dieOf s' d).region = false ∧ fld s' (dieStateReg d) 6 3 = 1))))
  ∧ (∀ (tIn fl : Nat) (s : State), ∃ s', exec (.coolantSample tIn fl) s = .next s' ∧ s.m.power.coolAt ≤ s'.now ∧ s'.m.power.coolAt = s'.now + 1000000
    ∧ supplyFrame s s' ∧ s'.m.power.tIn = tIn ∧ s'.m.power.flow = (if flowSeen s then fl else s.m.power.flow)
    ∧ s'.m.power.coolCap = coolantCap tIn (if flowSeen s then some fl else none)
    ∧ s'.m.power.warmAt = (if 450 < tIn then some (s.m.power.warmAt.getD s'.now) else none)
    ∧ s'.m.power.slowAt = (if flowSeen s = true ∧ fl < 400 then some (s.m.power.slowAt.getD s'.now) else none)
    ∧ ((s.m.power.tIn ≤ 400 ∧ 400 < tIn ∨ flowSeen s = true ∧ 600 ≤ s.m.power.flow ∧ fl < 600) → alarmOut s' 7)
    ∧ (atStage s 0 = true → 0 < fl → stageOf s' = 1) ∧ (atStage s 0 = true → fl = 0 → stageOf s' = 0)
    ∧ (s.m.power.phase = .standby → s.m.power.wakeAsked = true → tIn ≤ 400 → wokenBy s' 3)
    ∧ (¬ (s.m.power.phase = .standby ∧ s.m.power.wakeAsked = true ∧ tIn ≤ 400) → s'.m.power.phase = s.m.power.phase))
  ∧ (∀ s : State, (s.m.power.warmAt = none → s.m.power.slowAt = none → exec .coolantShutdown s = .next s)
    ∧ ((powered s = false ∨ atStage s 0 = true) → ∃ v, exec .coolantShutdown s = .next { s with vco := v })
    ∧ (powered s = true → atStage s 0 = false → (s.m.power.warmAt.isSome = true ∨ s.m.power.slowAt.isSome = true) →
      ∃ s', exec .coolantShutdown s = .next s' ∧ s'.m.power.phase = .flushing ∧ s'.m.power.pwrfail = false ∧ s'.m.power.tripAt = s'.now ∧ alarmOut s' 7
        ∧ (∀ a, s.m.power.warmAt = some a → s.m.power.slowAt = none → a + 10000000000 ≤ s'.now)
        ∧ (∀ a, s.m.power.slowAt = some a → s.m.power.warmAt = none → a + 10000000000 ≤ s'.now)))

/-- What REGION_START needs: bring-up at stage 1 or 2, a region left, and for a compute die the fuses read. -/
def mayRamp (s : State) : Bool :=
  (atStage s 1 || atStage s 2) && decide (s.m.power.regionN < 48) && (decide (40 ≤ regionOrder.getD s.m.power.regionN 0) || s.m.power.fuseRead)

/-- The dies of the fuse-derived view that have no power or do not answer. -/
def lostDies (s : State) (silent : List DieId) : List Nat :=
  (fuseDies s).filter (fun d => !((dieOf s d).region) || silent.any (fun x => decide (x.val = d)))

/-- Every die of the view that is there has all its crossings to others that are. -/
def crossingsWhole (s : State) (silent : List DieId) : Prop :=
  ∀ d ∈ fuseDies s, d ∉ lostDies s silent → crossingMissing s ((fuseDies s).filter (fun n => !((lostDies s silent).contains n))) d = false

/-- Bring-up has failed at its stage: BOOT_FAIL, and the stage stays (R288). -/
def bootStopped (s s' : State) : Prop := fld s' modStatus 1 1 = 1 ∧ stageOf s' = stageOf s

/-- REGION_START, REGION_RAMP_TIMEOUT, PLL_LOCK_LOSS, FUSE_READ, LANE_REPAIR, PEAT_BRINGUP, TOPOLOGY_CHECK, FIRMWARE_LOAD, SELFTEST, S4_TAKEOVER and
POWER_APPLIED complete: power, regions, fuses, lanes, Peat, topology, firmware and self-test take bring-up from stage to stage, and S4 may take over
(06_lines_and_signals.md R165, 08_peat_streaming_updates.md R224, 10_power_clocks_mere.md R270, 10_power_clocks_mere.md R285,
11_bringup_reset_repair.md R288, 11_bringup_reset_repair.md R289, 11_bringup_reset_repair.md R291, 11_bringup_reset_repair.md R292,
11_bringup_reset_repair.md R293, 11_bringup_reset_repair.md R307, 12_health_reedline.md R322, 11_bringup_reset_repair.md Table 11.1). -/
def Obligations.BringUpGoesStageByStage : Prop :=
  (∀ (a b : BitVec 10) (s : State), (s.m.power.phase ≠ .off → exec (.powerApplied a b) s = .next s)
    ∧ (s.m.power.phase = .off → ∃ s', exec (.powerApplied a b) s = .next s' ∧ s'.m.power.feedA = a.toNat ∧ s'.m.power.feedB = b.toNat ∧ supplyFrame s s'
      ∧ fld s' mpwrIn 40 40 = b2n (feedOk a.toNat) ∧ fld s' mpwrIn 41 41 = b2n (feedOk b.toNat)
      ∧ (feedOk a.toNat = false → feedOk b.toNat = false → s'.m.power.phase = .off)
      ∧ ((feedOk a.toNat = true ∨ feedOk b.toNat = true) → s'.m.power.phase = .bringup ∧ s'.m.power.bootAt = s.now ∧ fld s' (s0Power 0x810) 9 0 = 0x3FF
        ∧ fld s' modState 4 2 = 0 ∧ stageOf s' = (if 0 < s.m.power.flow then 1 else 0))))
  ∧ (∀ (s : State) (d : Nat), d = regionOrder.getD s.m.power.regionN 0 → (mayRamp s = false → exec .regionStart s = .next s)
    ∧ (mayRamp s = true → ∃ s', exec .regionStart s = .next s' ∧ s.m.power.regionAt ≤ s'.now ∧ s'.m.power.regionAt = s'.now + 2000000
      ∧ s'.m.power.regionN = s.m.power.regionN + 1 ∧ sameMemory s s' ∧ s'.tiles = s.tiles ∧ (∀ e, e ≠ d → dieOf s' e = dieOf s e)
      ∧ ((s.m.power.fuseRead = true ∧ s.m.fuses.badCrc.any (fun x => decide (x.val = d)) = true) → (dieOf s' d).region = (dieOf s d).region
        ∧ fld s' (dieStateReg d) 10 7 = 3 ∧ s'.m.power.pwrgd = s.m.power.pwrgd)
      ∧ (¬ (s.m.power.fuseRead = true ∧ s.m.fuses.badCrc.any (fun x => decide (x.val = d)) = true) → (dieOf s' d).region = true
        ∧ s'.m.power.pwrgd = (s.m.power.pwrgd || decide (d = 40)))
      ∧ stageOf s' = if stageOf s = 2 ∧ s.m.power.fuseRead = true ∧ s.m.power.regionN = 47 then 3 else stageOf s))
  ∧ (∀ (d : DieId) (s : State), ((dieOf s d).region = false → exec (.regionRampTimeout d) s = .next s ∧ exec (.pllLockLoss d) s = .next s)
    ∧ ((dieOf s d).region = true → (∃ s', exec (.regionRampTimeout d) s = .next s' ∧ (dieOf s' d).region = false ∧ (dieOf s' d).failed = true
        ∧ fld s' (powerReg d 0x30) 5 5 = 1 ∧ fld s' (dieStateReg d) 1 0 = 3 ∧ (d.val = 40 → s'.m.power.pwrgd = false))
      ∧ (s.m.fencedDies.contains d.val = false → ∃ s', exec (.pllLockLoss d) s = .next s' ∧ (dieOf s' d).region = false ∧ (dieOf s' d).failed = true
        ∧ s'.m.fencedDies = s.m.fencedDies ++ [d.val] ∧ fld s' (dieStateReg d) 2 0 = 7 ∧ fld s' (dieStateReg d) 6 3 = 3)))
  ∧ (∀ (bad : List DieId) (s : State), (¬ (atStage s 1 = true ∧ (dieOf s 40).region = true) → exec (.fuseRead bad) s = .next s)
    ∧ (atStage s 1 = true → (dieOf s 40).region = true → ∃ s', exec (.fuseRead bad) s = .next s' ∧ s'.m.fuses = { s.m.fuses with badCrc := bad }
      ∧ s'.m.power.fuseRead = true ∧ (∀ d ∈ bad, (dieOf s' d).region = false ∧ fld s' (dieStateReg d) 10 7 = 3)
      ∧ stageOf s' = if s.m.power.regionN = 48 then 3 else 2))
  ∧ (∀ (d : DieId) (e : Edge) (pl : Plane) (fl : List Nat) (s : State), ∃ s', exec (.laneRepair d e pl fl) s = .next s' ∧ sameMemory s s' ∧ s'.tiles = s.tiles
    ∧ s'.ports = s.ports ∧ (∀ k ∈ s.m.power.lanes, k ∈ s'.m.power.lanes)
    ∧ (∀ c ∈ crossingsOf d (edgeNum e), ∀ n, (dieOf s c.1).region = true → exitDie c.1 (c.2 + 1) 0 = some n → (dieOf s n).region = true →
      crossingKey c.1 c.2 pl ∈ s'.m.power.lanes)
    ∧ (atStage s 3 = true → stageOf s' = if (liveCrossings s).all (fun k => s'.m.power.lanes.contains k) then 4 else 3)
    ∧ (atStage s 3 = false → stageOf s' = stageOf s))
  ∧ (∀ (n : StationId) (foreign : List (Fin 16 × Fin 16)) (s : State),
    (¬ (atStage s 5 = true ∧ (dieOf s (40 + n)).region = true) → exec (.peatBringup ⟨n, foreign⟩) s = .next s)
    ∧ (atStage s 5 = true → (dieOf s (40 + n)).region = true → ∃ s', exec (.peatBringup ⟨n, foreign⟩) s = .next s' ∧ (stationOf s' n).ready = true ∧ (stationOf s' n).ploss = none
      ∧ (∀ f ∈ foreign, (stationOf s' n).nandFail.contains f = true)
      ∧ (∀ c, c < 16 → (∀ f ∈ foreign, f.1.val ≠ c) → bit (rd s' (psbReg n 0)) c = decide (((stationOf s n).nandFail.filter (fun f => decide (f.1.val = c))).length < 16))
      ∧ (∀ i, (stationOf s n).ploss = some i → rd s' (s0Power 0x838) = BitVec.ofNat 64 (s.m.power.flushUs.toNat + b2n i.closed * 2 ^ 32
        + b2n s.m.power.rolled * 2 ^ 33 + b2n s.m.power.returned * 2 ^ 34))
      ∧ stageOf s' = if (stationsOn s').all (fun k => (stationOf s' k).ready) then 6 else 5))
  ∧ (∀ (si : List DieId) (s : State), (atStage s 6 = false → exec (.topologyCheck si) s = .next s)
    ∧ (atStage s 6 = true → crossingsWhole s si →
      (lostDies s si = [] → ((s.m.power.expect = none ∨ ∃ x, s.m.power.expect = some x ∧ expectFits s x [] = true) →
          ∃ s', exec (.topologyCheck si) s = .next s' ∧ stageOf s' = 7 ∧ s'.dies = s.dies ∧ s'.m = s.m ∧ sameMemory s s')
        ∧ (∀ x, s.m.power.expect = some x → expectFits s x [] = false → ∃ s', exec (.topologyCheck si) s = .next s' ∧ bootStopped s s' ∧ alarmOut s' 0x0C))
      ∧ (lostDies s si ≠ [] → ((s.m.power.expect = none ∨ ∃ x, s.m.power.expect = some x ∧ expectFits s x (lostDies s si) = false) →
          ∃ s', exec (.topologyCheck si) s = .next s' ∧ bootStopped s s' ∧ alarmOut s' 0x0C ∧ ∀ d ∈ lostDies s si, fld s' (dieStateReg d) 10 7 = 1)
        ∧ (∀ x, s.m.power.expect = some x → expectFits s x (lostDies s si) = true → ∃ s', exec (.topologyCheck si) s = .next s' ∧ stageOf s' = 7
          ∧ fld s' modStatus 1 1 = 0 ∧ ∀ d ∈ lostDies s si, s'.m.fencedDies.contains d = true ∧ fld s' (dieStateReg d) 10 7 = 6))))
  ∧ (∀ (ok : List Bool) (v : Word) (s : State), (atStage s 7 = false → exec (.firmwareLoad ok v) s = .next s)
    ∧ (atStage s 7 = true → (ok.getD 0 false || ok.getD 1 false) = true → ∃ s', exec (.firmwareLoad ok v) s = .next s' ∧ stageOf s' = 8
      ∧ s'.m = { s.m with power := { s.m.power with fwVer := v } } ∧ sameMemory s s')
    ∧ (atStage s 7 = true → (ok.getD 0 false || ok.getD 1 false) = false → ∃ s', exec (.firmwareLoad ok v) s = .next s' ∧ bootStopped s s' ∧ alarmOut s' 0x0B))
  ∧ (∀ (tf : List (TileId × Fin 8)) (df : List DieId) (s : State), (atStage s 8 = false → exec (.selftest tf df) s = .next s)
    ∧ (atStage s 8 = true → ∃ s', exec (.selftest tf df) s = .next s' ∧ stageOf s' = 9 ∧ s'.m.power.phase = .running ∧ fld s' modStatus 0 0 = 1
      ∧ fld s' modState 1 0 = 0 ∧ (∀ f ∈ tf, f.2 ≠ 0 → goodTile s f.1 = true → (dieOf s (f.1.val / 144)).region = true → s'.m.fencedTiles.contains f.1.val = true)
      ∧ (∀ d ∈ df, (dieOf s d).region = true → s'.m.fencedDies.contains d.val = true) ∧ ∀ d, d < 40 → partOfDie s d = none → (dieOf s' d).region = false))
  ∧ (∀ (dr : Fin 5001) (missed : BitVec 8) (s : State) (lost : Bool),
    lost = (!(dieOf s 40).region || (dieOf s 40).failed || s.m.fencedDies.contains 40 || decide (3 ≤ missed.toNat)) →
    ((s.m.sboxS4 = true ∨ (dieOf s 44).region = false ∨ lost = false) → exec (.s4Takeover ⟨dr, missed⟩) s = .next s)
    ∧ (s.m.sboxS4 = false → (dieOf s 44).region = true → lost = true → ∃ s', exec (.s4Takeover ⟨dr, missed⟩) s = .next s' ∧ s'.m.sboxS4 = true ∧ s'.m.reedline.phyS4 = true
      ∧ s'.m.census.active = false ∧ (dieOf s' 40).region = false ∧ (dieOf s' 44).region = true ∧ fld s' (s0Health 0xF208) 4 4 = 1 ∧ alarmOut s' 0x0E))

/-- A source is heard: the PHY that drives has power and the source is known (R321). -/
def heard (s : State) (src : Word) : Bool := phyAlive s && knownSource s src

/-- A frame of an unknown source is counted in RL_STAT.STRANGER; its alarm goes out where none has for 10 s. Nothing else changes (R321). -/
def strangerCounted (s s' : State) : Prop :=
  supplyFrame s s' ∧ s'.ports = s.ports ∧ fld s' (s0Health 0xF208) 63 48 = (fld s (s0Health 0xF208) 63 48 + 1) % 65536
    ∧ (∀ a, s.m.reedline.strangerAt = some a → s.now < a + 10000000000 → s'.m = s.m)
    ∧ ((s.m.reedline.strangerAt = none ∨ ∃ a, s.m.reedline.strangerAt = some a ∧ a + 10000000000 ≤ s.now) →
      s'.m.reedline.strangerAt = some s.now ∧ alarmOut s' 0x10)

/-- A request is answered with a status and a body, and nothing else changes (R323). -/
def answered (s s' : State) (msg : List Byte) (status : Nat) (body : List Byte) : Prop :=
  s' = reedSend s (message s ((msgType msg + 0x80) % 256) false status (msgCtr msg) body)

/-- A request or command of a source with a message, and the TYPE it has (Tables 12.10 and 12.11). -/
def reedRow (i : Instr) (src : Word) (msg : List Byte) (type : Nat) : Prop :=
  i = .identGet src msg ∧ type = 1 ∨ i = .censusGet src msg ∧ type = 2 ∨ i = .ledgerGet src msg ∧ type = 3 ∨ i = .alarmAck src msg ∧ type = 0x90
    ∨ i = .expect src msg ∧ type = 0x21 ∨ (i = .standby src msg ∨ i = .wake src msg ∨ i = .off src msg ∨ i = .admin src msg ∨ i = .release src msg
      ∨ i = .setPort src msg) ∧ type = 0x20

/-- A known source's request of a type is well formed. -/
def asks (s : State) (src : Word) (msg : List Byte) (type : Nat) : Prop := heard s src = true ∧ msgType msg = type ∧ msgOk msg = true

/-- A request passes the tag that a set key asks for; `must`: it needs a key (R323). -/
def mayAsk (s : State) (msg : List Byte) (must : Bool) : Bool := if keySet s then tagRight s msg else !must

/-- The range of a CENSUS_GET is legal (Table 12.10). -/
def censusRange (msg : List Byte) : Bool :=
  decide (msgFld msg 15 8 ≠ 0 ∧ msgFld msg 15 8 ≤ (if msgFld msg 16 16 = 1 then 3 else 16) ∧ msgFld msg 7 0 + msgFld msg 15 8 ≤ 48)

/-- The body of CENSUS: the header and the records asked for, whole or their first seven words. -/
def censusBody (snap : List Word) (msg : List Byte) : List Byte :=
  ((snap.take 8) ++ (List.range (msgFld msg 15 8)).flatMap (fun i =>
    (snap.drop (8 + 32 * (msgFld msg 7 0 + i))).take (if msgFld msg 16 16 = 1 then 32 else 7))).flatMap (fun w => leBytes 8 w.toNat)

/-- The requests of a source and CTR that were answered in the last 20 ms. -/
def askedBefore (s : State) (src : Word) (msg : List Byte) : Option (Word × Word × Nat × List Word) :=
  (s.m.reedline.asks.filter (fun a => decide (s.now ≤ a.2.2.1 + 20000000))).find? (fun a => decide (a.1 = src ∧ a.2.1 = BitVec.ofNat 64 (msgCtr msg)))

/-- The records of a die that its home station die can read. -/
def readableRecords (s : State) (d : Nat) : List LedgerRec :=
  if (stationOf s (homeOf d)).ready then (stationOf s (homeOf d)).ledger.filter (fun r => decide (r.die.val = d)) else []

/-- The expectation that an EXPECT carries (Table 12.10). -/
def expectIn (msg : List Byte) : Byte × List Byte × Nat := (BitVec.ofNat 8 (msgNat msg 32 1), (msg.drop 40).take 32, msgNat msg 72 8)

/-- An EXPECT has been answered with a result. -/
def expectAnswered (s s' : State) (msg : List Byte) (result : Nat) : Prop :=
  ∃ l die, s'.m.reedline.sent = s.m.reedline.sent ++ l ++ [message s 0xA1 false 0 (msgCtr msg) (leBytes 8 (result + die % 64 * 256))]

/-- IDENT_GET, CENSUS_GET, LEDGER_GET, ALARM_ACK, ALARM_REPEAT, EXPECT, UNKNOWN_SOURCE_FRAME and REEDLINE_FORMAT complete: Reedline frames are filtered by
source and form, requests answered under their tag, and alarms repeated until they are acknowledged (11_bringup_reset_repair.md R292,
12_health_reedline.md R315, 12_health_reedline.md R316, 12_health_reedline.md R317, 12_health_reedline.md R321, 12_health_reedline.md R323,
12_health_reedline.md R324, 12_health_reedline.md R325, 12_health_reedline.md R327, 12_health_reedline.md Table 12.10). -/
def Obligations.ReedlineRequestsAreCheckedAndAnswered : Prop :=
  (∀ (i : Instr) (src : Word) (msg : List Byte) (ty : Nat) (s : State), reedRow i src msg ty → (phyAlive s = false → exec i s = .next s)
    ∧ (phyAlive s = true → knownSource s src = false → ∃ s', exec i s = .next s' ∧ strangerCounted s s')
    ∧ (heard s src = true → msgType msg ≠ ty → exec i s = .next s)
    ∧ (heard s src = true → msgType msg = ty → msgOk msg = false → ∃ s', exec i s = .next s' ∧ answered s s' msg 1 []))
  ∧ (∀ (src : Word) (msg : List Byte) (s : State),
    (asks s src msg 1 → ∃ s', exec (.identGet src msg) s = .next s' ∧ answered s s' msg 0 ((identityPage s).take 80))
    ∧ (asks s src msg 2 → msgFld msg 16 16 = 1 → mayAsk s msg true = false → ∃ s', exec (.censusGet src msg) s = .next s'
      ∧ answered s s' msg (if keySet s then 2 else 4) [])
    ∧ (asks s src msg 2 → (msgFld msg 16 16 = 1 → mayAsk s msg true = true) →
      (censusRange msg = false → ∃ s', exec (.censusGet src msg) s = .next s' ∧ answered s s' msg 6 [])
      ∧ (censusRange msg = true → (msgRepeat msg = false ∨ askedBefore s src msg = none) → ∃ s', exec (.censusGet src msg) s = .next s'
        ∧ s'.m.reedline.sent = s.m.reedline.sent ++ [message s 0x82 false 0 (msgCtr msg) (censusBody (latestSnapshot s) msg)]
        ∧ (src, BitVec.ofNat 64 (msgCtr msg), s.now, latestSnapshot s) ∈ s'.m.reedline.asks ∧ s'.regs = s.regs ∧ supplyFrame s s')
      ∧ (∀ a, censusRange msg = true → msgRepeat msg = true → askedBefore s src msg = some a → ∃ s', exec (.censusGet src msg) s = .next s'
        ∧ s'.m.reedline.sent = s.m.reedline.sent ++ [message s 0x82 false 0 (msgCtr msg) (censusBody a.2.2.2 msg)] ∧ s'.regs = s.regs ∧ supplyFrame s s'))
    ∧ (asks s src msg 3 → mayAsk s msg true = false → ∃ s', exec (.ledgerGet src msg) s = .next s' ∧ answered s s' msg (if keySet s then 2 else 4) [])
    ∧ (asks s src msg 3 → mayAsk s msg true = true →
      ((48 ≤ msgFld msg 5 0 ∨ msgFld msg 15 8 = 0 ∨ 12 < msgFld msg 15 8) → ∃ s', exec (.ledgerGet src msg) s = .next s' ∧ answered s s' msg 6 [])
      ∧ (∀ got : List LedgerRec, msgFld msg 5 0 < 48 → msgFld msg 15 8 ≠ 0 → msgFld msg 15 8 ≤ 12 →
        got = ((readableRecords s (msgFld msg 5 0)).filter (fun r => decide (msgFld msg 47 16 ≤ bits (r.words.getD 1 0) 31 0))).take (msgFld msg 15 8) → ∃ s', exec (.ledgerGet src msg) s = .next s'
        ∧ answered s s' msg 0 (leBytes 8 got.length ++ got.flatMap (fun r => r.words.flatMap (fun w => leBytes 8 w.toNat)))))
    ∧ (asks s src msg 0x90 → (mayAsk s msg false = false → exec (.alarmAck src msg) s = .next s)
      ∧ (mayAsk s msg false = true → ∃ s', exec (.alarmAck src msg) s = .next s' ∧ s'.regs = s.regs ∧ supplyFrame s s' ∧ s'.m.reedline.sent = s.m.reedline.sent
        ∧ s'.m.reedline.alarms = s.m.reedline.alarms.map (fun a => if a.ctr.toNat = msgCtr msg then { a with acked := true } else a)))
    ∧ (asks s src msg 0x21 → (mayAsk s msg false = false → ∃ s', exec (.expect src msg) s = .next s' ∧ answered s s' msg 2 [])
      ∧ (mayAsk s msg false = true → (msg.drop 16).take 16 ≠ s.m.fuses.moduleId → ∃ s', exec (.expect src msg) s = .next s' ∧ expectAnswered s s' msg 3
        ∧ s'.regs = s.regs ∧ s'.m.power = s.m.power)
      ∧ (∀ x, x = expectIn msg → mayAsk s msg false = true → (msg.drop 16).take 16 = s.m.fuses.moduleId →
        ((stageOf s ≠ 6 ∨ bit (rd s modStatus) 1 = false) → expectFits s x [] = true → ∃ s', exec (.expect src msg) s = .next s' ∧ expectAnswered s s' msg 0
          ∧ s'.m.power.expect = some x ∧ fld s' modState 6 5 = 3 ∧ stageOf s' = stageOf s)
        ∧ (stageOf s = 6 → bit (rd s modStatus) 1 = true → missingDies s = [] → expectFits s x [] = true → ∃ s', exec (.expect src msg) s = .next s'
          ∧ expectAnswered s s' msg 0 ∧ s'.m.power.expect = some x ∧ fld s' modState 6 5 = 3 ∧ stageOf s' = 7 ∧ fld s' modStatus 1 1 = 0)
        ∧ (stageOf s = 6 → bit (rd s modStatus) 1 = true → missingDies s ≠ [] → expectFits s x (missingDies s) = true →
          ∃ s', exec (.expect src msg) s = .next s' ∧ expectAnswered s s' msg 1 ∧ stageOf s' = 7 ∧ fld s' modStatus 1 1 = 0
            ∧ ∀ d ∈ missingDies s, s'.m.fencedDies.contains d = true ∧ fld s' (dieStateReg d) 10 7 = 6)
        ∧ (stageOf s ≠ 6 → expectFits s x [] = false → ∃ s', exec (.expect src msg) s = .next s' ∧ expectAnswered s s' msg 2
          ∧ s'.m.power.expect = some x ∧ fld s' modState 6 5 = 1 ∧ stageOf s' = stageOf s)))
    ∧ (heard s src = true → (msgOk msg = true → exec (.reedlineFormat src msg) s = .next s)
      ∧ (msgOk msg = false → ∃ s', exec (.reedlineFormat src msg) s = .next s' ∧ answered s s' msg 1 []))
    ∧ ((phyAlive s = false ∨ knownSource s src = true) → exec (.unknownSourceFrame src) s = .next s)
    ∧ (phyAlive s = true → knownSource s src = false → ∃ s', exec (.unknownSourceFrame src) s = .next s' ∧ strangerCounted s s'))
  ∧ (∀ (ctr : Lane) (s : State), (s.m.reedline.alarms.find? (fun a => decide (a.ctr = ctr)) = none → exec (.alarmRepeat ctr) s = .next s)
    ∧ ∀ a, s.m.reedline.alarms.find? (fun a => decide (a.ctr = ctr)) = some a →
      ((a.acked = true ∨ a.sends = 0 ∨ 4 ≤ a.sends) → exec (.alarmRepeat ctr) s = .next s)
      ∧ (a.acked = false → 1 ≤ a.sends → a.sends ≤ 3 → ∃ s', exec (.alarmRepeat ctr) s = .next s' ∧ s'.regs = s.regs ∧ supplyFrame s s'
        ∧ a.sentAt + (if a.sends = 1 then 100000000 else if a.sends = 2 then 300000000 else 700000000) ≤ s'.now
        ∧ s'.m.reedline.sent = s.m.reedline.sent ++ [alarmMessage s a true]
        ∧ s'.m.reedline.alarms = s.m.reedline.alarms.map (fun b => if b.ctr = ctr then { b with sends := b.sends + 1 } else b)))

/-- The Reedline commands with their OP (Table 12.11). -/
def cmdRow (i : Instr) (src : Word) (msg : List Byte) (op : Nat) : Prop :=
  i = .standby src msg ∧ op = 1 ∨ i = .wake src msg ∧ op = 2 ∨ i = .off src msg ∧ op = 3 ∨ i = .admin src msg ∧ op = 4 ∨ i = .release src msg ∧ op = 5
    ∨ i = .setPort src msg ∧ op = 6

/-- A known source's well-formed CMD of an OP. -/
def cmdHeard (s : State) (src : Word) (msg : List Byte) (op : Nat) : Prop := asks s src msg 0x20 ∧ msgFld msg 7 0 = op

/-- One that passes the checks of R327: the key, the tag and a CTR above RL_CMDCTR. -/
def cmdFresh (s : State) (src : Word) (msg : List Byte) (op : Nat) : Prop :=
  cmdHeard s src msg op ∧ keySet s = true ∧ tagRight s msg = true ∧ (rd s (s0Health 0xF258)).toNat < msgCtr msg

/-- CMD_RESULT has been sent with a status and the OP. -/
def cmdSaid (s s' : State) (msg : List Byte) (op status : Nat) : Prop :=
  ∃ body l, s'.m.reedline.sent = s.m.reedline.sent ++ message s 0xA0 false status (msgCtr msg) body :: l ∧ body.length = 8
    ∧ body.take 2 = [BitVec.ofNat 8 op, 0]

/-- A fresh command has been taken: RL_CMDCTR has its CTR, and the reply is cached with its CTR and tag. -/
def cmdTaken (s' : State) (msg : List Byte) : Prop :=
  rd s' (s0Health 0xF258) = BitVec.ofNat 64 (msgCtr msg) ∧ ∃ out, s'.m.reedline.cache = some (BitVec.ofNat 64 (msgCtr msg), msgTag msg, out)

/-- Nothing beside the Reedline endpoint has changed. -/
def cmdOnly (s s' : State) : Prop :=
  supplyFrame s s' ∧ s'.ports = s.ports ∧ s'.m = { s.m with reedline := s'.m.reedline } ∧ ∀ k, k ≠ s0Health 0xF258 → rd s' k = rd s k

/-- The argument of a command. -/
def cmdArg (msg : List Byte) : Nat := msgFld msg 63 16

/-- The signal box can serve the test connector now (R337). -/
def chainFree (s : State) : Bool := powered s && !(s.m.census.active) && (dieOf s (if s.m.sboxS4 then 44 else 40)).region

/-- A partition runs or loads. -/
def someWork (s : State) : Bool := (allParts s).any (fun p => decide (partState s p = 4 ∨ partState s p = 2))

/-- The state in which an MCHAIN access has been asked for. -/
def startAsk (s : State) (dr : BitVec 96) : State :=
  updM s (fun m => { m with tap := { m.tap with mchain := some dr, answer := dr &&& ~~~(0x180 : BitVec 96) } })

/-- STANDBY, WAKE, OFF, ADMIN, RELEASE, SET_PORT, NEIGHBOUR_SOLICITATION, BEACON, BEACON_MISS, COORDINATOR_LISTEN_EXPIRY, MCHAIN, FCS_ERR, IPV6_ECHO and
TAP_INSTRUCTION complete: Reedline commands under key, tag and counter and their effects, PLCA, solicitations and echo, and the test connector with
MCHAIN (09_hosts_partitions.md R245, 11_bringup_reset_repair.md R290, 11_bringup_reset_repair.md R302, 11_bringup_reset_repair.md R304,
12_health_reedline.md R316, 12_health_reedline.md R318, 12_health_reedline.md R319, 12_health_reedline.md R320, 12_health_reedline.md R321,
12_health_reedline.md R327, 13_module_physical.md R337, 12_health_reedline.md Table 12.11). -/
def Obligations.ReedlineCommandsPlcaAndTheTestConnector : Prop :=
  (∀ (i : Instr) (src : Word) (msg : List Byte) (op : Nat) (s : State), cmdRow i src msg op →
    (asks s src msg 0x20 → msgFld msg 7 0 ≠ op → exec i s = .next s)
    ∧ (cmdHeard s src msg op → (keySet s = false ∨ tagRight s msg = false) → taggedBefore s msg = none → ∃ s', exec i s = .next s' ∧ cmdSaid s s' msg op (if keySet s then 2 else 4)
      ∧ s'.regs = s.regs ∧ cmdOnly s s')
    ∧ (cmdHeard s src msg op → keySet s = true → tagRight s msg = true → msgCtr msg ≤ (rd s (s0Health 0xF258)).toNat →
      (∀ c, s.m.reedline.cache = some c → c.1.toNat = msgCtr msg → c.2.1 = msgTag msg → ∃ s', exec i s = .next s' ∧ s'.regs = s.regs ∧ cmdOnly s s'
        ∧ s'.m.reedline.sent = s.m.reedline.sent ++ [(c.2.2.take (c.2.2.length - 16)).set 4 3 ++ tagOf s ((c.2.2.take (c.2.2.length - 16)).set 4 3)])
      ∧ ((∀ c, s.m.reedline.cache = some c → c.1.toNat ≠ msgCtr msg ∨ c.2.1 ≠ msgTag msg) → ∃ s', exec i s = .next s' ∧ cmdSaid s s' msg op 3
        ∧ s'.regs = s.regs ∧ cmdOnly s s')))
  ∧ (∀ (src : Word) (msg : List Byte) (o : OldKey) (s : State), cmdHeard s src msg 6 → keySet s = true → taggedBefore s msg = some o → o.ctr.toNat < msgCtr msg →
    1024 ≤ cmdArg msg → ∃ s', exec (.setPort src msg) s = .next s' ∧ cmdSaid (withKey s o) s' msg 6 0 ∧ fld s' (s0Health 0xF200) 51 36 = cmdArg msg % 65536
      ∧ keyNow s' = keyNow s ∧ s'.m = { s.m with reedline := s'.m.reedline })
  ∧ (∀ (src : Word) (msg : List Byte) (s : State),
    (cmdFresh s src msg 1 → (someWork s = true → ∃ s', exec (.standby src msg) s = .next s' ∧ cmdSaid s s' msg 1 5 ∧ cmdTaken s' msg ∧ cmdOnly s s')
      ∧ (someWork s = false → (s.m.power.phase = .running ∨ s.m.power.phase = .bringup) → ∃ s', exec (.standby src msg) s = .next s' ∧ cmdSaid s s' msg 1 0
        ∧ cmdTaken s' msg ∧ s'.m.power.phase = .standby ∧ stageOf s' = 10 ∧ fld s' modStatus 1 0 = 0 ∧ fld s' modState 1 0 = 1 ∧ s'.m.parts = [] ∧ s'.tiles = []
        ∧ (∀ d, d < 48 → (dieOf s' d).region = (decide (d = if s.m.sboxS4 then 44 else 40) && (dieOf s d).region))
        ∧ (∀ p, p < 8 → partExists s' p = false) ∧ s'.m.fencedTiles = s.m.fencedTiles ∧ s'.m.fencedDies = s.m.fencedDies))
    ∧ (cmdFresh s src msg 2 → (s.m.power.phase ≠ .standby → ∃ s', exec (.wake src msg) s = .next s' ∧ cmdSaid s s' msg 2 5 ∧ cmdTaken s' msg ∧ cmdOnly s s')
      ∧ (s.m.power.phase = .standby → s.m.power.tIn ≤ 400 → ∃ s', exec (.wake src msg) s = .next s' ∧ cmdSaid s s' msg 2 0 ∧ cmdTaken s' msg ∧ wokenBy s' 3
        ∧ supplyFrame s s' ∧ s'.ports = s.ports)
      ∧ (s.m.power.phase = .standby → 400 < s.m.power.tIn → ∃ s', exec (.wake src msg) s = .next s' ∧ cmdSaid s s' msg 2 0 ∧ cmdTaken s' msg
        ∧ s'.m.power = { s.m.power with wakeAsked := true } ∧ supplyFrame s s'))
    ∧ (cmdFresh s src msg 3 → (someWork s = true → ∃ s', exec (.off src msg) s = .next s' ∧ cmdSaid s s' msg 3 5 ∧ cmdTaken s' msg ∧ cmdOnly s s')
      ∧ (someWork s = false → powered s = true → ∃ s', exec (.off src msg) s = .next s' ∧ cmdSaid s s' msg 3 0 ∧ s'.m.power.phase = .lampOnly
        ∧ s'.m.power.byOff = true ∧ moduleWiped s' ∧ (∀ n, n < 8 → (stationOf s' n).map = (stationOf s n).map
          ∧ ((∀ d ∈ homeDies s n, ledgerHasRoom s d) → ((stationOf s' n).ledger.drop (stationOf s n).ledger.length).map (fun r => (r.die.val, bits (r.words.getD 0 0) 3 0))
            = (homeDies s n).map (fun d => (d, 2))))))
    ∧ (cmdFresh s src msg 4 → ∃ s', exec (.admin src msg) s = .next s' ∧ cmdSaid s s' msg 4 (if (portOf s (cmdArg msg % 8)).linkUp then 0 else 5) ∧ cmdTaken s' msg
      ∧ fld s' (moduleReg 0) 2 0 = (if (portOf s (cmdArg msg % 8)).linkUp && !(s.ticks.handed.any (fun h => h.2)) then cmdArg msg % 8
        else fld s (moduleReg 0) 2 0)
      ∧ supplyFrame s s' ∧ s'.ports = s.ports ∧ s'.m = { s.m with reedline := s'.m.reedline })
    ∧ (cmdFresh s src msg 5 →
      ((if (cmdArg msg).testBit 13 then 48 else 40) ≤ releasedDie (cmdArg msg) → ∃ s', exec (.release src msg) s = .next s' ∧ cmdSaid s s' msg 5 6
        ∧ cmdTaken s' msg ∧ cmdOnly s s')
      ∧ (releasedDie (cmdArg msg) < (if (cmdArg msg).testBit 13 then 48 else 40) → (partOfDie s (releasedDie (cmdArg msg))).isSome = true →
        ∃ s', exec (.release src msg) s = .next s' ∧ cmdSaid s s' msg 5 5 ∧ cmdTaken s' msg ∧ cmdOnly s s')
      ∧ (∀ d, d = cmdArg msg % 64 → (cmdArg msg).testBit 13 = true → d < 48 → partOfDie s d = none → s.m.fencedDies.contains d = true →
        ∃ s', exec (.release src msg) s = .next s' ∧ cmdSaid s s' msg 5 0 ∧ cmdTaken s' msg ∧ s'.m.fencedDies = s.m.fencedDies.filter (fun x => decide (x ≠ d))
          ∧ fld s' (dieStateReg d) 6 2 = 0 ∧ (dieOf s' d).missed = 0 ∧ ledgerAdded s s' d 6 0x1FFF ∧ sameMemory s s' ∧ s'.m.fencedTiles = s.m.fencedTiles)
      ∧ (∀ t, t = cmdArg msg % 0x2000 → (cmdArg msg).testBit 13 = false → t < 5760 → partOfDie s (t / 144) = none → s.m.fencedTiles.contains t = true →
        ∃ s', exec (.release src msg) s = .next s' ∧ cmdSaid s s' msg 5 0 ∧ cmdTaken s' msg ∧ s'.m.fencedTiles = s.m.fencedTiles.filter (fun x => decide (x ≠ t))
          ∧ ledgerAdded s s' (t / 144) 6 t ∧ sameMemory s s' ∧ s'.m.fencedDies = s.m.fencedDies))
    ∧ (cmdFresh s src msg 6 → ∃ s', exec (.setPort src msg) s = .next s' ∧ cmdSaid s s' msg 6 (if cmdArg msg < 1024 then 6 else 0) ∧ cmdTaken s' msg
      ∧ fld s' (s0Health 0xF200) 51 36 = (if cmdArg msg < 1024 then fld s (s0Health 0xF200) 51 36 else cmdArg msg % 65536)
      ∧ supplyFrame s s' ∧ s'.ports = s.ports ∧ s'.m = { s.m with reedline := s'.m.reedline }))
  ∧ (∀ (src : Word) (pay : List Byte) (s : State) (recent : List Nat), recent = s.m.reedline.nsAt.filter (fun a => decide (s.now < a + 1000000000)) →
    (phyAlive s = false → exec (.neighbourSolicitation src) s = .next s ∧ exec (.ipv6Echo src pay) s = .next s ∧ exec .fcsErr s = .next s)
    ∧ (phyAlive s = true → (knownSource s src = true ∨ recent.length < 10) → ∃ s' m, exec (.neighbourSolicitation src) s = .next s'
      ∧ s'.m.reedline.sent = s.m.reedline.sent ++ [m] ∧ m.take 2 = [136, 0] ∧ m.drop 4 = [0x60, 0, 0, 0] ++ linkLocal (ownIid s) ++ [2, 1] ++ s.m.fuses.mac
      ∧ s'.regs = s.regs ∧ supplyFrame s s' ∧ s'.m.reedline.nsAt = (if knownSource s src then s.m.reedline.nsAt else recent ++ [s.now]))
    ∧ (phyAlive s = true → knownSource s src = false → 10 ≤ recent.length → ∃ s', exec (.neighbourSolicitation src) s = .next s' ∧ strangerCounted s s')
    ∧ (phyAlive s = true → knownSource s src = false → ∃ s', exec (.ipv6Echo src pay) s = .next s' ∧ strangerCounted s s')
    ∧ (heard s src = true → ∃ s' m, exec (.ipv6Echo src pay) s = .next s' ∧ s'.m.reedline.sent = s.m.reedline.sent ++ [m] ∧ m.take 2 = [129, 0] ∧ m.drop 4 = pay
      ∧ s'.regs = s.regs ∧ supplyFrame s s')
    ∧ (phyAlive s = true → ∃ s', exec .fcsErr s = .next s' ∧ fld s' (s0Health 0xF208) 31 16 = (fld s (s0Health 0xF208) 31 16 + 1) % 65536 ∧ s'.m = s.m
      ∧ supplyFrame s s' ∧ fld s' (s0Health 0xF208) 1 0 = fld s (s0Health 0xF208) 1 0))
  ∧ (∀ (own : Bool) (s : State) (mode : Nat), mode = fld s (s0Health 0xF208) 1 0 →
    ((phyAlive s = false ∨ own = true ∨ mode = 0 ∧ s.m.reedline.fallback = false) → exec (.beacon own) s = .next s)
    ∧ (phyAlive s = true → own = false → 2 ≤ mode → ∃ s', exec (.beacon own) s = .next s' ∧ fld s' (s0Health 0xF208) 2 0 = 4 ∧ alarmOut s' 0x0F ∧ supplyFrame s s')
    ∧ (phyAlive s = true → own = false → (mode = 1 ∨ mode = 0 ∧ s.m.reedline.fallback = true) → ∃ s', exec (.beacon own) s = .next s'
      ∧ fld s' (s0Health 0xF208) 1 0 = 1 ∧ s'.m.reedline.lastBeacon = s.now ∧ s'.m.reedline.fallback = false ∧ supplyFrame s s')
    ∧ ((phyAlive s = false ∨ mode ≠ 1) → exec .beaconMiss s = .next s)
    ∧ (phyAlive s = true → mode = 1 → ∃ s', exec .beaconMiss s = .next s' ∧ s.m.reedline.lastBeacon + 4000000 ≤ s'.now ∧ fld s' (s0Health 0xF208) 1 0 = 0
      ∧ fld s' (s0Health 0xF208) 47 32 = (fld s (s0Health 0xF208) 47 32 + 1) % 65536 ∧ s'.m.reedline.fallback = true ∧ supplyFrame s s')
    ∧ ((phyAlive s = false ∨ mode ≠ 3) → exec .coordinatorListenExpiry s = .next s)
    ∧ (phyAlive s = true → mode = 3 → ∃ s', exec .coordinatorListenExpiry s = .next s' ∧ s.m.reedline.listenEnd ≤ s'.now
      ∧ fld s' (s0Health 0xF208) 1 0 = 2 ∧ s'.m = s.m ∧ supplyFrame s s'))
  ∧ (∀ (dr : BitVec 96) (s : State) (d off : Nat), d = chainDie (dr.toNat % 64) → off = dr.toNat / 512 % 2 ^ 23 →
    (s.m.power.phase = .off → exec (.mchain dr) s = .next s)
    ∧ (s.m.power.phase ≠ .off → chainFree s = false → ∃ s', exec (.mchain dr) s = .next s' ∧ s'.m.tap.mchain = some dr ∧ s'.m.tap.answer = dr &&& ~~~(0x180 : BitVec 96)
      ∧ s'.regs = s.regs ∧ supplyFrame s s')
    ∧ (chainFree s = true → dr.getLsbD 6 = true → someWork s = true → ∃ s', exec (.mchain dr) s = .next s' ∧ s'.m.tap.mchain = none
      ∧ s'.m.tap.answer.getLsbD 8 = true ∧ s'.m.tap.answer.getLsbD 7 = false ∧ s'.regs = s.regs ∧ supplyFrame s s')
    ∧ (chainFree s = true → dr.toNat % 64 < 48 → off % 8 = 0 → off < 0x10000 → (dieOf s d).region = true → (dr.getLsbD 6 = true → someWork s = false) →
      (dr.getLsbD 6 = false → ∀ p, partOfDie s d = some p → partState s p ≠ 4) → ∃ s', exec (.mchain dr) s = .next s' ∧ s'.m.tap.mchain = none
      ∧ s'.m.tap.answer.getLsbD 7 = true ∧ s'.m.tap.answer.getLsbD 8 = false
      ∧ (dr.getLsbD 6 = false → adminOnly (healthReg d off) = false → (s'.m.tap.answer.toNat / 2 ^ 32) = (readRegAt (startAsk s dr) (healthReg d off)).2.toNat)
      ∧ (dr.getLsbD 6 = true → s'.regs = (writeReg s false (healthReg d off) (BitVec.ofNat 64 (dr.toNat / 2 ^ 32))).regs)))
  ∧ (∀ (tms tdi : Bool) (s : State), (s.m.power.phase = .off → ∀ r, exec (.tapInstruction tms tdi r) s = .next s)
    ∧ (s.m.power.phase ≠ .off → (∃ s', exec (.tapInstruction tms tdi true) s = .next s' ∧ s'.m.tap.st = .reset ∧ s'.m.tap.ir = Config.tapCode 2 ∧ s'.m.tap.tdo = false
        ∧ s'.regs = s.regs ∧ supplyFrame s s')
      ∧ ∃ s', exec (.tapInstruction tms tdi false) s = .next s' ∧ s'.m.tap.st = tapNext s.m.tap.st tms
        ∧ (s.m.tap.st = .shiftIr → s'.m.tap.irShift = BitVec.ofNat 8 (s.m.tap.irShift.toNat / 2 + b2n tdi * 128))
        ∧ (s.m.tap.st = .shiftDr → tapOp s.m.tap.ir = .bypass → s'.m.tap.dr = BitVec.ofNat 96 (b2n tdi))
        ∧ (s.m.tap.st = .shiftDr → tapOp s.m.tap.ir = .idcode → s'.m.tap.dr = BitVec.ofNat 96 (s.m.tap.dr.toNat % 2 ^ 32 / 2 + b2n tdi * 2 ^ 31))
        ∧ (s.m.tap.st = .capDr → tapOp s.m.tap.ir = .idcode → s'.m.tap.dr.getLsbD 0 = true ∧ bits (BitVec.ofNat 64 s'.m.tap.dr.toNat) 27 12 = 0x4840)
        ∧ (s.m.tap.st = .capDr → tapOp s.m.tap.ir = .mchain → s'.m.tap.dr = s.m.tap.answer)
        ∧ (tapNext s.m.tap.st tms = .updIr → s'.m.tap.ir = s'.m.tap.irShift)
        ∧ (tapNext s.m.tap.st tms = .shiftDr → s'.m.tap.tdo = s'.m.tap.dr.getLsbD 0)
        ∧ (tapNext s.m.tap.st tms = .updDr → tapOp s.m.tap.ir = .mchain → chainFree s = false → s'.m.tap.mchain = some s.m.tap.dr)))

/-- At reset memory is canonical and lists nothing, every register reads its reset value, no die has power and no command waits
(11_bringup_reset_repair.md R288, 11_bringup_reset_repair.md R293, 11_bringup_reset_repair.md Table 11.1, 11_bringup_reset_repair.md Table
11.2). That no region has power before input power comes is the spec's; that a byte never written reads 0 is the model's choice (log 4). -/
def Obligations.ResetIsCanonicalAndUnpowered : Prop :=
  memoryCanonical State.reset ∧ State.reset.cells = [] ∧ State.reset.undef = [] ∧ State.reset.pending = []
    ∧ (∀ k, rd State.reset k = regReset k) ∧ (∀ d, (dieOf State.reset d).region = false) ∧ (∀ t, (tileOf State.reset t).running = false)
    ∧ State.reset.m.power.phase = .off ∧ State.reset.m.parts = [] ∧ State.reset.m.epochs = [] ∧ State.reset.m.net = []
    ∧ State.reset.m.fencedTiles = [] ∧ State.reset.m.fencedDies = []

/-- Every step keeps the memory in its canonical form: addresses strictly rising, nothing listed that equals what an unlisted byte reads as
(09_hosts_partitions.md R235, 02_tiles_scratchpad.md R60, 04_tensor_sparsity.md R101, 95_what_each_step_holds.md). -/
def Obligations.EveryStepKeepsMemoryCanonical : Prop :=
  ∀ s s' : State, memoryCanonical s → step s = .next s' → memoryCanonical s'
end

