-- ==== Sys2Proof/Laws/Sparse.lean ====
section
/-!
SUPPORT. Sparse data: a read after a write, and the rising keys that every operation keeps.
-/

namespace Sys2Proof.Laws

open Sys2Proof.Machine

variable {α : Type}

/-- A read of the key just put gives the value. -/
@[simp] theorem spGet_spPut_same (m : Sparse α) (d v : α) (k : Nat) : spGet (spPut m k v) d k = v := by
  induction m with
  | nil => simp [spPut, spGet]
  | cons p m ih =>
    obtain ⟨q, u⟩ := p
    simp only [spPut]
    split
    · simp [spGet]
    · split
      · simp [spGet]
      · simp [spGet, *]

/-- A put leaves every other key alone. -/
theorem spGet_spPut_ne (m : Sparse α) (d v : α) {k j : Nat} (h : j ≠ k) : spGet (spPut m k v) d j = spGet m d j := by
  induction m with
  | nil => simp [spPut, spGet, h]
  | cons p m ih =>
    obtain ⟨q, u⟩ := p
    simp only [spPut]
    split
    · subst_vars; simp [spGet, h]
    · split
      · simp [spGet, h]
      · simp only [spGet, ih]

/-- A removed key reads as the default. -/
@[simp] theorem spGet_spDel_same (m : Sparse α) (d : α) (k : Nat) : spGet (spDel m k) d k = d := by
  induction m with
  | nil => simp [spDel, spGet]
  | cons p m ih =>
    obtain ⟨q, u⟩ := p
    simp only [spDel]
    split
    · exact ih
    · simp [spGet, *]

/-- A removal leaves every other key alone. -/
theorem spGet_spDel_ne (m : Sparse α) (d : α) {k j : Nat} (h : j ≠ k) : spGet (spDel m k) d j = spGet m d j := by
  induction m with
  | nil => simp [spDel]
  | cons p m ih =>
    obtain ⟨q, u⟩ := p
    simp only [spDel]
    split
    · subst_vars; simp [spGet, h, ih]
    · simp only [spGet, ih]

/-- A read of the key just set gives the value. -/
@[simp] theorem spGet_spSet_same [DecidableEq α] (m : Sparse α) (d v : α) (k : Nat) : spGet (spSet m d k v) d k = v := by
  simp only [spSet]
  split <;> simp [*]

/-- Setting a key leaves every other key alone. -/
theorem spGet_spSet_ne [DecidableEq α] (m : Sparse α) (d e v : α) {k j : Nat} (h : j ≠ k) : spGet (spSet m d k v) e j = spGet m e j := by
  simp only [spSet]
  split
  · exact spGet_spDel_ne m e h
  · exact spGet_spPut_ne m e v h

/-- Changing every value changes what a key reads as by the same function, if the default changes into itself. -/
theorem spGet_spMap (f : Nat → α → Option α) (m : Sparse α) (d : α) (g : Nat → α → α) (h : ∀ k v, (f k v).getD d = g k v)
    (hd : ∀ k, g k d = d) (k : Nat) : spGet (spMap f m) d k = g k (spGet m d k) := by
  induction m with
  | nil => simp [spMap, spGet, hd]
  | cons p m ih =>
    obtain ⟨q, v⟩ := p
    have hv := h q v
    simp only [spMap]
    by_cases hk : k = q
    · subst hk
      cases hf : f k v with
      | none => simp [hf] at hv; simp [spGet, hv]
      | some w => simp [hf] at hv; simp [spGet, hv]
    · cases hf : f q v with
      | none => simp [spGet, hk, ih, spGet_spDel_ne _ d hk]
      | some w => simp [spGet, hk, ih]

/-- Rising keys rise from any smaller point. -/
theorem keysRise_mono {lo lo' : Nat} (m : Sparse α) (h : lo' ≤ lo) (r : keysRise lo m = true) : keysRise lo' m = true := by
  cases m with
  | nil => rfl
  | cons p m =>
    simp only [keysRise, Bool.and_eq_true, decide_eq_true_eq] at *
    exact ⟨by omega, r.2⟩

/-- A put keeps the keys rising. -/
theorem keysRise_spPut {lo k : Nat} (m : Sparse α) (v : α) (h : lo ≤ k) (r : keysRise lo m = true) : keysRise lo (spPut m k v) = true := by
  induction m generalizing lo with
  | nil => simp [spPut, keysRise, h]
  | cons p m ih =>
    obtain ⟨q, u⟩ := p
    simp only [keysRise, Bool.and_eq_true, decide_eq_true_eq] at r
    simp only [spPut]
    split
    · subst_vars; simp [keysRise, r]
    · split
      · simp only [keysRise, Bool.and_eq_true, decide_eq_true_eq]; exact ⟨h, by omega, r.2⟩
      · simp only [keysRise, Bool.and_eq_true, decide_eq_true_eq]; exact ⟨r.1, ih (by omega) r.2⟩

/-- A filter keeps the keys rising. -/
theorem keysRise_filter {lo : Nat} (m : Sparse α) (f : Nat × α → Bool) (r : keysRise lo m = true) : keysRise lo (m.filter f) = true := by
  induction m generalizing lo with
  | nil => exact r
  | cons p m ih =>
    simp only [keysRise, Bool.and_eq_true, decide_eq_true_eq] at r
    simp only [List.filter]
    split
    · simp only [keysRise, Bool.and_eq_true, decide_eq_true_eq]; exact ⟨r.1, ih r.2⟩
    · exact keysRise_mono _ (by omega) (ih r.2)

/-- A removal is a filter. -/
theorem spDel_eq_filter (m : Sparse α) (k : Nat) : spDel m k = m.filter (fun p => decide (k ≠ p.1)) := by
  induction m with
  | nil => rfl
  | cons p m ih =>
    obtain ⟨q, u⟩ := p
    simp only [spDel, List.filter]
    split <;> simp_all

/-- A removal keeps the keys rising. -/
theorem keysRise_spDel {lo k : Nat} (m : Sparse α) (r : keysRise lo m = true) : keysRise lo (spDel m k) = true := by
  rw [spDel_eq_filter]; exact keysRise_filter m _ r

/-- Setting a key keeps the keys rising. -/
theorem keysRise_spSet [DecidableEq α] {k : Nat} (m : Sparse α) (d v : α) (r : keysRise 0 m = true) : keysRise 0 (spSet m d k v) = true := by
  simp only [spSet]
  split
  · exact keysRise_spDel m r
  · exact keysRise_spPut m v (Nat.zero_le k) r

/-- What is listed after a put was listed before, or is the pair put. -/
theorem mem_spPut {m : Sparse α} {k : Nat} {v : α} {p : Nat × α} (h : p ∈ spPut m k v) : p = (k, v) ∨ p ∈ m := by
  induction m with
  | nil => simpa [spPut] using h
  | cons q m ih =>
    obtain ⟨j, u⟩ := q
    simp only [spPut] at h
    split at h
    · rcases List.mem_cons.1 h with h | h <;> simp [h]
    · split at h
      · rcases List.mem_cons.1 h with h | h
        · exact .inl h
        · exact .inr h
      · rcases List.mem_cons.1 h with h | h
        · simp [h]
        · rcases ih h with h | h <;> simp [h]

end Sys2Proof.Laws
end

