-- ==== Sys2Proof/Laws/Memory.lean ====
section
/-!
SUPPORT. Memory: a read after a write, and the canonical form that every memory operation keeps.
-/

namespace Sys2Proof.Laws

open Sys2Proof.Machine

/-- The canonical form of a state's memory. -/
abbrev memOk (s : State) : Bool := Memory.wf s.undef s.cells

/-- A byte just written reads as written. -/
@[simp] theorem readByte_writeByte_same (s : State) (a : Nat) (b : Byte) : readByte (writeByte s a b) a = b := by
  simp [readByte, writeByte]

/-- A write of one byte leaves every other byte alone. -/
theorem readByte_writeByte_ne (s : State) {a j : Nat} (b : Byte) (h : j ≠ a) : readByte (writeByte s a b) j = readByte s j := by
  simp only [readByte, writeByte]
  exact spGet_spSet_ne _ _ _ _ h

/-- Bytes written from `a` leave every byte outside them alone. -/
theorem readByte_writeBytes_outside (s : State) (a j : Nat) (bs : List Byte) (h : j < a ∨ a + bs.length ≤ j) :
    readByte (writeBytes s a bs) j = readByte s j := by
  induction bs generalizing s a with
  | nil => rfl
  | cons b bs ih =>
    simp only [writeBytes, List.length_cons] at *
    rw [ih _ _ (by omega), readByte_writeByte_ne _ _ (by omega)]

/-- A byte of a run just written reads as written. -/
theorem readByte_writeBytes_inside (s : State) (a i : Nat) (bs : List Byte) (h : i < bs.length) :
    readByte (writeBytes s a bs) (a + i) = bs[i] := by
  induction bs generalizing s a i with
  | nil => simp at h
  | cons b bs ih =>
    simp only [writeBytes]
    cases i with
    | zero => rw [Nat.add_zero, readByte_writeBytes_outside _ _ _ _ (by omega)]; simp
    | succ i =>
      have := ih (writeByte s a b) (a + 1) i (by simpa using h)
      rw [show a + (i + 1) = a + 1 + i from by omega, this]; simp

/-- Reading as many bytes as were just written gives them back. -/
theorem readBytes_writeBytes (s : State) (a : Nat) (bs : List Byte) : readBytes (writeBytes s a bs) a bs.length = bs := by
  have key : ∀ (n k : Nat), k + n = bs.length → readBytes (writeBytes s a bs) (a + k) n = bs.drop k := by
    intro n
    induction n with
    | zero => intro k h; simp only [readBytes]; rw [List.drop_of_length_le (by omega)]
    | succ n ih =>
      intro k h
      simp only [readBytes]
      rw [readByte_writeBytes_inside s a k bs (by omega), Nat.add_assoc, ih (k + 1) (by omega)]
      exact (List.drop_eq_getElem_cons (by omega)).symm
  simpa using key bs.length 0 (by omega)

/-- The canonical form, read as two conditions. -/
theorem wf_iff (u : List (Nat × Nat × Nat)) (m : List Host.Cell) :
    Memory.wf u m = true ↔ keysRise 0 m = true ∧ ∀ c ∈ m, c.2 ≠ memDefault u c.1 := by
  simp [Memory.wf]

/-- A write of one byte keeps the canonical form. -/
theorem wf_writeByte (s : State) (a : Nat) (b : Byte) (h : memOk s = true) : memOk (writeByte s a b) = true := by
  rw [wf_iff] at *
  refine ⟨keysRise_spSet _ _ _ h.1, ?_⟩
  simp only [writeByte, spSet]
  split
  · intro c hc
    rw [spDel_eq_filter] at hc
    exact h.2 c (List.mem_filter.1 hc).1
  · rename_i hb
    intro c hc
    rcases mem_spPut hc with e | hm
    · subst e; exact hb
    · exact h.2 c hm

/-- Writing bytes keeps the canonical form. -/
theorem wf_writeBytes (s : State) (a : Nat) (bs : List Byte) (h : memOk s = true) : memOk (writeBytes s a bs) = true := by
  induction bs generalizing s a with
  | nil => exact h
  | cons b bs ih => exact ih _ _ (wf_writeByte s a b h)

/-- Writing a word keeps the canonical form. -/
theorem wf_writeWord (s : State) (a : Nat) (w : Word) (h : memOk s = true) : memOk (writeWord s a w) = true := wf_writeBytes s a _ h

/-- Outside the range that an event made undefined, a byte's default is what it was. -/
theorem memDefault_cons {lo hi g a : Nat} (u : List (Nat × Nat × Nat)) (h : a < lo ∨ hi ≤ a) :
    memDefault ((lo, hi, g) :: u) a = memDefault u a := by
  simp only [memDefault, undefAt]
  rw [if_neg (by omega)]

/-- Making a range undefined keeps the canonical form. -/
theorem wf_undefine (s : State) (lo hi : Nat) (h : memOk s = true) : memOk (undefine s lo hi) = true := by
  rw [wf_iff] at *
  refine ⟨keysRise_filter _ _ h.1, ?_⟩
  intro c hc
  simp only [undefine, cellsOutside] at *
  obtain ⟨hm, ho⟩ := List.mem_filter.1 hc
  rw [memDefault_cons _ (by simpa using ho)]
  exact h.2 c hm

/-- Dropping the ranges below host memory leaves the default of a host byte alone. -/
theorem memDefault_hostUndef (u : List (Nat × Nat × Nat)) {a : Nat} (h : 8 * 2 ^ 52 ≤ a) : memDefault (hostUndef u) a = memDefault u a := by
  have : undefAt (hostUndef u) a = undefAt u a := by
    induction u with
    | nil => rfl
    | cons p u ih =>
      obtain ⟨lo, hi, g⟩ := p
      simp only [hostUndef, List.filter] at *
      split
      · simp only [undefAt, ih]
      · rename_i hf
        simp only [undefAt, decide_eq_false_iff_not] at *
        rw [if_neg (by omega)]; exact ih
  simp only [memDefault, this]

/-- What a module reset leaves of memory is canonical. -/
theorem wf_wiped (u : List (Nat × Nat × Nat)) (m : List Host.Cell) (g : Nat) (h : Memory.wf u m = true) :
    Memory.wf ((0, 2 ^ 52, g) :: hostUndef u) (hostCells m) = true := by
  rw [wf_iff] at *
  refine ⟨keysRise_filter _ _ h.1, ?_⟩
  intro c hc
  obtain ⟨hm, ho⟩ := List.mem_filter.1 hc
  have hb : 8 * 2 ^ 52 ≤ c.1 := by simpa using ho
  rw [memDefault_cons _ (by omega), memDefault_hostUndef _ hb]
  exact h.2 c hm

/-- The memory of State.reset is canonical. -/
theorem wf_reset : memOk State.reset = true := by decide

end Sys2Proof.Laws
end

