-- ==== Sys2Proof/Laws/State.lean ====
section
/-!
SUPPORT. What each update of the state leaves alone, field by field, and what it gives where it updates.
-/

namespace Sys2Proof.Laws

open Sys2Proof.Machine

/-! ### setDie -/

@[simp] theorem setDie_pending (s : State) (d : Nat) (x : Die) : (setDie s d x).pending = s.pending := rfl
@[simp] theorem setDie_vco (s : State) (d : Nat) (x : Die) : (setDie s d x).vco = s.vco := rfl
@[simp] theorem setDie_gtimeBase (s : State) (d : Nat) (x : Die) : (setDie s d x).gtimeBase = s.gtimeBase := rfl
@[simp] theorem setDie_fresh (s : State) (d : Nat) (x : Die) : (setDie s d x).fresh = s.fresh := rfl
@[simp] theorem setDie_tick (s : State) (d : Nat) (x : Die) : (setDie s d x).tick = s.tick := rfl
@[simp] theorem setDie_regs (s : State) (d : Nat) (x : Die) : (setDie s d x).regs = s.regs := rfl
@[simp] theorem setDie_cells (s : State) (d : Nat) (x : Die) : (setDie s d x).cells = s.cells := rfl
@[simp] theorem setDie_undef (s : State) (d : Nat) (x : Die) : (setDie s d x).undef = s.undef := rfl
@[simp] theorem setDie_ecc (s : State) (d : Nat) (x : Die) : (setDie s d x).ecc = s.ecc := rfl
@[simp] theorem setDie_tiles (s : State) (d : Nat) (x : Die) : (setDie s d x).tiles = s.tiles := rfl
@[simp] theorem setDie_stations (s : State) (d : Nat) (x : Die) : (setDie s d x).stations = s.stations := rfl
@[simp] theorem setDie_ports (s : State) (d : Nat) (x : Die) : (setDie s d x).ports = s.ports := rfl
@[simp] theorem setDie_m (s : State) (d : Nat) (x : Die) : (setDie s d x).m = s.m := rfl

/-! ### wr -/

@[simp] theorem wr_pending (s : State) (k : Nat) (w : Word) : (wr s k w).pending = s.pending := rfl
@[simp] theorem wr_vco (s : State) (k : Nat) (w : Word) : (wr s k w).vco = s.vco := rfl
@[simp] theorem wr_gtimeBase (s : State) (k : Nat) (w : Word) : (wr s k w).gtimeBase = s.gtimeBase := rfl
@[simp] theorem wr_fresh (s : State) (k : Nat) (w : Word) : (wr s k w).fresh = s.fresh := rfl
@[simp] theorem wr_tick (s : State) (k : Nat) (w : Word) : (wr s k w).tick = s.tick := rfl
@[simp] theorem wr_cells (s : State) (k : Nat) (w : Word) : (wr s k w).cells = s.cells := rfl
@[simp] theorem wr_undef (s : State) (k : Nat) (w : Word) : (wr s k w).undef = s.undef := rfl
@[simp] theorem wr_ecc (s : State) (k : Nat) (w : Word) : (wr s k w).ecc = s.ecc := rfl
@[simp] theorem wr_tiles (s : State) (k : Nat) (w : Word) : (wr s k w).tiles = s.tiles := rfl
@[simp] theorem wr_dies (s : State) (k : Nat) (w : Word) : (wr s k w).dies = s.dies := rfl
@[simp] theorem wr_stations (s : State) (k : Nat) (w : Word) : (wr s k w).stations = s.stations := rfl
@[simp] theorem wr_ports (s : State) (k : Nat) (w : Word) : (wr s k w).ports = s.ports := rfl
@[simp] theorem wr_m (s : State) (k : Nat) (w : Word) : (wr s k w).m = s.m := rfl

/-! ### setFld -/

@[simp] theorem setFld_pending (s : State) (k hi lo v : Nat) : (setFld s k hi lo v).pending = s.pending := rfl
@[simp] theorem setFld_vco (s : State) (k hi lo v : Nat) : (setFld s k hi lo v).vco = s.vco := rfl
@[simp] theorem setFld_gtimeBase (s : State) (k hi lo v : Nat) : (setFld s k hi lo v).gtimeBase = s.gtimeBase := rfl
@[simp] theorem setFld_fresh (s : State) (k hi lo v : Nat) : (setFld s k hi lo v).fresh = s.fresh := rfl
@[simp] theorem setFld_tick (s : State) (k hi lo v : Nat) : (setFld s k hi lo v).tick = s.tick := rfl
@[simp] theorem setFld_cells (s : State) (k hi lo v : Nat) : (setFld s k hi lo v).cells = s.cells := rfl
@[simp] theorem setFld_undef (s : State) (k hi lo v : Nat) : (setFld s k hi lo v).undef = s.undef := rfl
@[simp] theorem setFld_ecc (s : State) (k hi lo v : Nat) : (setFld s k hi lo v).ecc = s.ecc := rfl
@[simp] theorem setFld_tiles (s : State) (k hi lo v : Nat) : (setFld s k hi lo v).tiles = s.tiles := rfl
@[simp] theorem setFld_dies (s : State) (k hi lo v : Nat) : (setFld s k hi lo v).dies = s.dies := rfl
@[simp] theorem setFld_stations (s : State) (k hi lo v : Nat) : (setFld s k hi lo v).stations = s.stations := rfl
@[simp] theorem setFld_ports (s : State) (k hi lo v : Nat) : (setFld s k hi lo v).ports = s.ports := rfl
@[simp] theorem setFld_m (s : State) (k hi lo v : Nat) : (setFld s k hi lo v).m = s.m := rfl

/-! ### setBit -/

@[simp] theorem setBit_pending (s : State) (k i : Nat) : (setBit s k i).pending = s.pending := rfl
@[simp] theorem setBit_vco (s : State) (k i : Nat) : (setBit s k i).vco = s.vco := rfl
@[simp] theorem setBit_gtimeBase (s : State) (k i : Nat) : (setBit s k i).gtimeBase = s.gtimeBase := rfl
@[simp] theorem setBit_fresh (s : State) (k i : Nat) : (setBit s k i).fresh = s.fresh := rfl
@[simp] theorem setBit_cells (s : State) (k i : Nat) : (setBit s k i).cells = s.cells := rfl
@[simp] theorem setBit_undef (s : State) (k i : Nat) : (setBit s k i).undef = s.undef := rfl
@[simp] theorem setBit_ecc (s : State) (k i : Nat) : (setBit s k i).ecc = s.ecc := rfl
@[simp] theorem setBit_tiles (s : State) (k i : Nat) : (setBit s k i).tiles = s.tiles := rfl
@[simp] theorem setBit_dies (s : State) (k i : Nat) : (setBit s k i).dies = s.dies := rfl
@[simp] theorem setBit_stations (s : State) (k i : Nat) : (setBit s k i).stations = s.stations := rfl
@[simp] theorem setBit_ports (s : State) (k i : Nat) : (setBit s k i).ports = s.ports := rfl
@[simp] theorem setBit_m (s : State) (k i : Nat) : (setBit s k i).m = s.m := rfl

/-! ### addFld -/

@[simp] theorem addFld_pending (s : State) (k hi lo n : Nat) : (addFld s k hi lo n).pending = s.pending := rfl
@[simp] theorem addFld_vco (s : State) (k hi lo n : Nat) : (addFld s k hi lo n).vco = s.vco := rfl
@[simp] theorem addFld_gtimeBase (s : State) (k hi lo n : Nat) : (addFld s k hi lo n).gtimeBase = s.gtimeBase := rfl
@[simp] theorem addFld_fresh (s : State) (k hi lo n : Nat) : (addFld s k hi lo n).fresh = s.fresh := rfl
@[simp] theorem addFld_cells (s : State) (k hi lo n : Nat) : (addFld s k hi lo n).cells = s.cells := rfl
@[simp] theorem addFld_undef (s : State) (k hi lo n : Nat) : (addFld s k hi lo n).undef = s.undef := rfl
@[simp] theorem addFld_ecc (s : State) (k hi lo n : Nat) : (addFld s k hi lo n).ecc = s.ecc := rfl
@[simp] theorem addFld_tiles (s : State) (k hi lo n : Nat) : (addFld s k hi lo n).tiles = s.tiles := rfl
@[simp] theorem addFld_dies (s : State) (k hi lo n : Nat) : (addFld s k hi lo n).dies = s.dies := rfl
@[simp] theorem addFld_stations (s : State) (k hi lo n : Nat) : (addFld s k hi lo n).stations = s.stations := rfl
@[simp] theorem addFld_ports (s : State) (k hi lo n : Nat) : (addFld s k hi lo n).ports = s.ports := rfl
@[simp] theorem addFld_m (s : State) (k hi lo n : Nat) : (addFld s k hi lo n).m = s.m := rfl

/-! ### satFld -/

@[simp] theorem satFld_pending (s : State) (k hi lo n : Nat) : (satFld s k hi lo n).pending = s.pending := rfl
@[simp] theorem satFld_vco (s : State) (k hi lo n : Nat) : (satFld s k hi lo n).vco = s.vco := rfl
@[simp] theorem satFld_gtimeBase (s : State) (k hi lo n : Nat) : (satFld s k hi lo n).gtimeBase = s.gtimeBase := rfl
@[simp] theorem satFld_fresh (s : State) (k hi lo n : Nat) : (satFld s k hi lo n).fresh = s.fresh := rfl
@[simp] theorem satFld_cells (s : State) (k hi lo n : Nat) : (satFld s k hi lo n).cells = s.cells := rfl
@[simp] theorem satFld_undef (s : State) (k hi lo n : Nat) : (satFld s k hi lo n).undef = s.undef := rfl
@[simp] theorem satFld_ecc (s : State) (k hi lo n : Nat) : (satFld s k hi lo n).ecc = s.ecc := rfl
@[simp] theorem satFld_tiles (s : State) (k hi lo n : Nat) : (satFld s k hi lo n).tiles = s.tiles := rfl
@[simp] theorem satFld_dies (s : State) (k hi lo n : Nat) : (satFld s k hi lo n).dies = s.dies := rfl
@[simp] theorem satFld_stations (s : State) (k hi lo n : Nat) : (satFld s k hi lo n).stations = s.stations := rfl
@[simp] theorem satFld_ports (s : State) (k hi lo n : Nat) : (satFld s k hi lo n).ports = s.ports := rfl
@[simp] theorem satFld_m (s : State) (k hi lo n : Nat) : (satFld s k hi lo n).m = s.m := rfl

/-! ### setTile -/

@[simp] theorem setTile_pending (s : State) (t : Nat) (x : Tile) : (setTile s t x).pending = s.pending := rfl
@[simp] theorem setTile_vco (s : State) (t : Nat) (x : Tile) : (setTile s t x).vco = s.vco := rfl
@[simp] theorem setTile_gtimeBase (s : State) (t : Nat) (x : Tile) : (setTile s t x).gtimeBase = s.gtimeBase := rfl
@[simp] theorem setTile_fresh (s : State) (t : Nat) (x : Tile) : (setTile s t x).fresh = s.fresh := rfl
@[simp] theorem setTile_tick (s : State) (t : Nat) (x : Tile) : (setTile s t x).tick = s.tick := rfl
@[simp] theorem setTile_regs (s : State) (t : Nat) (x : Tile) : (setTile s t x).regs = s.regs := rfl
@[simp] theorem setTile_cells (s : State) (t : Nat) (x : Tile) : (setTile s t x).cells = s.cells := rfl
@[simp] theorem setTile_undef (s : State) (t : Nat) (x : Tile) : (setTile s t x).undef = s.undef := rfl
@[simp] theorem setTile_ecc (s : State) (t : Nat) (x : Tile) : (setTile s t x).ecc = s.ecc := rfl
@[simp] theorem setTile_dies (s : State) (t : Nat) (x : Tile) : (setTile s t x).dies = s.dies := rfl
@[simp] theorem setTile_stations (s : State) (t : Nat) (x : Tile) : (setTile s t x).stations = s.stations := rfl
@[simp] theorem setTile_ports (s : State) (t : Nat) (x : Tile) : (setTile s t x).ports = s.ports := rfl
@[simp] theorem setTile_m (s : State) (t : Nat) (x : Tile) : (setTile s t x).m = s.m := rfl

/-! ### updTile -/

@[simp] theorem updTile_pending (s : State) (t : Nat) (f : Tile → Tile) : (updTile s t f).pending = s.pending := rfl
@[simp] theorem updTile_vco (s : State) (t : Nat) (f : Tile → Tile) : (updTile s t f).vco = s.vco := rfl
@[simp] theorem updTile_gtimeBase (s : State) (t : Nat) (f : Tile → Tile) : (updTile s t f).gtimeBase = s.gtimeBase := rfl
@[simp] theorem updTile_fresh (s : State) (t : Nat) (f : Tile → Tile) : (updTile s t f).fresh = s.fresh := rfl
@[simp] theorem updTile_tick (s : State) (t : Nat) (f : Tile → Tile) : (updTile s t f).tick = s.tick := rfl
@[simp] theorem updTile_regs (s : State) (t : Nat) (f : Tile → Tile) : (updTile s t f).regs = s.regs := rfl
@[simp] theorem updTile_cells (s : State) (t : Nat) (f : Tile → Tile) : (updTile s t f).cells = s.cells := rfl
@[simp] theorem updTile_undef (s : State) (t : Nat) (f : Tile → Tile) : (updTile s t f).undef = s.undef := rfl
@[simp] theorem updTile_ecc (s : State) (t : Nat) (f : Tile → Tile) : (updTile s t f).ecc = s.ecc := rfl
@[simp] theorem updTile_dies (s : State) (t : Nat) (f : Tile → Tile) : (updTile s t f).dies = s.dies := rfl
@[simp] theorem updTile_stations (s : State) (t : Nat) (f : Tile → Tile) : (updTile s t f).stations = s.stations := rfl
@[simp] theorem updTile_ports (s : State) (t : Nat) (f : Tile → Tile) : (updTile s t f).ports = s.ports := rfl
@[simp] theorem updTile_m (s : State) (t : Nat) (f : Tile → Tile) : (updTile s t f).m = s.m := rfl

/-! ### updCtx -/

@[simp] theorem updCtx_pending (s : State) (t : Nat) (c : CtxId) (f : Ctx → Ctx) : (updCtx s t c f).pending = s.pending := rfl
@[simp] theorem updCtx_vco (s : State) (t : Nat) (c : CtxId) (f : Ctx → Ctx) : (updCtx s t c f).vco = s.vco := rfl
@[simp] theorem updCtx_gtimeBase (s : State) (t : Nat) (c : CtxId) (f : Ctx → Ctx) : (updCtx s t c f).gtimeBase = s.gtimeBase := rfl
@[simp] theorem updCtx_fresh (s : State) (t : Nat) (c : CtxId) (f : Ctx → Ctx) : (updCtx s t c f).fresh = s.fresh := rfl
@[simp] theorem updCtx_tick (s : State) (t : Nat) (c : CtxId) (f : Ctx → Ctx) : (updCtx s t c f).tick = s.tick := rfl
@[simp] theorem updCtx_regs (s : State) (t : Nat) (c : CtxId) (f : Ctx → Ctx) : (updCtx s t c f).regs = s.regs := rfl
@[simp] theorem updCtx_cells (s : State) (t : Nat) (c : CtxId) (f : Ctx → Ctx) : (updCtx s t c f).cells = s.cells := rfl
@[simp] theorem updCtx_undef (s : State) (t : Nat) (c : CtxId) (f : Ctx → Ctx) : (updCtx s t c f).undef = s.undef := rfl
@[simp] theorem updCtx_ecc (s : State) (t : Nat) (c : CtxId) (f : Ctx → Ctx) : (updCtx s t c f).ecc = s.ecc := rfl
@[simp] theorem updCtx_dies (s : State) (t : Nat) (c : CtxId) (f : Ctx → Ctx) : (updCtx s t c f).dies = s.dies := rfl
@[simp] theorem updCtx_stations (s : State) (t : Nat) (c : CtxId) (f : Ctx → Ctx) : (updCtx s t c f).stations = s.stations := rfl
@[simp] theorem updCtx_ports (s : State) (t : Nat) (c : CtxId) (f : Ctx → Ctx) : (updCtx s t c f).ports = s.ports := rfl
@[simp] theorem updCtx_m (s : State) (t : Nat) (c : CtxId) (f : Ctx → Ctx) : (updCtx s t c f).m = s.m := rfl

/-! ### updM -/

@[simp] theorem updM_pending (s : State) (f : Module → Module) : (updM s f).pending = s.pending := rfl
@[simp] theorem updM_vco (s : State) (f : Module → Module) : (updM s f).vco = s.vco := rfl
@[simp] theorem updM_gtimeBase (s : State) (f : Module → Module) : (updM s f).gtimeBase = s.gtimeBase := rfl
@[simp] theorem updM_fresh (s : State) (f : Module → Module) : (updM s f).fresh = s.fresh := rfl
@[simp] theorem updM_tick (s : State) (f : Module → Module) : (updM s f).tick = s.tick := rfl
@[simp] theorem updM_regs (s : State) (f : Module → Module) : (updM s f).regs = s.regs := rfl
@[simp] theorem updM_cells (s : State) (f : Module → Module) : (updM s f).cells = s.cells := rfl
@[simp] theorem updM_undef (s : State) (f : Module → Module) : (updM s f).undef = s.undef := rfl
@[simp] theorem updM_ecc (s : State) (f : Module → Module) : (updM s f).ecc = s.ecc := rfl
@[simp] theorem updM_tiles (s : State) (f : Module → Module) : (updM s f).tiles = s.tiles := rfl
@[simp] theorem updM_dies (s : State) (f : Module → Module) : (updM s f).dies = s.dies := rfl
@[simp] theorem updM_stations (s : State) (f : Module → Module) : (updM s f).stations = s.stations := rfl
@[simp] theorem updM_ports (s : State) (f : Module → Module) : (updM s f).ports = s.ports := rfl

/-! ### updPart -/

@[simp] theorem updPart_pending (s : State) (p : Nat) (f : Partition → Partition) : (updPart s p f).pending = s.pending := rfl
@[simp] theorem updPart_vco (s : State) (p : Nat) (f : Partition → Partition) : (updPart s p f).vco = s.vco := rfl
@[simp] theorem updPart_gtimeBase (s : State) (p : Nat) (f : Partition → Partition) : (updPart s p f).gtimeBase = s.gtimeBase := rfl
@[simp] theorem updPart_fresh (s : State) (p : Nat) (f : Partition → Partition) : (updPart s p f).fresh = s.fresh := rfl
@[simp] theorem updPart_tick (s : State) (p : Nat) (f : Partition → Partition) : (updPart s p f).tick = s.tick := rfl
@[simp] theorem updPart_regs (s : State) (p : Nat) (f : Partition → Partition) : (updPart s p f).regs = s.regs := rfl
@[simp] theorem updPart_cells (s : State) (p : Nat) (f : Partition → Partition) : (updPart s p f).cells = s.cells := rfl
@[simp] theorem updPart_undef (s : State) (p : Nat) (f : Partition → Partition) : (updPart s p f).undef = s.undef := rfl
@[simp] theorem updPart_ecc (s : State) (p : Nat) (f : Partition → Partition) : (updPart s p f).ecc = s.ecc := rfl
@[simp] theorem updPart_tiles (s : State) (p : Nat) (f : Partition → Partition) : (updPart s p f).tiles = s.tiles := rfl
@[simp] theorem updPart_dies (s : State) (p : Nat) (f : Partition → Partition) : (updPart s p f).dies = s.dies := rfl
@[simp] theorem updPart_stations (s : State) (p : Nat) (f : Partition → Partition) : (updPart s p f).stations = s.stations := rfl
@[simp] theorem updPart_ports (s : State) (p : Nat) (f : Partition → Partition) : (updPart s p f).ports = s.ports := rfl

/-! ### updPort -/

@[simp] theorem updPort_pending (s : State) (n : Nat) (f : Port → Port) : (updPort s n f).pending = s.pending := rfl
@[simp] theorem updPort_vco (s : State) (n : Nat) (f : Port → Port) : (updPort s n f).vco = s.vco := rfl
@[simp] theorem updPort_gtimeBase (s : State) (n : Nat) (f : Port → Port) : (updPort s n f).gtimeBase = s.gtimeBase := rfl
@[simp] theorem updPort_fresh (s : State) (n : Nat) (f : Port → Port) : (updPort s n f).fresh = s.fresh := rfl
@[simp] theorem updPort_tick (s : State) (n : Nat) (f : Port → Port) : (updPort s n f).tick = s.tick := rfl
@[simp] theorem updPort_regs (s : State) (n : Nat) (f : Port → Port) : (updPort s n f).regs = s.regs := rfl
@[simp] theorem updPort_cells (s : State) (n : Nat) (f : Port → Port) : (updPort s n f).cells = s.cells := rfl
@[simp] theorem updPort_undef (s : State) (n : Nat) (f : Port → Port) : (updPort s n f).undef = s.undef := rfl
@[simp] theorem updPort_ecc (s : State) (n : Nat) (f : Port → Port) : (updPort s n f).ecc = s.ecc := rfl
@[simp] theorem updPort_tiles (s : State) (n : Nat) (f : Port → Port) : (updPort s n f).tiles = s.tiles := rfl
@[simp] theorem updPort_dies (s : State) (n : Nat) (f : Port → Port) : (updPort s n f).dies = s.dies := rfl
@[simp] theorem updPort_stations (s : State) (n : Nat) (f : Port → Port) : (updPort s n f).stations = s.stations := rfl
@[simp] theorem updPort_m (s : State) (n : Nat) (f : Port → Port) : (updPort s n f).m = s.m := rfl

/-! ### updStation -/

@[simp] theorem updStation_pending (s : State) (n : Nat) (f : Station → Station) : (updStation s n f).pending = s.pending := rfl
@[simp] theorem updStation_vco (s : State) (n : Nat) (f : Station → Station) : (updStation s n f).vco = s.vco := rfl
@[simp] theorem updStation_gtimeBase (s : State) (n : Nat) (f : Station → Station) : (updStation s n f).gtimeBase = s.gtimeBase := rfl
@[simp] theorem updStation_fresh (s : State) (n : Nat) (f : Station → Station) : (updStation s n f).fresh = s.fresh := rfl
@[simp] theorem updStation_tick (s : State) (n : Nat) (f : Station → Station) : (updStation s n f).tick = s.tick := rfl
@[simp] theorem updStation_regs (s : State) (n : Nat) (f : Station → Station) : (updStation s n f).regs = s.regs := rfl
@[simp] theorem updStation_cells (s : State) (n : Nat) (f : Station → Station) : (updStation s n f).cells = s.cells := rfl
@[simp] theorem updStation_undef (s : State) (n : Nat) (f : Station → Station) : (updStation s n f).undef = s.undef := rfl
@[simp] theorem updStation_ecc (s : State) (n : Nat) (f : Station → Station) : (updStation s n f).ecc = s.ecc := rfl
@[simp] theorem updStation_tiles (s : State) (n : Nat) (f : Station → Station) : (updStation s n f).tiles = s.tiles := rfl
@[simp] theorem updStation_dies (s : State) (n : Nat) (f : Station → Station) : (updStation s n f).dies = s.dies := rfl
@[simp] theorem updStation_ports (s : State) (n : Nat) (f : Station → Station) : (updStation s n f).ports = s.ports := rfl
@[simp] theorem updStation_m (s : State) (n : Nat) (f : Station → Station) : (updStation s n f).m = s.m := rfl

/-! ### writeByte -/

@[simp] theorem writeByte_pending (s : State) (a : Nat) (b : Byte) : (writeByte s a b).pending = s.pending := rfl
@[simp] theorem writeByte_vco (s : State) (a : Nat) (b : Byte) : (writeByte s a b).vco = s.vco := rfl
@[simp] theorem writeByte_gtimeBase (s : State) (a : Nat) (b : Byte) : (writeByte s a b).gtimeBase = s.gtimeBase := rfl
@[simp] theorem writeByte_fresh (s : State) (a : Nat) (b : Byte) : (writeByte s a b).fresh = s.fresh := rfl
@[simp] theorem writeByte_tick (s : State) (a : Nat) (b : Byte) : (writeByte s a b).tick = s.tick := rfl
@[simp] theorem writeByte_regs (s : State) (a : Nat) (b : Byte) : (writeByte s a b).regs = s.regs := rfl
@[simp] theorem writeByte_undef (s : State) (a : Nat) (b : Byte) : (writeByte s a b).undef = s.undef := rfl
@[simp] theorem writeByte_ecc (s : State) (a : Nat) (b : Byte) : (writeByte s a b).ecc = s.ecc := rfl
@[simp] theorem writeByte_tiles (s : State) (a : Nat) (b : Byte) : (writeByte s a b).tiles = s.tiles := rfl
@[simp] theorem writeByte_dies (s : State) (a : Nat) (b : Byte) : (writeByte s a b).dies = s.dies := rfl
@[simp] theorem writeByte_stations (s : State) (a : Nat) (b : Byte) : (writeByte s a b).stations = s.stations := rfl
@[simp] theorem writeByte_ports (s : State) (a : Nat) (b : Byte) : (writeByte s a b).ports = s.ports := rfl
@[simp] theorem writeByte_m (s : State) (a : Nat) (b : Byte) : (writeByte s a b).m = s.m := rfl

/-! ### noteCount -/

@[simp] theorem noteCount_pending (s : State) (k : Nat) : (noteCount s k).pending = s.pending := rfl
@[simp] theorem noteCount_vco (s : State) (k : Nat) : (noteCount s k).vco = s.vco := rfl
@[simp] theorem noteCount_gtimeBase (s : State) (k : Nat) : (noteCount s k).gtimeBase = s.gtimeBase := rfl
@[simp] theorem noteCount_fresh (s : State) (k : Nat) : (noteCount s k).fresh = s.fresh := rfl
@[simp] theorem noteCount_regs (s : State) (k : Nat) : (noteCount s k).regs = s.regs := rfl
@[simp] theorem noteCount_cells (s : State) (k : Nat) : (noteCount s k).cells = s.cells := rfl
@[simp] theorem noteCount_undef (s : State) (k : Nat) : (noteCount s k).undef = s.undef := rfl
@[simp] theorem noteCount_ecc (s : State) (k : Nat) : (noteCount s k).ecc = s.ecc := rfl
@[simp] theorem noteCount_tiles (s : State) (k : Nat) : (noteCount s k).tiles = s.tiles := rfl
@[simp] theorem noteCount_dies (s : State) (k : Nat) : (noteCount s k).dies = s.dies := rfl
@[simp] theorem noteCount_stations (s : State) (k : Nat) : (noteCount s k).stations = s.stations := rfl
@[simp] theorem noteCount_ports (s : State) (k : Nat) : (noteCount s k).ports = s.ports := rfl
@[simp] theorem noteCount_m (s : State) (k : Nat) : (noteCount s k).m = s.m := rfl

/-! ### noteEvent -/

@[simp] theorem noteEvent_pending (s : State) (k : Nat) (w : Word) : (noteEvent s k w).pending = s.pending := rfl
@[simp] theorem noteEvent_vco (s : State) (k : Nat) (w : Word) : (noteEvent s k w).vco = s.vco := rfl
@[simp] theorem noteEvent_gtimeBase (s : State) (k : Nat) (w : Word) : (noteEvent s k w).gtimeBase = s.gtimeBase := rfl
@[simp] theorem noteEvent_fresh (s : State) (k : Nat) (w : Word) : (noteEvent s k w).fresh = s.fresh := rfl
@[simp] theorem noteEvent_regs (s : State) (k : Nat) (w : Word) : (noteEvent s k w).regs = s.regs := rfl
@[simp] theorem noteEvent_cells (s : State) (k : Nat) (w : Word) : (noteEvent s k w).cells = s.cells := rfl
@[simp] theorem noteEvent_undef (s : State) (k : Nat) (w : Word) : (noteEvent s k w).undef = s.undef := rfl
@[simp] theorem noteEvent_ecc (s : State) (k : Nat) (w : Word) : (noteEvent s k w).ecc = s.ecc := rfl
@[simp] theorem noteEvent_tiles (s : State) (k : Nat) (w : Word) : (noteEvent s k w).tiles = s.tiles := rfl
@[simp] theorem noteEvent_dies (s : State) (k : Nat) (w : Word) : (noteEvent s k w).dies = s.dies := rfl
@[simp] theorem noteEvent_stations (s : State) (k : Nat) (w : Word) : (noteEvent s k w).stations = s.stations := rfl
@[simp] theorem noteEvent_ports (s : State) (k : Nat) (w : Word) : (noteEvent s k w).ports = s.ports := rfl
@[simp] theorem noteEvent_m (s : State) (k : Nat) (w : Word) : (noteEvent s k w).m = s.m := rfl

/-! ### updColl -/

@[simp] theorem updColl_pending (s : State) (t : Nat) (f : Coll → Coll) : (updColl s t f).pending = s.pending := rfl
@[simp] theorem updColl_vco (s : State) (t : Nat) (f : Coll → Coll) : (updColl s t f).vco = s.vco := rfl
@[simp] theorem updColl_gtimeBase (s : State) (t : Nat) (f : Coll → Coll) : (updColl s t f).gtimeBase = s.gtimeBase := rfl
@[simp] theorem updColl_fresh (s : State) (t : Nat) (f : Coll → Coll) : (updColl s t f).fresh = s.fresh := rfl
@[simp] theorem updColl_regs (s : State) (t : Nat) (f : Coll → Coll) : (updColl s t f).regs = s.regs := rfl
@[simp] theorem updColl_tick (s : State) (t : Nat) (f : Coll → Coll) : (updColl s t f).tick = s.tick := rfl
@[simp] theorem updColl_cells (s : State) (t : Nat) (f : Coll → Coll) : (updColl s t f).cells = s.cells := rfl
@[simp] theorem updColl_undef (s : State) (t : Nat) (f : Coll → Coll) : (updColl s t f).undef = s.undef := rfl
@[simp] theorem updColl_ecc (s : State) (t : Nat) (f : Coll → Coll) : (updColl s t f).ecc = s.ecc := rfl
@[simp] theorem updColl_dies (s : State) (t : Nat) (f : Coll → Coll) : (updColl s t f).dies = s.dies := rfl
@[simp] theorem updColl_stations (s : State) (t : Nat) (f : Coll → Coll) : (updColl s t f).stations = s.stations := rfl
@[simp] theorem updColl_ports (s : State) (t : Nat) (f : Coll → Coll) : (updColl s t f).ports = s.ports := rfl
@[simp] theorem updColl_m (s : State) (t : Nat) (f : Coll → Coll) : (updColl s t f).m = s.m := rfl

/-! ### setSidings -/

@[simp] theorem setSidings_pending (s : State) (k : Nat) (g : Sidings) : (setSidings s k g).pending = s.pending := rfl
@[simp] theorem setSidings_vco (s : State) (k : Nat) (g : Sidings) : (setSidings s k g).vco = s.vco := rfl
@[simp] theorem setSidings_gtimeBase (s : State) (k : Nat) (g : Sidings) : (setSidings s k g).gtimeBase = s.gtimeBase := rfl
@[simp] theorem setSidings_fresh (s : State) (k : Nat) (g : Sidings) : (setSidings s k g).fresh = s.fresh := rfl
@[simp] theorem setSidings_regs (s : State) (k : Nat) (g : Sidings) : (setSidings s k g).regs = s.regs := rfl
@[simp] theorem setSidings_tick (s : State) (k : Nat) (g : Sidings) : (setSidings s k g).tick = s.tick := rfl
@[simp] theorem setSidings_cells (s : State) (k : Nat) (g : Sidings) : (setSidings s k g).cells = s.cells := rfl
@[simp] theorem setSidings_undef (s : State) (k : Nat) (g : Sidings) : (setSidings s k g).undef = s.undef := rfl
@[simp] theorem setSidings_ecc (s : State) (k : Nat) (g : Sidings) : (setSidings s k g).ecc = s.ecc := rfl
@[simp] theorem setSidings_tiles (s : State) (k : Nat) (g : Sidings) : (setSidings s k g).tiles = s.tiles := rfl
@[simp] theorem setSidings_dies (s : State) (k : Nat) (g : Sidings) : (setSidings s k g).dies = s.dies := rfl
@[simp] theorem setSidings_stations (s : State) (k : Nat) (g : Sidings) : (setSidings s k g).stations = s.stations := rfl
@[simp] theorem setSidings_ports (s : State) (k : Nat) (g : Sidings) : (setSidings s k g).ports = s.ports := rfl

/-! ### setWorm -/

@[simp] theorem setWorm_pending (s : State) (w : Worm) : (setWorm s w).pending = s.pending := rfl
@[simp] theorem setWorm_vco (s : State) (w : Worm) : (setWorm s w).vco = s.vco := rfl
@[simp] theorem setWorm_gtimeBase (s : State) (w : Worm) : (setWorm s w).gtimeBase = s.gtimeBase := rfl
@[simp] theorem setWorm_fresh (s : State) (w : Worm) : (setWorm s w).fresh = s.fresh := rfl
@[simp] theorem setWorm_regs (s : State) (w : Worm) : (setWorm s w).regs = s.regs := rfl
@[simp] theorem setWorm_tick (s : State) (w : Worm) : (setWorm s w).tick = s.tick := rfl
@[simp] theorem setWorm_cells (s : State) (w : Worm) : (setWorm s w).cells = s.cells := rfl
@[simp] theorem setWorm_undef (s : State) (w : Worm) : (setWorm s w).undef = s.undef := rfl
@[simp] theorem setWorm_ecc (s : State) (w : Worm) : (setWorm s w).ecc = s.ecc := rfl
@[simp] theorem setWorm_tiles (s : State) (w : Worm) : (setWorm s w).tiles = s.tiles := rfl
@[simp] theorem setWorm_dies (s : State) (w : Worm) : (setWorm s w).dies = s.dies := rfl
@[simp] theorem setWorm_stations (s : State) (w : Worm) : (setWorm s w).stations = s.stations := rfl
@[simp] theorem setWorm_ports (s : State) (w : Worm) : (setWorm s w).ports = s.ports := rfl

/-! ### setDrr -/

@[simp] theorem setDrr_pending (s : State) (n k : Nat) (d : Drr) : (setDrr s n k d).pending = s.pending := rfl
@[simp] theorem setDrr_vco (s : State) (n k : Nat) (d : Drr) : (setDrr s n k d).vco = s.vco := rfl
@[simp] theorem setDrr_gtimeBase (s : State) (n k : Nat) (d : Drr) : (setDrr s n k d).gtimeBase = s.gtimeBase := rfl
@[simp] theorem setDrr_fresh (s : State) (n k : Nat) (d : Drr) : (setDrr s n k d).fresh = s.fresh := rfl
@[simp] theorem setDrr_regs (s : State) (n k : Nat) (d : Drr) : (setDrr s n k d).regs = s.regs := rfl
@[simp] theorem setDrr_tick (s : State) (n k : Nat) (d : Drr) : (setDrr s n k d).tick = s.tick := rfl
@[simp] theorem setDrr_cells (s : State) (n k : Nat) (d : Drr) : (setDrr s n k d).cells = s.cells := rfl
@[simp] theorem setDrr_undef (s : State) (n k : Nat) (d : Drr) : (setDrr s n k d).undef = s.undef := rfl
@[simp] theorem setDrr_ecc (s : State) (n k : Nat) (d : Drr) : (setDrr s n k d).ecc = s.ecc := rfl
@[simp] theorem setDrr_tiles (s : State) (n k : Nat) (d : Drr) : (setDrr s n k d).tiles = s.tiles := rfl
@[simp] theorem setDrr_dies (s : State) (n k : Nat) (d : Drr) : (setDrr s n k d).dies = s.dies := rfl
@[simp] theorem setDrr_ports (s : State) (n k : Nat) (d : Drr) : (setDrr s n k d).ports = s.ports := rfl
@[simp] theorem setDrr_m (s : State) (n k : Nat) (d : Drr) : (setDrr s n k d).m = s.m := rfl

/-! ### Named parts -/

/-- A die just set reads as set. -/
@[simp] theorem dieOf_setDie_same (s : State) (d : Nat) (x : Die) : dieOf (setDie s d x) d = x := by simp [dieOf, setDie]

/-- Setting a die leaves every other die alone. -/
theorem dieOf_setDie_ne (s : State) {d e : Nat} (x : Die) (h : e ≠ d) : dieOf (setDie s d x) e = dieOf s e := spGet_spSet_ne _ _ _ _ h

/-- A tile just set reads as set. -/
@[simp] theorem tileOf_setTile_same (s : State) (t : Nat) (x : Tile) : tileOf (setTile s t x) t = x := by simp [tileOf, setTile]

/-- Setting a tile leaves every other tile alone. -/
theorem tileOf_setTile_ne (s : State) {t u : Nat} (x : Tile) (h : u ≠ t) : tileOf (setTile s t x) u = tileOf s u := spGet_spSet_ne _ _ _ _ h

/-- A tile just changed is the change of what it was. -/
@[simp] theorem tileOf_updTile_same (s : State) (t : Nat) (f : Tile → Tile) : tileOf (updTile s t f) t = f (tileOf s t) := by simp [updTile]

/-- Changing a tile leaves every other tile alone. -/
theorem tileOf_updTile_ne (s : State) {t u : Nat} (f : Tile → Tile) (h : u ≠ t) : tileOf (updTile s t f) u = tileOf s u := tileOf_setTile_ne s _ h

/-- A context just set reads as set. -/
@[simp] theorem ctxOf_setCtx_same (x : Tile) (c : CtxId) (y : Ctx) : (x.setCtx c y).ctxOf c = y := by simp [Tile.ctxOf, Tile.setCtx]

/-- Setting a context leaves every other context alone. -/
theorem ctxOf_setCtx_ne (x : Tile) {c e : CtxId} (y : Ctx) (h : e ≠ c) : (x.setCtx c y).ctxOf e = x.ctxOf e :=
  spGet_spSet_ne _ _ _ _ (fun q => h (Fin.ext q))

/-- A partition just changed is the change of what it was. -/
@[simp] theorem partOf_updPart_same (s : State) (p : Nat) (f : Partition → Partition) : partOf (updPart s p f) p = f (partOf s p) := by
  simp [partOf, updPart, updM]

/-- Changing a partition leaves every other partition alone. -/
theorem partOf_updPart_ne (s : State) {p q : Nat} (f : Partition → Partition) (h : q ≠ p) : partOf (updPart s p f) q = partOf s q :=
  spGet_spSet_ne _ _ _ _ h

/-- A port just changed is the change of what it was. -/
@[simp] theorem portOf_updPort_same (s : State) (n : Nat) (f : Port → Port) : portOf (updPort s n f) n = f (portOf s n) := by
  simp [portOf, updPort]

/-- Changing a port leaves every other port alone. -/
theorem portOf_updPort_ne (s : State) {n k : Nat} (f : Port → Port) (h : k ≠ n) : portOf (updPort s n f) k = portOf s k :=
  spGet_spSet_ne _ _ _ _ h

/-- A station die just changed is the change of what it was. -/
@[simp] theorem stationOf_updStation_same (s : State) (n : Nat) (f : Station → Station) : stationOf (updStation s n f) n = f (stationOf s n) := by
  simp [stationOf, updStation]

/-- Changing a station die leaves every other one alone. -/
theorem stationOf_updStation_ne (s : State) {n k : Nat} (f : Station → Station) (h : k ≠ n) :
    stationOf (updStation s n f) k = stationOf s k := spGet_spSet_ne _ _ _ _ h

/-- Sidings just set read as set. -/
@[simp] theorem sidingsAt_setSidings_same (s : State) (k : Nat) (g : Sidings) : sidingsAt (setSidings s k g) k = g := by
  simp [sidingsAt, setSidings, updM]

/-- Setting the sidings of a port leaves those of every other port alone. -/
theorem sidingsAt_setSidings_ne (s : State) {k j : Nat} (g : Sidings) (h : j ≠ k) : sidingsAt (setSidings s k g) j = sidingsAt s j :=
  spGet_spSet_ne _ _ _ _ h

/-- An arbiter just set reads as set. -/
@[simp] theorem drrOf_setDrr_same (s : State) (n k : Nat) (d : Drr) : drrOf (setDrr s n k d) n k = d := by simp [drrOf, setDrr]

/-! ### Events and counts within a cycle -/

/-- Within one cycle the record of it is the one that stands. -/
theorem ticks_of_cycle (s : State) (h : s.tick.cycle = uclk s) : s.ticks = s.tick := by simp [State.ticks, h]

/-- A new cycle starts with nothing noted. -/
theorem ticks_of_new (s : State) (h : s.tick.cycle ≠ uclk s) : s.ticks = ⟨uclk s, [], [], [], none, none, []⟩ := by simp [State.ticks, h]

/-- The record of the cycle under way is of that cycle. -/
@[simp] theorem ticks_cycle (s : State) : s.ticks.cycle = uclk s := by
  unfold State.ticks; split
  · assumption
  · rfl

/-! ### Registers -/

/-- A register just written reads as written. -/
@[simp] theorem rd_wr_same (s : State) (k : Nat) (w : Word) : rd (wr s k w) k = w := by simp [rd, wr]

/-- Writing a register leaves every other register alone. -/
theorem rd_wr_ne (s : State) {k j : Nat} (w : Word) (h : j ≠ k) : rd (wr s k w) j = rd s j := spGet_spSet_ne _ _ _ _ h

/-- Storing a field leaves every other register alone. -/
theorem rd_setFld_ne (s : State) {k j : Nat} (hi lo v : Nat) (h : j ≠ k) : rd (setFld s k hi lo v) j = rd s j := rd_wr_ne s _ h

/-- A bit of a replaced field. -/
theorem getLsbD_putBits (w : Word) (hi lo v i : Nat) (h : lo ≤ hi) (h' : hi < 64) :
    (putBits w hi lo v).getLsbD i = if lo ≤ i ∧ i ≤ hi then v.testBit (i - lo) else w.getLsbD i := by
  have m : (BitVec.ofNat 64 (2 ^ (hi + 1 - lo) - 1) <<< lo).getLsbD i = decide (lo ≤ i ∧ i ≤ hi) := by
    simp only [BitVec.getLsbD_shiftLeft, BitVec.getLsbD_ofNat, Nat.testBit_two_pow_sub_one]
    by_cases a : lo ≤ i <;> by_cases b : i ≤ hi <;> simp [a, b] <;> omega
  simp only [putBits, BitVec.getLsbD_or, BitVec.getLsbD_and, BitVec.getLsbD_not, m]
  by_cases c : lo ≤ i ∧ i ≤ hi
  · obtain ⟨a, b⟩ := c
    simp only [a, b, and_self, decide_true, if_true, Bool.not_true, Bool.and_false, Bool.false_or, Bool.and_true,
      BitVec.getLsbD_shiftLeft, BitVec.getLsbD_ofNat]
    simp [show ¬ i < lo by omega, show i < 64 by omega, show i - lo < 64 by omega]
  · simp only [c, decide_false, Bool.not_false, Bool.and_true, Bool.and_false, Bool.or_false, if_false]
    by_cases d : i < 64
    · simp [d]
    · simp [d, BitVec.getLsbD_of_ge w i (by omega)]

/-- A replaced field reads as the low bits of the value. -/
theorem bits_putBits_same (w : Word) (hi lo v : Nat) (h : lo ≤ hi) (h' : hi < 64) : bits (putBits w hi lo v) hi lo = v % 2 ^ (hi + 1 - lo) := by
  apply Nat.eq_of_testBit_eq
  intro j
  simp only [bits, Nat.testBit_mod_two_pow, Nat.testBit_shiftRight]
  by_cases q : j < hi + 1 - lo
  · have e := getLsbD_putBits w hi lo v (lo + j) h h'
    rw [if_pos (by omega), show lo + j - lo = j by omega] at e
    simp only [q, decide_true, Bool.true_and]
    exact e
  · simp [q]

/-- A replaced field leaves a field apart from it alone. -/
theorem bits_putBits_apart (w : Word) (hi lo v hi' lo' : Nat) (h : lo ≤ hi) (h' : hi < 64) (a : hi' < lo ∨ hi < lo') :
    bits (putBits w hi lo v) hi' lo' = bits w hi' lo' := by
  apply Nat.eq_of_testBit_eq
  intro j
  simp only [bits, Nat.testBit_mod_two_pow, Nat.testBit_shiftRight]
  by_cases q : j < hi' + 1 - lo'
  · have e := getLsbD_putBits w hi lo v (lo' + j) h h'
    rw [if_neg (by omega)] at e
    simp only [q, decide_true, Bool.true_and]
    exact e
  · simp [q]

/-- A field just stored reads as the low bits of the value. -/
theorem fld_setFld_same (s : State) (k hi lo v : Nat) (h : lo ≤ hi) (h' : hi < 64) : fld (setFld s k hi lo v) k hi lo = v % 2 ^ (hi + 1 - lo) := by
  simp only [fld, setFld, rd_wr_same]; exact bits_putBits_same _ _ _ _ h h'

/-- Storing a field leaves a field apart from it alone. -/
theorem fld_setFld_apart (s : State) (k hi lo v hi' lo' : Nat) (h : lo ≤ hi) (h' : hi < 64) (a : hi' < lo ∨ hi < lo') :
    fld (setFld s k hi lo v) k hi' lo' = fld s k hi' lo' := by
  simp only [fld, setFld, rd_wr_same]; exact bits_putBits_apart _ _ _ _ _ _ h h' a

/-- Storing a field leaves the fields of every other register alone. -/
theorem fld_setFld_ne (s : State) {k j : Nat} (hi lo v hi' lo' : Nat) (h : j ≠ k) : fld (setFld s k hi lo v) j hi' lo' = fld s j hi' lo' := by
  simp only [fld, rd_setFld_ne s hi lo v h]

end Sys2Proof.Laws
end

