-- ==== Sys2Proof/Laws/Core.lean ====
section
/-!
SUPPORT. The core's shared operations: what an issue, the accounting of its cycle and the end of an instruction do.
-/

namespace Sys2Proof.Laws

open Sys2Proof.Machine

/-! ### The check of a word without an error -/

/-- Words that have no error mark check clean and change nothing. -/
theorem eccCheckAt_clean (s : State) (t : Nat) (who : Option CtxId) (r : Region) (offs : List Nat)
    (h : offs.all (fun o => (eccMark s t who o).isNone) = true) : eccCheckAt s t who r offs = (s, false) := by
  simp only [eccCheckAt]
  split
  · rfl
  · induction offs with
    | nil => rfl
    | cons o l ih =>
      simp only [List.all_cons, Bool.and_eq_true, Option.isNone_iff_eq_none] at h
      simp only [List.foldl_cons, h.1]
      exact ih h.2

/-- What an issue does when nothing holds it back: its action, for the issuer that its context and index name. -/
theorem issue_of_issues (s : State) (t : TileId) (regs : List (BitVec 5)) (act : Issuer → State → State) (h : issues s t regs = true) :
    issue s t true regs act = act (issuerOf s t) s := by
  simp only [issues, Bool.and_eq_true, decide_eq_true_eq, Bool.not_eq_true'] at h
  obtain ⟨⟨⟨hc, hp⟩, he⟩, hr⟩ := h
  have e := eccCheckAt_clean s t none .ist _ he
  simp only [issue, hc, if_true, eccCheck]
  rw [if_neg (by simp only [selCtx] at hp; omega)]
  simp only [selCtx] at e
  simp only [e, hr, Bool.false_eq_true, if_false]
  rfl

/-- An instruction that breaks its format faults ILLEGAL where it would issue. -/
theorem issue_illegal (s : State) (t : TileId) (regs : List (BitVec 5)) (act : Issuer → State → State) (h : issues s t regs = true) :
    issue s t false regs act = faultCtx s t (tileOf s t).sel 0x10 (selCtx s t).pc := by
  simp only [issues, Bool.and_eq_true, decide_eq_true_eq, Bool.not_eq_true'] at h
  obtain ⟨⟨⟨hc, hp⟩, he⟩, hr⟩ := h
  have e := eccCheckAt_clean s t none .ist _ he
  simp only [issue, hc, if_true, eccCheck]
  rw [if_neg (by simp only [selCtx] at hp; omega)]
  simp only [selCtx] at e
  simp only [e, Bool.false_eq_true, if_false]
  rfl

/-! ### Accounting -/

/-- Adding to a stall counter changes the registers alone. -/
theorem addStallCnt_eq (s : State) (t : Nat) (c : Fin 16) (n : Nat) : addStallCnt s t c n = { s with regs := (addStallCnt s t c n).regs } := rfl

/-- Adding to a stall counter leaves every other register alone. -/
theorem rd_addStallCnt (s : State) (t : Nat) (c : Fin 16) (n : Nat) : sameRegs s (addStallCnt s t c n) t :=
  fun _ h => rd_setFld_ne s 63 0 _ (h _ c.isLt)

/-- What leaves everything but registers alone, and of those all but a tile's stall counters. -/
def OnlyStalls (s s' : State) (t : Nat) : Prop := s' = { s with regs := s'.regs } ∧ sameRegs s s' t

theorem OnlyStalls.refl (s : State) (t : Nat) : OnlyStalls s s t := ⟨rfl, fun _ _ => rfl⟩

theorem OnlyStalls.trans {a b c : State} {t : Nat} (x : OnlyStalls a b t) (y : OnlyStalls b c t) : OnlyStalls a c t :=
  ⟨by rw [y.1, x.1], fun k h => (y.2 k h).trans (x.2 k h)⟩

theorem addStallCnt_frame (s : State) (t : Nat) (c : Fin 16) (n : Nat) : OnlyStalls s (addStallCnt s t c n) t :=
  ⟨addStallCnt_eq s t c n, rd_addStallCnt s t c n⟩

/-- What adding to a stall cause leaves alone: all but the registers, and of those all but the tile's stall counters. -/
theorem addStall_frame (s : State) (t : Nat) (c : Fin 16) (n d : Nat) : OnlyStalls s (addStall s t c n d) t := by
  simp only [addStall]
  split
  · exact .refl s t
  · split
    · exact addStallCnt_frame s t c _
    · exact (addStallCnt_frame s t c _).trans (addStallCnt_frame _ t causePower _)

/-- The same for a stretched clock. -/
theorem addStretch_frame (s : State) (t n : Nat) : OnlyStalls s (addStretch s t n) t := by
  simp only [addStretch]
  split
  · exact .refl s t
  · exact addStallCnt_frame s t causePower _

/-- The same for the causes of a wait on the lower tiers. -/
theorem addTiers_frame (t start n d t0 : Nat) :
    ∀ (l : List (Nat × Fin 16)) (s : State) (done : Nat), OnlyStalls s (addTiers s t start n d t0 l done) t := by
  intro l
  induction l with
  | nil => exact fun s done => addStall_frame s t _ _ d
  | cons x l ih => exact fun s done => (addStall_frame s t _ _ d).trans (ih _ _)

/-- The same for a cause that may change with time. -/
theorem addCause_frame (s : State) (t : Nat) (c : Cause) (start n d : Nat) : OnlyStalls s (addCause s t c start n d) t := by
  simp only [addCause]
  split
  · exact addStall_frame s t _ n d
  · exact addTiers_frame t start n d _ tierSteps s 0

/-- What accounting changes: a tile's `stallAt`, `cycles`, `issuedAt`, `cause` and `t1`, and its stall counters. -/
structure Accounted (s s' : State) (t : Nat) : Prop where
  rest : s' = { s with regs := s'.regs, tiles := s'.tiles }
  regs : sameRegs s s' t
  others : ∀ u, u ≠ t → tileOf s' u = tileOf s u
  tile : tileOf s' t = { tileOf s t with
    stallAt := (tileOf s' t).stallAt, cycles := (tileOf s' t).cycles, issuedAt := (tileOf s' t).issuedAt
    cause := (tileOf s' t).cause, t1 := (tileOf s' t).t1 }

theorem Accounted.refl (s : State) (t : Nat) : Accounted s s t := ⟨rfl, fun _ _ => rfl, fun _ _ => rfl, rfl⟩

theorem Accounted.trans {a b c : State} {t : Nat} (x : Accounted a b t) (y : Accounted b c t) : Accounted a c t where
  rest := by rw [y.rest, x.rest]
  regs := fun k h => (y.regs k h).trans (x.regs k h)
  others := fun u h => (y.others u h).trans (x.others u h)
  tile := by rw [y.tile, x.tile]

/-- A change of nothing but the accounting fields of a tile is accounting. -/
theorem accounted_updTile (s : State) (t : Nat) (f : Tile → Tile)
    (h : ∀ x, f x = { x with
      stallAt := (f x).stallAt, cycles := (f x).cycles, issuedAt := (f x).issuedAt, cause := (f x).cause, t1 := (f x).t1 }) :
    Accounted s (updTile s t f) t where
  rest := rfl
  regs := fun _ _ => rfl
  others := fun u q => tileOf_updTile_ne s f q
  tile := by rw [tileOf_updTile_same]; exact h _

/-- A change of nothing but a tile's stall counters is accounting. -/
theorem accounted_regs {s s' : State} {t : Nat} (h : OnlyStalls s s' t) : Accounted s s' t where
  rest := by rw [h.1]
  regs := h.2
  others := fun u _ => by rw [h.1]; rfl
  tile := by rw [h.1]; rfl

/-- Charging is accounting. -/
theorem charge_accounted (s : State) (t : Nat) : Accounted s (charge s t) t := by
  simp only [charge]
  split
  · exact .refl s t
  · split
    · exact (accounted_regs (addStretch_frame _ _ _)).trans (accounted_updTile _ _ _ (fun _ => rfl))
    · exact (accounted_regs (addCause_frame _ _ _ _ _ _)).trans (accounted_updTile _ _ _ (fun _ => rfl))

/-- Changing the cause is accounting. -/
theorem setCause_accounted (s : State) (t : Nat) (c : Cause) : Accounted s (setCause s t c) t :=
  (charge_accounted s t).trans (accounted_updTile _ _ _ (fun _ => rfl))

/-- The cycle of an issue is accounting. -/
theorem issueCycle_accounted (s : State) (t : Nat) : Accounted s (issueCycle s t) t := by
  simp only [issueCycle]
  split
  · exact ((charge_accounted s t).trans (accounted_regs (addStall_frame _ _ _ _ _))).trans
      (accounted_updTile _ _ _ (fun _ => rfl))
  · exact charge_accounted s t

/-! ### The end of an instruction -/

/-- What `retire` does: the issuing context is changed and goes on at its target, and besides there is only accounting. -/
theorem retire_spec (s : State) (t : TileId) (target : Int) (f : Ctx → Ctx) :
    let s' := retire s t (issuerOf s t) target f
    issuerIn s s' t = { f (selCtx s t) with pc := target } ∧ coreFrame s s' t := by
  have a := issueCycle_accounted s t
  have hc : ∀ c, (tileOf (issueCycle s t) t).ctxOf c = (tileOf s t).ctxOf c := fun c => by rw [a.tile]; rfl
  refine ⟨?_, ⟨?_, ?_, ?_, ?_⟩⟩
  · simp only [issuerIn, retire, updCtx, tileOf_updTile_same, ctxOf_setCtx_same, issuerOf, hc, selCtx]
  · refine ⟨?_, ?_, ?_, ?_, ?_, ?_, ?_, ?_, ?_, fun u q => ?_⟩
    case refine_10 => simp only [retire, updCtx]; rw [tileOf_updTile_ne _ _ q]; exact a.others u q
    all_goals simp only [retire, updCtx, updTile, setTile]; rw [a.rest]
  · refine ⟨?_, fun j => ?_⟩
    · simp only [retire, updCtx, updTile, setTile]; rw [a.rest]
    · simp only [readByte, retire, updCtx, updTile, setTile]; rw [a.rest]
  · exact a.regs
  · refine ⟨?_, fun c q => ?_⟩
    · simp only [retire, updCtx, tileOf_updTile_same, Tile.setCtx]; rw [a.tile]
    · simp only [retire, updCtx, tileOf_updTile_same, issuerOf]; rw [ctxOf_setCtx_ne _ _ q]; exact hc c

end Sys2Proof.Laws
end

