-- ==== Sys2Proof/Laws/Crypto.lean ====
section
/-!
SUPPORT. The lengths of what the hashes give: 32 bytes of SHA-256 and HMAC-SHA-256, 16 of a tag.
-/

namespace Sys2Proof.Laws

open Sys2Proof.Machine

/-- A number has as many little-endian bytes as asked for. -/
@[simp] theorem leBytes_length (n v : Nat) : (leBytes n v).length = n := by
  induction n generalizing v with
  | zero => rfl
  | succ n ih => simp [leBytes, ih]

/-- A number has as many big-endian bytes as asked for. -/
@[simp] theorem beBytes_length (n v : Nat) : (beBytes n v).length = n := by simp [beBytes]

/-- A round keeps the number of working words. -/
@[simp] theorem shaRound_length (h : List Lane) (k w : Lane) : (shaRound h k w).length = h.length := by
  unfold shaRound
  split <;> rfl

/-- Rounds keep the number of working words. -/
theorem rounds_length (l : List (Lane × Lane)) (h : List Lane) : (l.foldl (fun h p => shaRound h p.1 p.2) h).length = h.length := by
  induction l generalizing h with
  | nil => rfl
  | cons p l ih => simp [ih]

/-- A block keeps the number of words of the hash. -/
@[simp] theorem shaBlock_length (h : List Lane) (b : List Byte) : (shaBlock h b).length = h.length := by
  simp [shaBlock, rounds_length]

/-- Blocks keep the number of words of the hash. -/
@[simp] theorem shaBlocks_length (n : Nat) (h : List Lane) (bs : List Byte) : (shaBlocks n h bs).length = h.length := by
  induction n generalizing h bs with
  | zero => rfl
  | succ n ih => simp [shaBlocks, ih]

/-- SHA-256 gives 32 bytes. -/
@[simp] theorem sha256_length (bs : List Byte) : (sha256 bs).length = 32 := by
  have four (l : List Lane) : (l.flatMap (fun w => beBytes 4 w.toNat)).length = 4 * l.length := by
    induction l with
    | nil => rfl
    | cons w l ih => simp only [List.flatMap_cons, List.length_append, beBytes_length, List.length_cons, ih]; omega
  simp only [sha256, four, shaBlocks_length]
  rfl

/-- HMAC-SHA-256 gives 32 bytes. -/
@[simp] theorem hmac256_length (key msg : List Byte) : (hmac256 key msg).length = 32 := by simp [hmac256]

/-- A tag has 16 bytes. -/
@[simp] theorem tagOf_length (s : State) (msg : List Byte) : (tagOf s msg).length = 16 := by simp [tagOf]

/-- The hash of the defect map has 32 bytes. -/
@[simp] theorem mapHash_length (s : State) (without : List Nat) : (mapHash s without).length = 32 := by simp [mapHash]

end Sys2Proof.Laws
end

