-- ==== Sys2Proof/Laws/Routes.lean ====
section
/-!
SUPPORT. Route tables lie apart from DIE_STATE: what installs routes leaves every die as open or closed as it was, and tables that no live die
uses are valid.
-/

namespace Sys2Proof.Laws

open Sys2Proof.Machine

/-- What every single operation keeps, an operation for each element keeps. -/
theorem forEach_keeps {α : Type} (P : State → Prop) (f : State → α → State) :
    ∀ (l : List α) (s : State), (∀ s x, x ∈ l → P s → P (f s x)) → P s → P (forEach l s f) := by
  intro l
  induction l with
  | nil => exact fun s _ h => h
  | cons x l ih =>
    intro s hf h
    exact ih (f s x) (fun s y hy => hf s y (List.mem_cons_of_mem _ hy)) (hf s x List.mem_cons_self h)

/-- A die's register block lies at its offset modulo 8 MiB. -/
theorem dieReg_mod (d off : Nat) (h : off < 2 ^ 23) : dieReg d off % 2 ^ 23 = off := by
  unfold dieReg dieBlockAddr stationAddr
  split <;> omega

/-- A word of a route table is not DIE_STATE. -/
theorem dieState_ne_route (e d g w : Nat) (pl : Plane) (hg : g ≤ 1) (hw : w ≤ 7) : dieStateReg e ≠ routeKey d g pl w := by
  intro h
  have h1 : dieStateReg e % 2 ^ 23 = 0x10000 + 0xF000 := dieReg_mod e _ (by omega)
  have hp : planeNum pl ≤ 1 := by cases pl <;> decide
  have h2 : routeKey d g pl w % 2 ^ 23 = 0x1000 + (0x100 + 0x80 * g + 0x40 * planeNum pl + 8 * w) := dieReg_mod d _ (by omega)
  rw [h, h2] at h1
  omega

/-- Every die is as open or closed as in another state. -/
def sameDieStates (s0 s : State) : Prop := ∀ e, rd s (dieStateReg e) = rd s0 (dieStateReg e)

theorem sameDieStates_route {s0 s : State} (d g : Nat) (pl : Plane) (w : Nat) (v : Word) (hg : g ≤ 1) (hw : w ≤ 7) (h : sameDieStates s0 s) :
    sameDieStates s0 (wr s (routeKey d g pl w) v) := by
  intro e
  rw [rd_wr_ne s v (dieState_ne_route e d g w pl hg hw)]
  exact h e

theorem sameDieStates_put {s0 s : State} (d g : Nat) (pl : Plane) (dst v : Nat) (hg : g ≤ 1) (hd : dst < 64) (h : sameDieStates s0 s) :
    sameDieStates s0 (putRoute s d g pl dst v) := sameDieStates_route d g pl _ _ hg (by omega) h

/-- Installing routes leaves the dies as open or closed as they were. -/
theorem mergeRoutes_dieStates (s : State) (p g : Nat) (ro : List Byte) (hg : g ≤ 1) : sameDieStates s (mergeRoutes s p g ro) := by
  have lt40 : ∀ d, partHolds s p d = true → d < 40 := by
    intro d h
    simp only [partHolds, decide_eq_true_eq] at h
    exact h.2.1
  have zlt : ∀ x : Nat × Nat, x ∈ List.zip (List.range (diesOfPart s p).length) (diesOfPart s p) → x.2 < 40 := by
    intro x hx
    have := (List.of_mem_zip hx).2
    simp only [diesOfPart, List.mem_filter, List.mem_range] at this
    exact this.1
  unfold mergeRoutes
  refine forEach_keeps _ _ _ _ (fun s1 k _ h1 => ?_) (forEach_keeps _ _ _ _ (fun s1 x _ h1 => ?_) (forEach_keeps _ _ _ _ (fun s1 d _ h1 => ?_) (fun e => rfl)))
  · refine forEach_keeps _ _ _ _ (fun s2 pl _ h2 => ?_) h1
    refine forEach_keeps _ _ _ _ (fun s3 x hx h3 => ?_) (forEach_keeps _ _ _ _ (fun s3 d hd h3 => ?_) (forEach_keeps _ _ _ _ (fun s3 j hj h3 => ?_) h2))
    · split
      · exact h3
      · exact sameDieStates_put _ _ _ _ _ hg (by have := zlt x hx; omega) h3
    · exact sameDieStates_put _ _ _ _ _ hg (by have := List.mem_range.mp (List.mem_filter.mp hd).1; omega) h3
    · exact sameDieStates_put _ _ _ _ _ hg (by have := List.mem_range.mp hj; omega) h3
  · split
    · exact h1
    · refine forEach_keeps _ _ _ _ (fun s2 pl _ h2 => ?_) h1
      exact forEach_keeps _ _ _ _ (fun s3 j hj h3 => sameDieStates_put _ _ _ _ _ hg (by have := List.mem_range.mp hj; omega) h3) h2
  · refine forEach_keeps _ _ _ _ (fun s2 pl _ h2 => ?_) h1
    exact forEach_keeps _ _ _ _ (fun s3 w hw h3 => sameDieStates_route _ _ _ _ _ hg (by have := List.mem_range.mp hw; omega) h3) h2

/-- Waking clusters leaves DIE_STATE alone. -/
theorem wakePart_dieStates (s : State) (p : Nat) : sameDieStates s (wakePart s p) := by
  unfold wakePart
  refine forEach_keeps _ _ _ _ (fun s1 d _ h1 => ?_) (fun e => rfl)
  refine forEach_keeps _ _ _ _ (fun s2 c _ h2 => ?_) h1
  split
  · exact h2
  · exact h2

/-- Letting time pass leaves DIE_STATE alone. -/
theorem waitUntil_dieStates (s : State) (ns : Nat) : sameDieStates s (waitUntil s ns) := by
  intro e
  unfold waitUntil waitVco
  split <;> rfl

/-- A generation that no open die uses is valid. -/
theorem validate_closed (s : State) (g : Nat) (h : ∀ d, d < 48 → dieClosed s d = true) : (validate s g).ok = true := by
  have hl : liveSources s = [] := by
    unfold liveSources
    rw [List.filter_eq_nil_iff]
    intro d hd
    simp [h d (List.mem_range.mp hd)]
  have hp : sourcePairs s = [] := by unfold sourcePairs; rw [hl]; rfl
  unfold validate firstBad
  rw [hp]
  rfl

/-- Whether a die is closed depends on DIE_STATE alone. -/
theorem dieClosed_congr {s0 s : State} (d : Nat) (h : sameDieStates s0 s) : dieClosed s d = dieClosed s0 d := by
  unfold dieClosed fld
  rw [h d]

end Sys2Proof.Laws
end

