-- ==== Sys2Proof/WellFormed.lean ====
section
/-!
DEFINITION. Which commands are well formed: the sizes and the encodings that the spec gives their operands.

A command that is not well formed spells nothing that can happen (a packet whose bytes do not fit its own header, a
sample of the wrong number of sensors); exec gives it the meaning that its operands have all the same, and no statement is about it.
-/

namespace Sys2Proof

/-- The assigned packet types (Table 6.2). -/
def Packet.typeOk (p : Packet) : Bool := decide (p.type.toNat ≤ 5 ∨ (8 ≤ p.type.toNat ∧ p.type.toNat ≤ 0xB))

/-- The bytes a packet carries against PL64, TAILB and INLEN (Table 6.1): a packet of PL64 payload flits carries 64 × PL64 bytes
less the unused bytes of its last flit, which are TAILB valid ones or 64 for 0; a packet of no payload flit carries INLEN inline bytes, at
most 32. -/
def Packet.sizeOk (p : Packet) : Bool :=
  if p.pl64.toNat = 0 then decide (p.data.length = p.inlen.toNat ∧ p.inlen.toNat ≤ 32)
  else decide (p.inlen = 0 ∧ p.data.length = 64 * (p.pl64.toNat - 1) + (if p.tailb.toNat = 0 then 64 else p.tailb.toNat))

/-- A well-formed packet. -/
def Packet.wf (p : Packet) : Bool := p.typeOk && p.sizeOk

/-- A packet of one type. -/
def Packet.isType (p : Packet) (ty : Nat) : Bool := p.wf && decide (p.type.toNat = ty)

/-- How many cluster sensors a die's sample has: one per cluster of a compute die (R338). -/
def clusterSensors (d : DieId) : Nat := if d.val < 40 then 16 else 0

/-- A device read's answer carries at most 4,096 bytes (Table 9.1). -/
def HostReadResult.wf : HostReadResult → Bool
  | .data bytes => decide (bytes.length ≤ 4096)
  | _ => true

/-- Whether a command's operands have the sizes and types the spec gives them. -/
def Instr.wf : Instr → Bool
  | .write p => p.isType 0
  | .readReq p => p.isType 1
  | .readResp p => p.isType 2
  | .ack p => p.isType 3
  | .nak p => p.isType 4
  | .cntInc p => p.isType 5
  | .rdOpen _ _ p => p.isType 8
  | .rdData _ _ p => p.isType 9
  | .bcGrant p => p.isType 0xB
  | .bcData _ p => p.isType 0xA
  | .packetRoute _ _ p => p.wf
  | .dieBlockAccess p => p.wf
  | .peatReadReq p => p.isType 1
  | .peatWrite p => p.isType 0
  | .outletRdOpen _ p => p.isType 8
  | .hostMemoryRead _ p r => p.isType 1 && r.wf
  | .hostMemoryWrite _ p => p.isType 0
  | .bar2Write _ _ data => decide (data ≠ [])
  | .governorTick pDie _ demand => decide (pDie.length = 48 ∧ demand.length = 48)
  | .thermalSample d sensors clusters => decide (sensors.length = 8 ∧ clusters.length = clusterSensors d)
  | .firmwareLoad copyOk _ => decide (copyOk.length = 2)
  | _ => true

end Sys2Proof
end

