-- ==== Sys2Proof/Tests/Slice0.lean ====
section
/-!
SUPPORT. Tests: ill-formed commands that WellFormed refuses, words decoded, single steps, and for every statement with hypotheses a state and
operands that meet them.
-/

namespace Sys2Proof.Tests

open Sys2Proof.Machine Sys2Proof.Laws

/-! ### Small states -/

/-- A module whose tile `t` has context 0 running. -/
def running (t : Nat) (f : Tile → Tile) : State :=
  setTile State.reset t (f { Tile.reset with ctx := [(0, { Ctx.reset with st := .running })], running := true })

/-- The same with scalar registers set. -/
def withX (t : Nat) (x : Sparse Word) : State :=
  setTile State.reset t { Tile.reset with ctx := [(0, { Ctx.reset with st := .running, x := x })], running := true }

/-! ### Witnesses of the statements: scalar instructions -/

theorem witness_front : ({ State.reset with pending := [.lampTrip, .powerLoss] } : State).pending = .lampTrip :: [.powerLoss] := by decide

theorem witness_idle : State.reset.pending = [] ∧ ∀ x ∈ State.reset.dies, x.2.powerQ = [] := by decide

theorem witness_encode : encodeWord (.vfma 0 ⟨4, 1, 2, 3, 2⟩) = some 0x4802044300000002 ∧ tileOfWord (.vfma 0 ⟨4, 1, 2, 3, 2⟩) = some 0 := by decide

theorem witness_decode : decodeWord 7 0x804014000000004C = some (.nwait 7 ⟨0, 5, 0, 0, 0x4C⟩) := by decide

theorem witness_scalar_s : (⟨1, 2, 3, 0, 0⟩ : IWord).c = 0 ∧ issues (withX 5 [(2, 7), (3, 9)]) 5 [1, 2, 3] = true := by decide

theorem witness_scalar_x0 : issues (withX 5 [(2, 7), (3, 9)]) 5 [0, 2, 3] = true := by decide

theorem witness_scalar_shift : issues (withX 5 [(2, 7)]) 5 [1, 2] = true ∧ (63 : BitVec 32).toNat < 64 ∧ 64 ≤ (64 : BitVec 32).toNat := by decide

theorem witness_li : (⟨1, 0, 0, 0, 0xFFFFFFFF⟩ : IWord).b = 0 ∧ issues (withX 5 []) 5 [1] = true := by decide

theorem witness_fetch_range :
    canIssue (running 5 (fun x => { x with ctx := [(0, { Ctx.reset with st := .running, pc := 8192 })] })) 5 = true
      ∧ 8192 ≤ (selCtx (running 5 (fun x => { x with ctx := [(0, { Ctx.reset with st := .running, pc := 8192 })] })) 5).pc := by decide

/-! ### Witnesses: loads, stores and banks -/

theorem witness_load : issues (withX 5 [(2, 64)]) 5 [1, 2] = true ∧ (tileOf (withX 5 [(2, 64)]) 5).core = none
    ∧ accessAddr (withX 5 [(2, 64)]) 5 ⟨1, 2, 0, 0, 8⟩ = 72 ∧ accessReady (withX 5 [(2, 64)]) 5 72 8 = true
    ∧ wordsClean (withX 5 [(2, 64)]) 5 0 72 8 = true ∧ keepBlocks (withX 5 [(2, 64)]) 5 72 8 = false := by decide

theorem witness_load_misaligned : accessAddr (withX 5 [(2, 64)]) 5 ⟨1, 2, 0, 0, 1⟩ % MemWidth.h.bytes ≠ 0 := by decide

theorem witness_load_addr : 0x800000 ≤ accessAddr (withX 5 [(2, 0x800000)]) 5 ⟨1, 2, 0, 0, 0⟩
    ∧ 0x640000 ≤ accessAddr (withX 5 [(2, 0x640000)]) 5 ⟨1, 2, 0, 0, 0⟩ ∧ accessAddr (withX 5 [(2, 0x63FFFE)]) 5 ⟨1, 2, 0, 0, 0⟩ + 2 ≤ 0x640000
    ∧ accessReady (withX 5 [(2, 0x63FFFC)]) 5 0x63FFFC 4 = true := by decide

theorem witness_load_register : accessAddr (withX 5 [(2, 0x7FFFF8)]) 5 ⟨1, 2, 0, 0, 0⟩ + 8 ≤ 0x800000 := by decide

theorem witness_store_keep : keepBlocks (wr (withX 5 [(2, 64)]) (keepReg 5 0) 0x10001000000) 5 64 8 = true
    ∧ issues (wr (withX 5 [(2, 64)]) (keepReg 5 0) 0x10001000000) 5 [2, 3] = true := by decide

theorem witness_store_istore : istoreOff (tileOf (withX 5 [(2, 0x700000)]) 5).sel 0 ≤ accessAddr (withX 5 [(2, 0x700000)]) 5 ⟨0, 2, 3, 0, 0⟩
    ∧ accessAddr (withX 5 [(2, 0x700000)]) 5 ⟨0, 2, 3, 0, 0⟩ + 8 ≤ istoreOff (tileOf (withX 5 [(2, 0x700000)]) 5).sel 8192 := by decide

/-- A bank with one request waiting for `n` CCLK. -/
def bankWith (n : Nat) (c : List BankReq) : State :=
  running 5 (fun x => { x with banks := [(1, ⟨[(n, ⟨.ni, 64, false, 0, false⟩)], c⟩)] })

theorem witness_bank : (∀ x ∈ (arbOf (bankWith 3 []) 5 1).waiting, x.2.who = .scrubber ∨ x.1 < 16) ∧ (arbOf (bankWith 3 []) 5 1).conflict = []
    ∧ (arbOf (bankWith 3 []) 5 1).waiting ≠ [] ∧ (arbOf (bankWith 3 [⟨.te, 64, true, 0, false⟩]) 5 1).conflict = ⟨.te, 64, true, 0, false⟩ :: []
    ∧ (arbOf (bankWith 16 []) 5 1).waiting = [(16, ⟨.ni, 64, false, 0, false⟩)] ∧ holdOf (bankWith 3 []) 5 1 = ⟨[], none⟩
    ∧ (arbOf (bankWith 3 (List.replicate 4 ⟨.te, 64, true, 0, false⟩)) 5 1).conflict.length = 4
    ∧ holdOf (running 5 (fun x => { x with holds := [(1, ⟨[], some ⟨.core, 64, false, 0, true⟩⟩)] })) 5 1 = ⟨[], some ⟨.core, 64, false, 0, true⟩⟩ := by decide

theorem witness_scrub : fld State.reset (tileReg 5 0x60) 15 0 ≠ 0 ∧ (tileOf State.reset 5).scrubRow < 3072
    ∧ (∀ n, n < 4 → bit (rd State.reset (keepReg 5 n)) 40 = false)
    ∧ (tileOf (running 5 (fun x => { x with scrMode := 16 })) 5).scrMode.getLsbD 4 = true
    ∧ fld (setFld State.reset (tileReg 5 0x60) 15 0 0) (tileReg 5 0x60) 15 0 = 0 := by decide

theorem witness_parked : bankBusy (bankWith 3 []) 5 (some (tileOf (bankWith 3 []) 5).sel) (accessAddr (bankWith 3 []) 5 ⟨1, 2, 0, 0, 64⟩) = true
    ∧ issues (bankWith 3 []) 5 [1, 2] = true := by decide

theorem witness_grant : (tileOf (running 5 (fun x => { x with core := some ⟨⟨0, 4, 0⟩, 64, .d, false, 7, none⟩ })) 5).core
      = some ⟨⟨0, 4, 0⟩, 64, .d, false, 7, none⟩
    ∧ wordsClean (running 5 (fun x => { x with core := some ⟨⟨0, 4, 0⟩, 64, .d, false, 7, none⟩ })) 5 0 64 8 = true
    ∧ keepBlocks (running 5 (fun x => { x with core := some ⟨⟨0, 4, 0⟩, 64, .d, false, 7, some 9⟩ })) 5 64 8 = false := by decide

/-! ### Witnesses: vector engine -/

/-- A tile whose VE queue holds one entry. -/
def veWith (e : VeEntry) : State := running 5 (fun x => { x with q := { x.q with ve := [e] } })

theorem witness_ve_issue : issues (withX 5 []) 5 (veScalars .add ⟨1, 2, 3, 0, 0⟩) = true ∧ (⟨1, 2, 3, 0, 0⟩ : IWord).extBits 31 25 = 0
    ∧ predFieldsOk .add ⟨1, 2, 3, 0, 0⟩ = true ∧ veFormatFault .add ⟨1, 2, 3, 0, 0⟩ = false ∧ pairFault .add ⟨1, 2, 3, 0, 0⟩ = false
    ∧ (tileOf (withX 5 []) 5).q.ve.length < 16 := by decide

theorem witness_ve_predicates : predBusy (tileOf (withX 5 []) 5) (tileOf (withX 5 []) 5).sel .sel ⟨1, 2, 3, 0, 1⟩ = false
    ∧ predBusy (tileOf (veWith ⟨⟨0, 0, 0⟩, .pset, ⟨1, 2, 0, 0, 0⟩, 0, 0, 0⟩) 5) 0 .pnot ⟨2, 1, 0, 0, 0⟩ = true
    ∧ issues (veWith ⟨⟨0, 0, 0⟩, .pset, ⟨1, 2, 0, 0, 0⟩, 0, 0, 0⟩) 5 (veScalars .pnot ⟨2, 1, 0, 0, 0⟩) = true
    ∧ predFieldsOk .pnot ⟨2, 1, 0, 0, 0⟩ = true := by decide

theorem witness_ve_full :
    16 ≤ (tileOf (running 5 (fun x => { x with q := { x.q with ve := List.replicate 16 ⟨⟨0, 0, 0⟩, .mov, ⟨0, 0, 0, 0, 0⟩, 0, 0, 0⟩ } })) 5).q.ve.length
    ∧ issues (running 5 (fun x => { x with q := { x.q with ve := List.replicate 16 ⟨⟨0, 0, 0⟩, .mov, ⟨0, 0, 0, 0, 0⟩, 0, 0, 0⟩ } })) 5 [] = true := by decide

theorem witness_ve_faults : (⟨1, 2, 3, 0, 0x80000000⟩ : IWord).extBits 31 25 ≠ 0 ∧ predFieldsOk .pset ⟨8, 2, 0, 0, 0⟩ = false
    ∧ veFormatFault .add ⟨1, 2, 3, 0, 0x10⟩ = true ∧ pairFault .twosum ⟨1, 2, 3, 0, 0⟩ = true ∧ veFormatFault .twosum ⟨1, 2, 3, 0, 0⟩ = false := by decide

theorem witness_ve_memory : accessAddr (withX 5 [(2, 256)]) 5 ⟨1, 2, 0, 0, 0⟩ % 256 = 0 ∧ accessAddr (withX 5 [(2, 256)]) 5 ⟨1, 2, 0, 0, 4⟩ % 256 ≠ 0
    ∧ 0x700000 ≤ accessAddr (withX 5 [(2, 0x73FF00)]) 5 ⟨1, 2, 0, 0, 0⟩ ∧ issues (withX 5 [(2, 256)]) 5 [2] = true := by decide

theorem witness_ve_ready :
    (tileOf (veWith ⟨⟨0, 0, 0⟩, .add, ⟨1, 2, 3, 0, 0⟩, 0, 0, 0⟩) 5).q.ve = ⟨⟨0, 0, 0⟩, .add, ⟨1, 2, 3, 0, 0⟩, 0, 0, 0⟩ :: []
    ∧ scopeOpen (veWith ⟨⟨0, 0, 0⟩, .add, ⟨1, 2, 3, 0, 0⟩, 0, 0, 0⟩) 5 = true
    ∧ veWaits (veWith ⟨⟨0, 0, 0⟩, .add, ⟨1, 2, 3, 0, 0⟩, 0, 0, 0⟩) 5 ⟨⟨0, 0, 0⟩, .add, ⟨1, 2, 3, 0, 0⟩, 0, 0, 0⟩ = false := by decide

theorem witness_ve_compare : (⟨1, 2, 3, 0, 0⟩ : IWord).d ≠ 0 ∧ scopeOpen (veWith ⟨⟨0, 0, 0⟩, .cmplt, ⟨1, 2, 3, 0, 0⟩, 0, 0, 0⟩) 5 = true := by decide

theorem witness_ve_ldv : wordsClean (veWith ⟨⟨0, 0, 0⟩, .ldv, ⟨1, 2, 0, 0, 0⟩, 0, 0, 0x5FFF00⟩) 5 0 0x5FFF00 256 = true
    ∧ veWaits (veWith ⟨⟨0, 0, 0⟩, .ldv, ⟨1, 2, 0, 0, 0⟩, 0, 0, 0x5FFF00⟩) 5 ⟨⟨0, 0, 0⟩, .ldv, ⟨1, 2, 0, 0, 0⟩, 0, 0, 0x5FFF00⟩ = false
    ∧ keepBlocks (veWith ⟨⟨0, 0, 0⟩, .stv, ⟨0, 2, 1, 0, 0⟩, 0, 0, 0x5FFF00⟩) 5 0x5FFF00 256 = false
    ∧ (veWith ⟨⟨0, 0, 0⟩, .stv, ⟨0, 2, 1, 0, 0⟩, 0, 0, 0x5FFF00⟩).ecc = [] := by decide

theorem witness_ve_none_active :
    let e : VeEntry := ⟨⟨0, 0, 0⟩, .redMax, ⟨1, 2, 0, 0, 1⟩, 0, 0, 0⟩
    (∀ k, k < 64 → activeAt (veWith e) 5 e k = false) ∧ (⟨1, 2, 0, 0, 0⟩ : IWord).sfmt = 0 := by decide

/-! ### Witnesses: tensor engine -/

/-- Word 0 of a 4 × 4 descriptor of a base and a format code. -/
def td44 (base fmt : Nat) : Word := BitVec.ofNat 64 (base + fmt * 2 ^ 23 + 4 * 2 ^ 27 + 4 * 2 ^ 34)

/-- Word 1 of a descriptor of stride 64. -/
def stride64 : Word := 64

/-- Tile 5 with a context whose td0 describes C, td1 and td2 operands of format 4 and td3 an FP32 destination, each 4 × 4. -/
def tensorState : State :=
  running 5 (fun x => { x with ctx := [(0, { Ctx.reset with st := .running, td :=
    [(0, td44 0x600000 2), (2, td44 256 4), (3, stride64), (4, td44 1024 4), (5, stride64), (6, td44 2048 2), (7, stride64)] })] })

theorem witness_te_issue : issues tensorState 5 [] = true
    ∧ mulFault false (tdNow tensorState 5 0) (tdNow tensorState 5 1) (tdNow tensorState 5 2) = none
    ∧ zeroFault (tdNow tensorState 5 0) = none ∧ storeFault (tdNow tensorState 5 0) (tdNow tensorState 5 3) = none
    ∧ mulFault true (tdNow tensorState 5 0) (tdNow tensorState 5 1) (tdNow tensorState 5 2) = some 0x12
    ∧ (tileOf tensorState 5).q.te.length < 16 := by decide

theorem witness_td : is3 7 = true ∧ is3 8 = false ∧ issues tensorState 5 [1, 2] = true := by decide

/-- The entry of an operation with the descriptors of `tensorState`. -/
def teEntryOf (op : TeOp) (a : TensorDesc) : TeEntry := ⟨⟨0, 0, 0⟩, op, tdNow tensorState 5 0, a, tdNow tensorState 5 2, 3, true⟩

/-- A tile that holds a token and one TE entry. -/
def teWith (e : TeEntry) : State :=
  setDie (running 5 (fun x => { x with q := { x.q with te := [e] } })) 0 { Die.reset with tokens := [5] }

theorem witness_te_ready : (tileOf (teWith (teEntryOf .tmul (tdNow tensorState 5 1))) 5).q.te = teEntryOf .tmul (tdNow tensorState 5 1) :: []
    ∧ holdsToken (teWith (teEntryOf .tmul (tdNow tensorState 5 1))) 5 = true
    ∧ scopeOpen (teWith (teEntryOf .tmul (tdNow tensorState 5 1))) 5 = true
    ∧ (tdNow tensorState 5 1).abm = false ∧ teFormatW (tdNow tensorState 5 2).fmt = false
    ∧ (List.range (tdNow tensorState 5 3).stored.1).all (fun r =>
        !(keepBlocks (teWith (teEntryOf .tstore (tdNow tensorState 5 3))) 5 ((tdNow tensorState 5 3).base + r * (tdNow tensorState 5 3).stride)
          (tdNow tensorState 5 3).stored.2)) = true := by decide

theorem witness_token : holdsToken (setDie (running 5 id) 0 { Die.reset with tokens := [5] }) 5 = true
    ∧ (tileOf (setDie (running 5 id) 0 { Die.reset with tokens := [5] }) 5).q.te = [] ∧ holdsToken State.reset 5 = false := by decide

theorem witness_te_done : (tileOf (running 5 (fun x => { x with q := { x.q with teExec := [⟨teEntryOf .tstore (tdNow tensorState 5 3), 0, 40⟩] } })) 5).q.teExec
      = [⟨teEntryOf .tstore (tdNow tensorState 5 3), 0, 40⟩]
    ∧ clockOn (running 5 id) 5 = true ∧ armedEntries (running 5 id) 5 = [] := by decide

/-! ### Witnesses: system instructions -/

/-- Tile 5 with context 0 running, context 2 READY. -/
def twoContexts : State :=
  running 5 (fun x => { x with ctx := [(0, { Ctx.reset with st := .running }), (2, { Ctx.reset with st := .ready, pc := 9 })] })

theorem witness_system : xForm ⟨0, 0, 0, 0, 0⟩ 0 ∧ issues twoContexts 5 [] = true ∧ nothingOutstanding twoContexts 5 = true
    ∧ nextReady (tileOf twoContexts 5) = some 2 ∧ ((tileOf twoContexts 5).ctxOf 2).st = .ready ∧ ((tileOf twoContexts 5).ctxOf 1).st = .idle
    ∧ xForm ⟨0, 0, 0, 0, 2⟩ 2 ∧ (∀ c, c ≠ (tileOf (withX 5 []) 5).sel → ((tileOf (withX 5 []) 5).ctxOf c).st ≠ .ready) := by
  simp only [xForm]; decide

theorem witness_end_waits : (tileOf (veWith ⟨⟨0, 0, 0⟩, .mov, ⟨0, 0, 0, 0, 0⟩, 0, 0, 0⟩) 5).q.ve.any
    (fun e => decide (e.by_.ctx = (tileOf (veWith ⟨⟨0, 0, 0⟩, .mov, ⟨0, 0, 0, 0, 0⟩, 0, 0, 0⟩) 5).sel)) = true := by decide

theorem witness_srd : xForm ⟨1, 0, 0, 0, 6⟩ 12 ∧ xForm ⟨1, 0, 0, 0, 4095⟩ 12 ∧ (6 : Nat) < (7 : BitVec 32).toNat := by simp only [xForm]; decide

theorem witness_nwait : (xNow (withX 5 []) 5 2).toNat % 2 ^ 32 ≤ cntOf (withX 5 []) 5 3
    ∧ cntOf (withX 5 [(2, 1)]) 5 3 < (xNow (withX 5 [(2, 1)]) 5 2).toNat % 2 ^ 32 ∧ issues (withX 5 [(2, 1)]) 5 [2] = true := by decide

theorem witness_fence : (tileOf (withX 5 []) 5).q.merge = [] ∧ doneBefore (tileOf (withX 5 []) 5) (maskUnits 15) 0 = true
    ∧ doneBefore (tileOf (veWith ⟨⟨0, 0, 0⟩, .mov, ⟨0, 0, 0, 0, 0⟩, 0, 0, 0⟩) 5) (maskUnits 0) 1 = false
    ∧ qCount (tileOf (veWith ⟨⟨0, 0, 0⟩, .mov, ⟨0, 0, 0, 0, 0⟩, 0, 0, 0⟩) 5) 1 0 = 1 ∧ (0x89 : BitVec 32).toNat = 1 + 1 * 128 + 8 := by decide

theorem witness_flags : (0x19 : BitVec 32).toNat = FlagEngine.ve.code + 3 * 8 ∧ doneBefore (tileOf (withX 5 []) 5) (engineUnits 5) 0 = true := by decide

theorem witness_epwait : ((tileOf (withX 5 []) 5).epSeq - (xNow (withX 5 []) 5 2).setWidth 32).toNat < 2 ^ 31
    ∧ 2 ^ 31 ≤ ((tileOf (withX 5 [(2, 1)]) 5).epSeq - (xNow (withX 5 [(2, 1)]) 5 2).setWidth 32).toNat := by decide

/-- Tile 5 waiting on a condition. -/
def waitingState (x : Wait) : State := running 5 (fun y => { y with ctx := [(0, { Ctx.reset with st := .waiting, wait := some x })] })

theorem witness_waiting : waitingOn (waitingState (.nwait 3 0 true)) 5 (.nwait 3 0 true) true
    ∧ waitingOn (waitingState (.nwait 3 1 true)) 5 (.nwait 3 1 true) false ∧ waitingOn (waitingState (.fence 0 0)) 5 (.fence 0 0) true
    ∧ waitingOn (waitingState (.flrd 1 4 0)) 5 (.flrd 1 4 0) true ∧ waitingOn (waitingState .endCtx) 5 .endCtx true
    ∧ waitingOn (waitingState (.epwait 0 4)) 5 (.epwait 0 4) true ∧ waitingOn (waitingState (.epwait 1 4)) 5 (.epwait 1 4) false := by
  simp only [waitingOn]; decide

theorem witness_fence_waits :
    waitingOn (running 5 (fun y => { y with ctx := [(0, { Ctx.reset with st := .waiting, wait := some (.fence 2 1) })]
                                            q := { y.q with ve := [⟨⟨0, 0, 0⟩, .mov, ⟨0, 0, 0, 0, 0⟩, 0, 0, 0⟩] } })) 5 (.fence 2 1) false := by
  simp only [waitingOn]; decide

theorem witness_watchdog : (tileOf (withX 5 []) 5).running = true ∧ (selCtx (withX 5 []) 5).st = .running
    ∧ pauses (tileOf (withX 5 []) 5).cause.code = false ∧ (tileOf State.reset 5).running = false
    ∧ partOfDie (wr State.reset (partReg 2 0) 1) 0 = some 2 := by decide

theorem witness_t1 : nothingOutstanding (withX 5 []) 5 = true ∧ (tileOf (withX 5 []) 5).core = none
    ∧ nothingOutstanding (veWith ⟨⟨0, 0, 0⟩, .mov, ⟨0, 0, 0, 0, 0⟩, 0, 0, 0⟩) 5 = false := by decide

/-! ### Witnesses: shunter -/

/-- A descriptor: a MOVE of `n` bytes from offset 0 to offset 4096 of tile 5, one row. -/
def moveDesc (n : Nat) : ShIssue := ⟨⟨0, 3, 0⟩, 0, 2, 64, BitVec.ofNat 64 (5 * 2 ^ 23), BitVec.ofNat 64 (5 * 2 ^ 23 + 4096), BitVec.ofNat 64 (n + 2 ^ 24), 0⟩

/-- Tile 5 of partition 0 with queues of the shunter. -/
def shState (f : Queues → Queues) : State := wr (running 5 (fun x => { x with q := f x.q })) (partReg 0 0) 1

theorem witness_sh_issue : issues (withX 5 [(2, 64)]) 5 [2] = true ∧ (tileOf (withX 5 [(2, 64)]) 5).q.sh = []
    ∧ wordsClean (withX 5 [(2, 64)]) 5 0 64 32 = true ∧ shOpen (withX 5 [(2, 64)]) 5 3 = true ∧ (shqOf (withX 5 [(2, 64)]) 5 3).length < 8
    ∧ shOpen (shState (fun q => { q with halted := 8 })) 5 3 = false
    ∧ 8 ≤ (shqOf (shState (fun q => { q with shq := [(3, List.replicate 8 (ShDesc.new (moveDesc 8)))] })) 5 3).length := by decide

theorem witness_sh_start : shqOf (shState (fun q => { q with shq := [(2, [ShDesc.new (moveDesc 8)])] })) 5 2 = [ShDesc.new (moveDesc 8)]
    ∧ shCheck (shState (fun q => { q with shq := [(2, [ShDesc.new (moveDesc 8)])] })) 5 (moveDesc 8) = none
    ∧ shCheck (shState (fun q => { q with shq := [(2, [ShDesc.new (moveDesc 0)])] })) 5 (moveDesc 0) = some 8
    ∧ scopeOpen (shState (fun q => { q with shq := [(2, [ShDesc.new (moveDesc 8)])] })) 5 = true := by decide

theorem witness_sh_move : LocalMove (shState (fun q => { q with shq := [(2, [{ ShDesc.new (moveDesc 8) with started := true }])] })) 5 2
    { ShDesc.new (moveDesc 8) with started := true } 0 4096 := by
  constructor <;> decide

theorem witness_sh_done : (ShDesc.finished { ShDesc.new (moveDesc 8) with started := true, row := 1 }) = true
    ∧ (ShDesc.finished (ShDesc.new (moveDesc 8))) = false ∧ armedEntries (shState id) 5 = [] := by decide

theorem witness_sh_merge : (tileOf (shState (fun q => { q with merge := [⟨2, .up, 4096, [1, 2], 0⟩] })) 5).q.merge = [⟨2, .up, 4096, [1, 2], 0⟩] := by
  decide

/-! ### Witnesses: network interface -/

/-- Tile 5 of partition 0 (die 0) with scalar registers. -/
def inPart (x : Sparse Word) : State := wr (withX 5 x) (partReg 0 0) 1

theorem witness_nsend : issues (inPart [(2, 0x3000008)]) 5 [2, 3] = true ∧ dgaFault (inPart [(2, 0x3000008)]) 5 (xNow (inPart [(2, 0x3000008)]) 5 2) 8 false = false
    ∧ (⟨0, 2, 3, 0, 0⟩ : IWord).plane ≠ 3 ∧ (⟨0, 2, 3, 0, 0xC000⟩ : IWord).plane = 3
    ∧ dgaFault (inPart [(2, 0x80000000)]) 5 (xNow (inPart [(2, 0x80000000)]) 5 2) 8 false = true
    ∧ (tileOf (inPart []) 5).q.ni.length < 16 := by decide

theorem witness_nget : dgaFault (inPart [(2, 0x3000008), (3, 64), (4, 8)]) 5 (xNow (inPart [(2, 0x3000008), (3, 64), (4, 8)]) 5 2) 8 false = false
    ∧ keepBlocks (wr (inPart [(2, 0x3000008), (3, 64), (4, 8)]) (keepReg 5 0) 0x10001000000) 5 64 8 = true
    ∧ (xNow (inPart [(2, 0x3000008), (3, 0x600000), (4, 8)]) 5 3).toNat + 8 > 0x600000 := by decide

/-- Entry 7 of tile 5: a CNT_INC of counter 1 of tile 6 when counter 0 reaches 2. -/
def trigState (x : Sparse Word) (w0 : Word) : State := wr (wr (inPart x) (trigReg 5 7 0) w0) (trigReg 5 7 1) 0x3000000

theorem witness_ntrig : armOk (trigState [(2, 7)] 0x8200300000000200) 5 7 = true ∧ armedEntries (trigState [(2, 7)] 0x8200300000000200) 5 = []
    ∧ cntOf (trigState [(2, 7)] 0x8200300000000200) 5 0 < 2 ∧ issues (trigState [(2, 7)] 0x8200300000000200) 5 [2] = true
    ∧ armOk (trigState [(2, 8)] 0x8200300000000200) 5 8 = false ∧ 255 < (xNow (trigState [(2, 256)] 0) 5 2).toNat := by decide

/-- The descriptor of a broadcast of 64 bytes from tile 5 to the 2 × 1 group of tiles 5 and 6, from scratchpad offset 128 to 192. -/
def collState (len : Nat) : State :=
  putTileBytes (inPart [(2, 64)]) 5 (some 0) 64
    (leBytes 8 (5 * 2 ^ 8 + len * 2 ^ 24) ++ leBytes 8 (5 * 2 ^ 23 + 192) ++ leBytes 8 (5 + 6 * 2 ^ 7) ++ leBytes 8 (128 + 256 * 2 ^ 24))

set_option maxRecDepth 8000 in
theorem witness_ncoll : collDgaBad (collState 64) 5 (collAt (collState 64) 5 64) = false := by decide

set_option maxRecDepth 8000 in
theorem witness_ncoll_len : collLenBad (collState 64) 5 (collAt (collState 64) 5 64) = false
    ∧ collLenBad (collState 0) 5 (collAt (collState 0) 5 64) = true := by decide

set_option maxRecDepth 8000 in
theorem witness_ncoll_dga : collDgaBad (inPart [(2, 64)]) 5 (collAt (inPart [(2, 64)]) 5 64) = true
    ∧ wordsClean (collState 64) 5 0 64 64 = true ∧ issues (collState 64) 5 [2] = true := by decide

/-- The operation of an NSEND of 7 to offset 0 of tile 6. -/
def sendOf : NiOp := ⟨.instr ⟨0, 0, 0⟩, .send, 0x3000000, 0, 8, 7, 0, false, 0, false, 1, 0, 0, 0, 0, false⟩

/-- Tile 5 with an NI. -/
def niState (f : Queues → Queues) : State := running 5 (fun x => { x with q := f x.q })

/-- Tile 5's die with both planes enabled and route tables that name LOCAL. -/
def routed (s : State) : State := wr (wr (wr s (ncbReg 0 0) 3) (routeKey 0 0 .up 0) 0) (routeKey 0 0 .down 0) 0

theorem witness_routes : routesOpen (routed State.reset) 0 0 := by intro pl; cases pl <;> decide

theorem witness_ni_start : (tileOf (niState (fun q => { q with ni := [sendOf] })) 5).q.ni = sendOf :: []
    ∧ (tileOf (niState (fun q => { q with ni := [sendOf] })) 5).allow = none ∧ scopeOpen (niState (fun q => { q with ni := [sendOf] })) 5 = true
    ∧ sendOf.dga.toNat < 40 * 2 ^ 31 := by decide

theorem witness_ni_full : 16 ≤ (tileOf (niState (fun q => { q with started := List.replicate 16 ⟨sendOf, 0, [], none, [], 0, 0⟩ })) 5).q.started.length := by
  decide

theorem witness_ni_done : (tileOf (niState (fun q => { q with started := [⟨sendOf, 3, [], none, [], 0, 0⟩] })) 5).q.started = [⟨sendOf, 3, [], none, [], 0, 0⟩]
    ∧ armedEntries (niState id) 5 = [] := by decide

/-! ### Witnesses: packets -/

/-- A packet of a type on a channel from tile 6 to tile 5 of die 0, with an address and data. -/
def pkt (ch ty addr : Nat) (data : List Byte) : Packet :=
  { request 0 6 0 ty addr 9 data with ch := BitVec.ofNat 2 ch, dstDie := 0, dstTile := 5 }

/-- Die 0 awake with routes. -/
def netState : State := wr (routed (running 5 id)) (dieStateReg 0) 0

theorem witness_at_tile : (pkt 0 0 0x2800040 [1, 2]).dstDie.toNat < 40 ∧ packetDst (pkt 0 0 0x2800040 [1, 2]) = 5
    ∧ channelOk (pkt 0 0 0x2800040 [1, 2]) = true ∧ targetClosed netState (pkt 0 0 0x2800040 [1, 2]) = false ∧ netState.ecc = []
    ∧ armedEntries netState 5 = [] ∧ keepBlocks netState 5 64 2 = false
    ∧ keepBlocks (wr netState (keepReg 5 0) 0x10001000000) 5 64 2 = true ∧ clusterState netState 0 (clusterOf 5) < 2 := by decide

theorem witness_at_tile_routes : routesOpen netState (pkt 0 0 0x2800040 [1, 2]).dstDie.toNat (pkt 0 0 0x2800040 [1, 2]).srcDie.toNat := by
  intro pl; cases pl <;> decide

/-- A started GET of 2 bytes from tile 6 to scratchpad offset 64, awaiting its packet. -/
def getStarted : NiStarted :=
  ⟨{ sendOf with kind := .get, dga := 0x3000000, loc := 64, len := 2 }, 9, [pkt 0 1 0x3000000 []], none, [], 0, 0⟩

theorem witness_answer : awaitsOne (wr (routed (niState (fun q => { q with started := [getStarted] }))) (dieStateReg 0) 0) 5 getStarted (pkt 0 1 0x3000000 [])
    ∧ answersIt (wr (routed (niState (fun q => { q with started := [getStarted] }))) (dieStateReg 0) 0) (pkt 1 2 0x3000000 [7, 8]) (pkt 0 1 0x3000000 []) 5
    ∧ ((tileOf (niState (fun q => { q with started := [getStarted] })) 5).ctxOf 0).st.live = true
    ∧ getStarted.op.origin = .instr ⟨0, 0, 0⟩ := by
  simp only [awaitsOne, answersIt]; decide

theorem witness_resend : (tileOf (niState (fun q => { q with started := [{ getStarted with retry := [(2000, pkt 0 1 0x3000000 [])] }] })) 5).q.started
      = [{ getStarted with retry := [(2000, pkt 0 1 0x3000000 [])] }]
    ∧ (tileOf (niState (fun q => { q with started := [{ getStarted with retry := [(2000, pkt 0 1 0x3000000 [])] }] })) 5).allow = none := by decide

theorem witness_die_block : dieBlockMapped 0 8 = true ∧ channelOk { pkt 0 1 0x7F800000 [] with dstTile := 255, xdata := 8 } = true
    ∧ targetClosed netState { pkt 0 1 0x7F800000 [] with dstTile := 255, xdata := 8 } = false := by decide

theorem witness_die_block_routes : routesOpen (writeReg (absorb netState (pkt 0 0 0x7F800000 [])) false (dieBlockAddr 0 0) 5) 0 0
    ∧ routesOpen (readRegAt (absorb netState (pkt 0 1 0x7F800000 [])) (dieBlockAddr 0 0)).1 0 0 := by
  constructor <;> intro pl <;> cases pl <;> decide

/-! ### Witnesses: routers and links -/

/-- The way of a packet of one flit whose head waits at a port. -/
def headWay (p : Packet) (k : Nat) : Worm := ⟨1, p, [(p.dstDie, p.dstTile)], k / 64, k, 0, 1, [⟨k, [], 0⟩]⟩

/-- A packet's head flit waits at a port in a state. -/
def withHead (s : State) (p : Packet) (k : Nat) : State :=
  updM s (fun m => { m with net := [p], worms := [headWay p k], wormSeq := 2, sidings := [(k, ⟨[⟨p.ch, false, 1⟩], []⟩)] })

/-- A packet from tile 6 to tile 5 of die 0, or to die 1. -/
def walker (d : BitVec 6) : Packet := { pkt 0 0 0x2800040 [1, 2] with dstDie := d }

/-- The routes of `netState` with die 1 to the east. -/
def eastward : State := wr netState (routeKey 0 0 .up 0) 0x200

theorem witness_head : HeadAt (withHead netState (walker 0) (portKey 6 .up 4)) 6 .local (walker 0) (headWay (walker 0) (portKey 6 .up 4)) := by
  constructor <;> decide

theorem witness_route : wayOpen (withHead netState (walker 0) (portKey 6 .up 4)) 6 (walker 0) .west
    ∧ nextPort 6 (walker 0).plane .west = some (portKey 5 .up 1)
    ∧ outFree (withHead netState (walker 0) (portKey 6 .up 4)) 6 (headWay (walker 0) (portKey 6 .up 4)) (portKey 6 (walker 0).plane (dirNum .local)) (portKey 5 .up 1) = true
    ∧ packetFlits (walker 0) = 1 ∧ isResponse (walker 0) = false ∧ (walker 0).ch ≠ 2 := by
  refine ⟨⟨by decide, fun _ => by decide⟩, ?_⟩; decide

theorem witness_route_local : HeadAt (withHead netState (walker 0) (portKey 5 .up 1)) 5 .east (walker 0) (headWay (walker 0) (portKey 5 .up 1))
    ∧ outDir (withHead netState (walker 0) (portKey 5 .up 1)) (walker 0) 5 = some .local := by
  refine ⟨?_, by decide⟩; constructor <;> decide

theorem witness_route_full : HeadAt (setSidings (withHead netState (walker 0) (portKey 6 .up 4)) (portKey 5 .up 1)
      ⟨[], List.replicate 8 (0, false) ++ List.replicate 96 (1, true)⟩) 6 .local (walker 0) (headWay (walker 0) (portKey 6 .up 4))
    ∧ outFree (setSidings (withHead netState (walker 0) (portKey 6 .up 4)) (portKey 5 .up 1) ⟨[], List.replicate 8 (0, false) ++ List.replicate 96 (1, true)⟩) 6
      (headWay (walker 0) (portKey 6 .up 4)) (portKey 6 (walker 0).plane (dirNum .local)) (portKey 5 .up 1) = false := by
  refine ⟨?_, by decide +kernel⟩; constructor <;> decide +kernel

theorem witness_route_none : HeadAt (withHead netState (walker 1) (portKey 5 .up 4)) 5 .local (walker 1) (headWay (walker 1) (portKey 5 .up 4))
    ∧ outDir (withHead netState (walker 1) (portKey 5 .up 4)) (walker 1) 5 = none := by
  refine ⟨?_, by decide⟩; constructor <;> decide

theorem witness_route_crossing : HeadAt (withHead eastward (walker 1) (portKey 11 .up 3)) 11 .west (walker 1) (headWay (walker 1) (portKey 11 .up 3))
    ∧ outDir (withHead eastward (walker 1) (portKey 11 .up 3)) (walker 1) 11 = some .east ∧ neighbour 11 .east = some 144
    ∧ closedAhead (withHead eastward (walker 1) (portKey 11 .up 3)) 11 .east = true
    ∧ closedAhead (withHead (wr eastward (dieStateReg 1) 0) (walker 1) (portKey 11 .up 3)) 11 .east = false
    ∧ crossingDown (withHead (wr eastward (dieStateReg 1) 0) (walker 1) (portKey 11 .up 3)) .up 11 .east = true
    ∧ routerClosed State.reset 5 = true := by
  refine ⟨?_, ?_⟩
  · constructor <;> decide
  · decide

theorem witness_credit : ((BitVec.ofNat 2 (1 : Fin 4).val, true) ∈ (sidingsAt (setSidings netState (portKey 5 .up 1) ⟨[], [(1, true)]⟩) (portKey 5 .up 1)).back)
    ∧ (BitVec.ofNat 2 (1 : Fin 4).val, true) ∉ (sidingsAt netState (portKey 5 .up 1)).back := by decide

theorem witness_crossing : crossEdges 11 = [0, 1] ∧ crossEdges 30 = [] ∧ (crossEdges 11).contains (edgeNum .east) = true
    ∧ (([1, 1, 2] : List (Fin 1056)).map (fun l => l.val)).eraseDups.length ≤ 8
    ∧ 8 < (([0, 1, 2, 3, 4, 5, 6, 7, 8] : List (Fin 1056)).map (fun l => l.val)).eraseDups.length := by decide

/-! ### Witnesses: collectives -/

/-- Partition 0 holds die 0, whose planes and routes are open. -/
def collNet (f : Tile → Tile) : State := wr (wr (routed (running 5 f)) (dieStateReg 0) 0) (partReg 0 0) 1

/-- The group of tiles 5 and 6 of die 0. -/
def duo : Word := 5 + 6 * 2 ^ 7

/-- An RD_OPEN or RD_DATA of collective 7 from tile 6 for tile 4, at the start of its first segment, with COUNT 1. -/
def redPkt (ty : Nat) (data : List Byte) : Packet :=
  { request 0 6 0 ty 0x2000000 0 [] with ch := 2, dstDie := 0, dstTile := 4, xdata := collXdata 7 1 0 false 0, group := duo, data := data }

/-- The slot of its segment. -/
def redSlot (us : Sparse (Nat × List Lane)) : PrSlot := ⟨0, 7, 0x2000000, 0, 0, duo, false, 2, none, us, [], [], 0⟩

/-- Tile 5 with collective records. -/
def withColl (f : Coll → Coll) : State := collNet (fun x => { x with coll := f x.coll })

set_option maxRecDepth 8000 in
theorem witness_rd_open : passesBy (withColl id) (redPkt 8 []) 5 .east ∧ (tileOf (withColl id) 5).coll.waits .up = [] ∧ combines (withColl id) (redPkt 8 []) 5 = true
    ∧ slotOf (withColl id) 5 (redPkt 8 []) = none ∧ freeSlot (withColl id) 5 .up = some 0
    ∧ combines (withColl id) { redPkt 8 [] with group := 5 } 5 = false := by
  simp only [passesBy]; decide

theorem witness_rd_open_more : (slotOf (withColl (fun x => { x with slotsUp := [(0, redSlot [])] })) 5 (redPkt 8 [])).isSome = true
    ∧ freeSlot (withColl (fun x => { x with slotsUp := [(0, redSlot []), (1, redSlot []), (2, redSlot []), (3, redSlot [])] })) 5 .up = none
    ∧ (tileOf (withColl (fun x => { x with waitUp := [⟨.east, redPkt 8 [], 0⟩] })) 5).coll.waits .up = [⟨.east, redPkt 8 [], 0⟩]
    ∧ collDead (updPart (withColl id) 0 (fun x => { x with aborting := true })) (redPkt 8 []) = true := by decide

theorem witness_rd_data : intoSlot (withColl (fun x => { x with slotsUp := [(0, redSlot [])] })) 5 (redPkt 9 (leBytes 4 1)) = some (0, redSlot [])
    ∧ intoSlot (withColl (fun x => { x with slotsUp := [(0, redSlot [(0, (1, [1]))])] })) 5 (redPkt 9 (leBytes 4 1)) = some (0, redSlot [(0, (1, [1]))])
    ∧ unitsOf 4 (pUnit (redPkt 9 (leBytes 4 1))) (accLanes 0 (leBytes 4 1)) = [(pUnit (redPkt 9 (leBytes 4 1)), [1])]
    ∧ pCount (redPkt 9 (leBytes 4 1)) < (redSlot []).total ∧ (redSlot []).total ≤ 1 + pCount (redPkt 9 (leBytes 4 1))
    ∧ intoSlot (withColl id) 5 (redPkt 9 (leBytes 4 1)) = none ∧ (outDir (withColl id) (redPkt 9 []) 5).bind (stationAt 5) = none
    ∧ (outDir (withColl id) (redPkt 9 []) 5) = some .west := by decide

theorem witness_idle_flush : (tileOf (withColl (fun x => { x with slotsUp := [(0, redSlot [(0, (1, [1]))])] })) 5).coll.slots .up
    = [(0, redSlot [(0, (1, [1]))])] := by decide

/-- A broadcast of 64 bytes from scratchpad offset 0 of tile 5 to tiles 5 and 6: the posting. -/
def bcOp : NiOp := { sendOf with kind := .coll, c0 := 7 * 2 ^ 8 + 64 * 2 ^ 24, c1 := 5 * 2 ^ 23, c2 := duo, c3 := 128 + 256 * 2 ^ 24 }

/-- Its root record, with as many grants still awaited as given. -/
def bcRoot (n : Nat) : RootRec := ⟨0, bcOp.desc.collId, bcOp.desc.root, bcOp, 3, n, 0, false, [], []⟩

/-- A grant of member 1. -/
def bcGrantPkt : Packet :=
  { request 0 6 0 0xB bcOp.desc.root 0 [] with ch := 2, dstDie := 0, dstTile := 5, xdata := collXdata bcOp.desc.collId 1 0 false 0 }

theorem witness_root_grant : (tileOf (withColl id) 5).coll.rootW = [] ∧ 8 ≤ (tileOf (withColl (fun x => { x with roots := List.replicate 8 (bcRoot 1) })) 5).coll.roots.length ∧ (tileOf (withColl (fun x => { x with rootQ := [3] })) 5).coll.rootQ = [3]
    ∧ startedOf (collNet (fun x => { x with q := { x.q with started := [⟨bcOp, 3, [], none, [], 0, 1⟩] } })) 5 3 = some ⟨bcOp, 3, [], none, [], 0, 1⟩
    ∧ ({ bcOp with c0 := 1 } : NiOp).desc.reduce = true := by decide

set_option maxRecDepth 8000 in
theorem witness_bc_grant : rootOf (withColl (fun x => { x with roots := [bcRoot 1] })) 5 bcGrantPkt = some (bcRoot 1)
    ∧ bcOp.desc.reduce = false ∧ (members (withColl id) bcOp.desc.group)[pCount bcGrantPkt]? = some 6
    ∧ bcOp.desc.gmap + pCount bcGrantPkt / 8 < 0x600000 ∧ keepBlocks (withColl id) 5 (bcOp.desc.gmap + pCount bcGrantPkt / 8) 1 = false
    ∧ bcTargets (withColl id) bcOp.desc = [6] ∧ bcOp.desc.standing = false ∧ bcOp.desc.gmap = 256 ∧ bcOp.desc.len = 64 := by decide

theorem witness_bc_arrives : collArrives (withColl id) bcGrantPkt 0xB 5 := by simp only [collArrives]; decide

theorem witness_bc_port : portAt (withColl id) 5 bcGrantPkt = none ∧ notHeldUp (withColl id) bcGrantPkt 5 := by
  refine ⟨by decide, fun i h => ?_⟩
  rw [show portAt (withColl id) ((5 : TileId).val) bcGrantPkt = none by decide] at h
  exact absurd h (by simp)

set_option maxRecDepth 8000 in
theorem witness_source_apart : (List.range 64).all (fun i => (List.range 64).all (fun j =>
    decide (tilePlace (withColl id) 5 bcOp.who (bcOp.desc.root % 2 ^ 23 + i) ≠ tilePlace (withColl id) 5 none (bcOp.desc.loc + j)))) = true
    ∧ bcOp.desc.len = 64 := by decide +kernel

theorem witness_may_send : (tileOf (withColl id) 5).allow = none ∧ (∀ pl : Plane, planeOk (withColl id) 0 0 pl = true) :=
  ⟨by decide, by intro pl; cases pl <;> decide⟩

/-- The landing of the posting at tile 5, of a root elsewhere. -/
def bcLanding : Landing := ⟨0, bcOp.desc.collId, bcOp.desc.root, bcOp, 3, [], []⟩

/-- The data of the broadcast for tile 5. -/
def bcDataPkt (poison : Bool) : Packet :=
  { request 0 6 0 0xA bcOp.desc.root 0 [] with
    ch := 2, dstDie := 0, dstTile := 5, plane := bcOp.desc.line, poison := poison, xdata := collXdata bcOp.desc.collId 0 0 true 0
    data := List.replicate 64 1 }

theorem witness_bc_data : bcLanding.collId = pColl (bcDataPkt false) ∧ bcLanding.root ≤ (bcDataPkt false).addr.toNat
    ∧ (bcDataPkt false).addr.toNat < bcLanding.root + bcLanding.op.desc.len ∧ bcOp.desc.root < 2 ^ 52
    ∧ (bcDataPkt false).data.length = bcOp.desc.len ∧ bcOp.desc.loc + 64 ≤ 0x600000
    ∧ collArrives (withColl id) (bcDataPkt false) 0xA 5 ∧ collArrives (withColl id) (bcDataPkt true) 0xA 5
    ∧ ((tileOf (withColl (fun k => k.setLand bcOp.desc.line [bcLanding])) 5).coll.land bcOp.desc.line) = [bcLanding]
    ∧ ((tileOf (withColl (fun k => k.setLwait bcOp.desc.line [bcLanding])) 5).coll.lwait bcOp.desc.line) = [bcLanding] := by
  simp only [collArrives]; decide

/-! ### Witnesses: updates -/

/-- An RD_OPEN of collective 7 at outlet 3 of S0. -/
def outletPkt : Packet :=
  { request 0 6 0 8 (stationAddr 0 (0x40000000 + 3 * 2 ^ 24)) 0 [] with ch := 2, dstDie := 40, dstTile := 1, xdata := collXdata 7 1 0 false 0, group := duo }

/-- S0 awake. -/
def stState (f : Station → Station) : State := updStation (wr (collNet id) (dieStateReg 40) 0) 0 f

theorem witness_outlet : targetClosed (stState id) outletPkt = false ∧ collDead (stState id) outletPkt = false ∧ outletOf (stState id) 0 outletPkt = none
    ∧ stagingUsed (stState id) (stationOf (stState id) 0) + (outletShape (stState id) outletPkt).2.1 ≤ 32 * 2 ^ 20 ∧ (stationOf (stState id) 0).outlets.length < 64
    ∧ early (stState id) outletPkt = false ∧ (ejected (stState id) outletPkt).isSome = true ∧ outletHeld (stState id) 0 outletPkt = false
    ∧ (stationOf (stState id) 0).outletW = [] ∧ outletPkt ∉ (stState id).m.net.erase outletPkt := by decide

theorem witness_outlet_full : 64 ≤ (stationOf (stState (fun x => { x with outlets := List.replicate 64 ⟨0, 0, 0, 0, 0, 0, [], 0, 0, []⟩ })) 0).outlets.length
    ∧ outletOf (stState (fun x => { x with outlets := List.replicate 64 ⟨0, 0, 0, 0, 0, 0, [], 0, 0, []⟩ })) 0 outletPkt = none := by decide

/-- A consist with one outlet entry on logical extent 0. -/
def foldConsist : Consist := ⟨0, 0, [], [⟨0, 0, 0⟩], 0, 0, 0, 0, 0, []⟩

/-- Step 1 of partition 0 runs; namespace 1 of S0 has extents of each class with the versions of steps 0 and 1. -/
def peatState (f : Station → Station) : State :=
  updM (updPart (stState (fun x => f { x with map := [⟨1, 0, .g, [⟨1, 10⟩]⟩, ⟨1, 1, .r, [⟨1, 11⟩, ⟨0, 12⟩]⟩,
    ⟨1, 2, .w, [⟨1, 13⟩, ⟨0, 14⟩]⟩, ⟨1, 3, .s, [⟨1, 15⟩, ⟨0, 16⟩]⟩] })) 0
    (fun x => { x with consist := some foldConsist, step := 1 })) (fun m => { m with nss := [⟨1, 0, 4⟩] })

/-- The outlet record whose two units are final. -/
def foldRec : OutletRec := ⟨0, 0, 7, 2, 128, 0, [(0, (2, List.replicate 16 1)), (1, (2, List.replicate 16 2))], 0, 128, []⟩

theorem witness_fold : foldUnits (peatState (fun x => { x with outlets := [foldRec] })) foldRec 0 = some [(0, List.replicate 16 1), (1, List.replicate 16 2)]
    ∧ foldsAt (peatState (fun x => { x with outlets := [foldRec] })) 0 0 0 foldRec
      ⟨0, ⟨1, 0, .g, [⟨1, 10⟩]⟩, ⟨1, 1, .r, [⟨1, 11⟩, ⟨0, 12⟩]⟩, 10, 11⟩ :=
  ⟨by decide, ⟨⟨0, 0, 0⟩, by decide, by decide, by decide⟩, by decide, by decide, by decide⟩

/-- The update of step 1 with kernel 0 at its first block, or past its last. -/
def updJob (b : Nat) : UpdateJob := ⟨0, 1, 0, 0, 0, 0, 0, 0, b⟩

theorem witness_update : jobOf (peatState (fun x => { x with updates := [updJob 0] })) 0 0 = some (updJob 0)
    ∧ 0 < totalBlocks (peatState (fun x => { x with updates := [updJob 0] })) 0 0
    ∧ (classEntries (peatState id) 0 0 .w)[32 * 0 / extBytes]? = some ⟨1, 2, .w, [⟨1, 13⟩, ⟨0, 14⟩]⟩
    ∧ (classEntries (peatState id) 0 0 .s)[32 * 0 * stateBytes 0 / extBytes]? = some ⟨1, 3, .s, [⟨1, 15⟩, ⟨0, 16⟩]⟩
    ∧ versionFor ⟨1, 2, .w, [⟨1, 13⟩, ⟨0, 14⟩]⟩ 1 = some 13
    ∧ totalBlocks (peatState (fun x => { x with updates := [updJob 1966080] })) 0 0 ≤ (updJob 1966080).blocks := by decide

set_option maxRecDepth 8000 in
theorem witness_update_keeps :
    (blockResults (peatState (fun x => { x with updates := [updJob 0] })) 0 (updJob 0) ⟨1, 2, .w, [⟨1, 13⟩, ⟨0, 14⟩]⟩ ⟨1, 3, .s, [⟨1, 15⟩, ⟨0, 16⟩]⟩ 0
      (some 10)).any (fun r => r.2.2) = false
    ∧ (blockResults (peatState (fun x => { x with updates := [updJob 0], flash := [(10 * extBytes + 32, 0xFF)] })) 0 (updJob 0)
      ⟨1, 2, .w, [⟨1, 13⟩, ⟨0, 14⟩]⟩ ⟨1, 3, .s, [⟨1, 15⟩, ⟨0, 16⟩]⟩ 0 (some 10)).any (fun r => r.2.2) = true := by decide

theorem witness_res_saved : (stationOf (peatState id) 0).journal = [] ∧ stationsOn (setDie (peatState id) 40 { Die.reset with region := true }) = [0]
    ∧ stationsOn (setDie (setDie (peatState id) 40 { Die.reset with region := true }) 41 { Die.reset with region := true }) = [0, 1] := by decide

/-! ### Witnesses: epochs -/

/-- Tile 5's die has power and the tile holds what is given. -/
def armedState (l : List Armed) (es : List Epoch) : State :=
  updM (setDie (collNet (fun x => { x with armed := l })) 0 { Die.reset with region := true }) (fun m => { m with epochs := es })

/-- Epoch 9 of partition 0, a commit of step 1, as a unit holds it. -/
def heldEpoch (a : Option Nat) : Armed := ⟨0, 9, 1, 1, 0, a⟩

theorem witness_ep_arm : (dieOf (armedState [] []) (unitDie (.tile 5))).region = true ∧ (unitArmed (armedState [] []) (.tile 5)).any (fun a => a.isFor 0 9) = false
    ∧ (unitArmed (armedState [heldEpoch none] []) (.tile 5)) = [heldEpoch none] ∧ (heldEpoch none).isFor 0 9 = true ∧ (heldEpoch (some 5)).isFor 0 9 = true := by
  decide

/-- The epoch at the signal box. -/
def boxEpoch (type n : Nat) (o : EpochOrigin) (a : Option Nat) : Epoch := ⟨0, 9, BitVec.ofNat 32 type, 1, o, some 0, n, [], a⟩

theorem witness_ep_ready : (armedState [] [boxEpoch 1 1 .stepBoundary none]).m.epochs = [boxEpoch 1 1 .stepBoundary none]
    ∧ (boxEpoch 1 1 .stepBoundary none).part = 0 ∧ (boxEpoch 1 1 .stepBoundary none).armedAt = some 0 ∧ (boxEpoch 1 1 .stepBoundary none).attempts < 3
    ∧ (armedState [] []).now ≤ 0 + 10000 := by decide

/-- A command in slot 0 of queue 0 of port 0. -/
def hostCmd (op : Nat) : HostCmd := ⟨0, 0, BitVec.ofNat 64 op, 0, 0, 0, 0, 0, 0, 0⟩

/-- An invocation of partition 0 runs. -/
def invoked (s : State) (f : Partition → Partition) : State :=
  updPart (setFld s (partReg 0 0x10) 2 0 4) 0 (fun x => f { x with invoke := some (hostCmd 0x30), locked := true })

theorem witness_ep_third : (partOf (invoked (armedState [] [boxEpoch 1 3 .stepBoundary none]) id) 0).invoke.isSome = true
    ∧ (partOf (invoked (armedState [] []) id) 0).aborting = false := by decide

set_option maxRecDepth 8000 in
theorem witness_epoch_due : onlyEpoch (invoked (armedState [heldEpoch (some 0)] [boxEpoch 1 1 .stepBoundary (some 0)]) id) 0 1
      (boxEpoch 1 1 .stepBoundary (some 0)) 0
    ∧ (holdsCommit (invoked (armedState [heldEpoch (some 0)] [boxEpoch 1 1 .stepBoundary (some 0)]) id) (tileUnit 5) (boxEpoch 1 1 .stepBoundary (some 0))) = true
    ∧ (boxEpoch 2 1 .stepBoundary (some 0)).type = 2 ∧ (boxEpoch 3 1 .lagged (some 0)).type = 3 ∧ (boxEpoch 4 1 .invoke (some 0)).type = 4
    ∧ (boxEpoch 5 1 .invEnd (some 0)).type = 5 ∧ partState (invoked (armedState [] []) id) 0 = 4
    ∧ (tilesOfPart (armedState [] []) 0).contains 5 = true := by
  simp only [onlyEpoch]; decide

set_option maxRecDepth 8000 in
theorem witness_end_detect : (tilesOfPart (invoked (armedState [] []) id) 0).any (fun t => (tileOf (invoked (armedState [] []) id) t).running) = true
    ∧ (tilesOfPart (invoked (collNet (fun x => { x with running := false })) id) 0).any
      (fun t => (tileOf (invoked (collNet (fun x => { x with running := false })) id) t).running) = false
    ∧ (invoked (collNet id) id).m.epochs = [] := by decide

theorem witness_route_gen : (boxEpoch (6 + 256) 1 (.commit (some (hostCmd 0x40))) (some 0)).type = 6
    ∧ (boxEpoch (6 + 256) 1 (.commit (some (hostCmd 0x40))) (some 0)).arg % 2 = 1 ∧ (boxEpoch (7 + 512) 1 .planeOff (some 0)).type = 7
    ∧ (boxEpoch (7 + 512) 1 .planeOff (some 0)).arg % 4 = b2n false + 2 * b2n true := by decide

theorem witness_route_parts : (∀ p, (partOf (armedState [] []) p).abortAsked = false) := by intro p; rfl

theorem witness_no_parts : ∀ p, p < 8 → partExists (routed State.reset) p = false := by decide

theorem witness_route_lock : genLocked State.reset 0 1 = false ∧ genLocked State.reset 0 0 = true
    ∧ (setDie State.reset 0 { Die.reset with stopped := [(1, 7)] }).dies = [(0, { Die.reset with stopped := [(1, 7)] })] := by decide

theorem witness_abort : commitPending (invoked (armedState [] [boxEpoch 1 1 .stepBoundary (some 0)]) id) 0 = true
    ∧ commitPending (invoked (armedState [] []) id) 0 = false ∧ ((tileOf (invoked (armedState [] []) id) 5).ctxOf 0).st.live = true := by decide

set_option maxRecDepth 8000 in
theorem witness_quiet : partBusy (invoked (collNet id) (fun x => { x with aborting := true })) 0 = false
    ∧ (partOf (invoked (collNet id) (fun x => { x with aborting := true })) 0).quiet = false
    ∧ partBusy (updM (invoked (collNet id) (fun x => { x with aborting := true })) (fun m => { m with net := [redPkt 8 []] })) 0 = true
    ∧ (invoked (collNet id) id).now + 100000 + 28 < 0 + 1000000 := by decide

/-! ### Witnesses: signal network -/

/-- Dies 0 and 40 have power; S0's node is the root. -/
def sigState : State := setDie (setDie (collNet id) 0 { Die.reset with region := true }) 40 { Die.reset with region := true }

/-- Tile 5's node expects itself and its western child for partition 0, and has tile 4 as its parent. -/
def sigTile : State := wr (wr sigState (tileReg 5 0x4208) 0x11) (tileReg 5 0x4200) 0x30

/-- The root expects one contribution and has its sum. -/
def sigRoot (f : Partition → Partition) : State :=
  invoked (updNode sigState 5760 (fun n => { n with expect := 2, combine := [⟨0, [], [(.child .north, 0, 0)]⟩] })) f

theorem witness_red : nodeOn sigTile 5 = true ∧ (5 : Nat) ≠ rootNode sigTile ∧ allHere sigTile 5 0 (orWith sigTile 5 0 .self 0) = false
    ∧ allHere sigTile 5 0 (cpWith sigTile 5 0 .self 0 0) = false := by decide

theorem witness_red_up : parentOf sigTile 5 = some (4, 1)
    ∧ allHere (wr sigTile (tileReg 5 0x4208) 1) 5 0 (orWith (wr sigTile (tileReg 5 0x4208) 1) 5 0 .self 0) = true
    ∧ allHere (wr (wr sigTile (tileReg 5 0x4208) 1) (tileReg 4 0x4208) 5) 4 0
      (orWith (wr (wr sigTile (tileReg 5 0x4208) 1) (tileReg 4 0x4208) 5) 4 0 (childAt 1) 0) = false := by decide

theorem witness_red_root : nodeOn (sigRoot id) 5760 = true ∧ (5760 : Nat) = rootNode (sigRoot id)
    ∧ allHere (sigRoot id) 5760 0 (orWith (sigRoot id) 5760 0 (.child .north) 1) = true ∧ allHere (sigRoot id) 5760 0 (combineOf (sigRoot id) 5760 0).cpIn = true
    ∧ (orAll (orWith (sigRoot id) 5760 0 (.child .north) 1)).toNat % 2 = 1 ∧ (sigRoot id).m.epochs = []
    ∧ fld (setFld (sigRoot id) (psbPart 0 0 0x20) 31 0 0x7F800000) (psbPart 0 0 0x20) 31 0 = 0x7F800000
    ∧ (partOf (sigRoot id) 0).resSaved = true := by decide

theorem witness_report : nodeOn (wr sigTile (tileReg 5 0x4200) 0x70) 5 = true ∧ parentOf (wr sigTile (tileReg 5 0x4200) 0x70) 5 = none
    ∧ (nodeOf sigTile 5).reports = [] ∧ commitPending (sigRoot id) 0 = false := by decide

theorem witness_discover : bestOf sigState 5760 = some ⟨2, 0, 0⟩ ∧ claimBeats ⟨2, 0, 1⟩ ⟨2, 0, 0⟩ = false ∧ claimBeats ⟨3, 0, 1⟩ ⟨2, 0, 0⟩ = true
    ∧ (nodeOf sigState 5760).down.contains 0 = false ∧ bits (nodeStatus sigState 5760) 7 7 = 0 ∧ bestOf sigState 5 = none
    ∧ spGet (nodeOf (updNode sigState 5 (fun n => { n with errs := [(1, (7, 3))] })) 5).errs (0, 0) 1 = (7, 3) := by decide

/-- A points reducer's flag raised in the CCLK of an FLCLR stays; the TE's is cleared (R95, R96). -/
theorem test_flclr_same_cclk : flagsOf (clearEngine (raiseFlags .reset 5 .pru 3) 5 3 31) 5 .pru = 3
    ∧ flagsOf (clearEngine (raiseFlags .reset 5 .te 3) 5 0 1) 5 .te = 2 := by decide +kernel

/-! ### Witnesses: time, census, ledger -/

/-- A die's ledger has room at reset. -/
theorem witness_ledger_room : ledgerHasRoom .reset 0 := by unfold ledgerHasRoom; decide

/-- A record whose CRC fails ends the read of the ledger and raises LEDGER (R316, Table 12.12). -/
theorem test_ledger_bad_record :
    ((readLedger (updStation .reset 0 (fun x => { x with ledger := [⟨40, [641, 0, 0, 0, 0, 0, 0, 0]⟩] })) 40).m.reedline.alarms.map (fun a => (a.code, a.detail)))
      = [(0x13, 40)] := by decide +kernel

/-- Bring-up stage 4 with a valid tree at S0. -/
def treeState : State := setFld (updNode sigState 5760 (fun n => { n with status := 0xF0 })) modStatus 7 4 4

theorem witness_tsync : stageOf treeState = 4 ∧ fld treeState modStatus 1 1 = 0 ∧ bits (nodeStatus treeState (rootNode treeState)) 7 7 = 1
    ∧ dieNode sigState 40 = rootNode sigState ∧ (0 : Int) ≤ (sigState.now : Int) + offsetOf sigState 40 ∧ gtimeOf sigState 40 + 20 < 100 := by decide

theorem witness_trig : (dieOf sigState 0).region = true ∧ armedEntries sigState 5 = [] ∧ (dieOf sigState 1).region = false := by decide

/-- A sweep is under way. -/
def sweeping : State := updM sigState (fun m => { m with census := { m.census with active := true, sweep := 1 }, power := { m.power with phase := .running } })

set_option maxRecDepth 8000 in
theorem witness_sweep : sweeping.m.census.active = true ∧ (1 : Nat) = sweeping.m.census.sweep % 1024 ∧ powered sweeping = true
    ∧ sweeping.m.census.startAt % 10000000 = 0 ∧ answeredAll sweeping 0 = false := by decide

/-- Every powered die has answered, and no partition exists. -/
def swept : State := updM State.reset (fun m => { m with census := { m.census with active := true, sweep := 1 } })

set_option maxRecDepth 8000 in
theorem witness_publish : (∀ d, d < 48 → reachOf swept d ≠ 2) ∧ (∀ p, p < 8 → ∀ t ∈ tilesOfPart swept p, (tileOf swept t).epSeq = (partOf swept p).applied) := by
  decide

/-! ### Witnesses: power -/

/-- Die 0 has power and its cluster 0 runs at G2; the governor wants no more than G0. -/
def geared : State := setFld sigState (clPwr 0 0) 2 0 2

theorem witness_power_messages : powerOk 0 ⟨1, 1, 5, 0⟩ = false ∧ powerOk 0 ⟨2, 1, 1, 0⟩ = false ∧ powerOk 40 ⟨4, 1, 1, 0⟩ = false
    ∧ powerOk 0 ⟨1, 1, 2, 7⟩ = true ∧ powerOk 0 ⟨2, 1, 2, 7⟩ = true ∧ powerOk 0 ⟨4, 1, 2, 7⟩ = true ∧ sigState.now < 7
    ∧ (dieOf sigState 1).region = false ∧ sigState.m.fencedDies.contains 1 = false ∧ (dieOf sigState 0).region = true
    ∧ spGet (dieOf sigState 0).govGear 0 0 ≤ 4 := by decide

set_option maxRecDepth 8000 in
theorem witness_regulators : wantedGear geared 0 0 < gearOf geared 0 0 ∧ vclOf geared 0 0 < 52
    ∧ (0 : Nat) < fld geared (powerReg 0 0x18) 15 8 ∧ 52 ≤ vclOf (setFld geared (clVcl 0 0) 5 0 52) 0 0
    ∧ headroomNow (setFld geared (powerReg 0 8) 9 0 0) 0 0 < fld geared (powerReg 0 0x18) 23 16
    ∧ fld geared (powerReg 0 0x18) 23 16 + 20 < headroomNow (setFld (forEach (List.range 16) geared (fun s c => setFld s (clVcl 0 c) 5 0 0)) (powerReg 0 8) 9 0 800) 0 0
    ∧ (∀ c, c < 16 → wantedGear sigState 0 c ≤ gearOf sigState 0 c)
    ∧ bit (rd sigState (powerReg 0 0x20)) 3 = false ∧ 19 ≤ activePhases sigState 0 ∧ bit (rd sigState (powerReg 0 0x28)) 63 = false := by decide

/-! ### Witnesses: the Peat and host memory -/

/-- Both planes lead from S0 to die 0. -/
def fromS0 (s : State) : State := wr (wr (wr (wr s (ncbReg 40 0) 3) (routeKey 40 0 .up 0) 3) (routeKey 40 0 .down 0) 3) (ncbReg 0 0x10) 3

/-- A packet of tile 6 for unit `u` of S0. -/
def toS0 (u ty addr : Nat) (data : List Byte) : Packet :=
  { request 0 6 0 ty addr 9 data with ch := 3, dstDie := 40, dstTile := BitVec.ofNat 8 u, xdata := 2 }

/-- The Peat address of the start of extent `e` of namespace 1 on S0. -/
def ext1 (e : Nat) : Nat := 2 * 2 ^ 52 + 2 ^ 48 + e * 2 ^ 29

theorem witness_station : routesOpen (fromS0 (peatState id)) 40 0 ∧ targetClosed (fromS0 (peatState id)) (toS0 3 1 (ext1 2) []) = false
    ∧ reaches (fromS0 (peatState id)) (toS0 3 1 (ext1 2) []) 1 := by
  refine ⟨?_, ?_, ?_, ?_, ?_⟩
  · intro pl; cases pl <;> decide
  all_goals decide

theorem witness_peat_read : readLenOk (toS0 3 1 (ext1 2) []) = true ∧ readLenOk { toS0 3 1 (ext1 2) [] with xdata := 0 } = false
    ∧ peatMapped (peatState id) 0 (ext1 2) 2 = true ∧ peatMapped (peatState id) 0 (ext1 4) 2 = false
    ∧ (peatEntry (peatState id) 0 (toS0 3 1 (ext1 2) [])).cls = .w ∧ gateOpen (wr (peatState id) (psbPart 0 0 0) 0) 0 0 = false
    ∧ (stationOf (peatState id) 0).hold.length = 0
    ∧ resolve (updM (peatState id) (fun m => { m with nss := [⟨1, 0, 9⟩] })) 0 0 (peatEntry (peatState id) 0 (toS0 3 1 (ext1 8) [])) = none
    ∧ resolve (peatState id) 0 0 (peatEntry (peatState id) 0 (toS0 3 1 (ext1 1) [])) = some 12
    ∧ (stationOf (peatState (fun x => { x with lost := [(12, 0)] })) 0).lost.contains (12, 0) = true
    ∧ cached (stationOf (peatState (fun x => { x with lines := [⟨0, 12, 0⟩] })) 0) 12 (readPages (toS0 3 1 (ext1 1) [])) = true
    ∧ cached (stationOf (peatState id) 0) 12 (readPages (toS0 3 1 (ext1 1) [])) = false := by decide

theorem witness_held_full (l : List (PartId × Packet)) (h : l = List.replicate 4096 (0, toS0 3 1 (ext1 2) [])) :
    4096 ≤ ((stationOf { peatState id with stations := [(0, { stationOf (peatState id) 0 with hold := l })] } 0).hold.filter (fun h => decide (h.1.val = 0))).length := by
  have e : (stationOf { peatState id with stations := [(0, { stationOf (peatState id) 0 with hold := l })] } 0).hold = l := rfl
  have n : ((List.replicate 4096 ((0 : PartId), toS0 3 1 (ext1 2) [])).filter (fun h => decide (h.1.val = 0))).length = 4096 := by
    rw [List.filter_replicate, if_pos (by decide), List.length_replicate]
  rw [e, h]
  exact Nat.le_of_eq n.symm

theorem witness_flash : (stationOf (peatState (fun x => { x with reads := [(12, toS0 3 1 (ext1 1) [])] })) 0).reads = [(12, toS0 3 1 (ext1 1) [])]
    ∧ readPages (toS0 3 1 (ext1 1) []) = [0 * 15 + (0 : Fin 15).val] ∧ (stationOf (peatState id) 0).lines.length + 16 ≤ depotLines
    ∧ (deadChannels (stationOf (peatState id) 0) 12).contains (pageChannel 0 0) = false ∧ rebuildable (stationOf (peatState id) 0) 12 0 0 = true
    ∧ rebuildable (stationOf (peatState (fun x => { x with lost := [(12, 1)] })) 0) 12 0 0 = false := by decide

theorem witness_peat_write : freeExtent (stationOf (peatState id) 0) = some 0
    ∧ (peatEntry (updM (peatState id) (fun m => { m with nss := [⟨1, 0, 9⟩] })) 0 (toS0 3 0 (ext1 8) [1, 2])).cls = .d
    ∧ 256 ≤ spareFree (wr (peatState id) (psbReg 0 0x10) 256) 0 ∧ spareFree (wr (peatState id) (psbReg 0 0x10) 255) 0 < 256
    ∧ peatStn (ext1 8) = 0
    ∧ (entryOf (updStation (peatState id) 0 (fun x => { x with map := [⟨1, 0, .k, [⟨0, 3⟩]⟩] })) 0 1 0).versions.find?
      (fun v => decide (v.step = (partOf (peatState id) 0).committed)) = some ⟨0, 3⟩ := by decide

theorem witness_blocks : (stationOf (peatState id) 0).retired.contains 12 = false ∧ (freeExtent (withRetired (stationOf (peatState id) 0) 12)).isSome = true
    ∧ (stationOf (peatState id) 0).nandFail = []
    ∧ fld (wr (peatState (fun x => { x with nandFail := [(2, 0)] })) (psbReg 0 0x28) 0x100000000) (psbReg 0 0x28) 63 32 = 1
    ∧ (physUsed (stationOf (peatState id) 0)).contains 12 = true ∧ deadChannels (stationOf (peatState (fun x => { x with nandFail := [(2, 0)] })) 0) 12 = [2] := by
  decide

theorem witness_host_memory : (portOf (updPort State.reset 0 (fun x => { x with linkUp := true })) 0).linkUp = true ∧ (portOf State.reset 0).linkUp = false
    ∧ reaches (fromS0 (peatState id)) (toS0 2 0 0x1000 [1, 2]) 0 := by
  refine ⟨?_, ?_, ?_, ?_, ?_⟩ <;> decide

/-! ### Witnesses: host commands -/

/-- The module is ready, port 0's link is up, and the port administers and is bound to partition 0, which holds die 0. -/
def hostState (f : Port → Port) : State :=
  wr (wr (updPort (collNet id) 0 (fun x => f { x with linkUp := true })) modStatus 1) (partReg 0 0) 0x4001

/-- A command of port 0 with its operand words. -/
def cmdOf (op w1 w2 w3 : Nat) : HostCmd := ⟨0, 0, BitVec.ofNat 64 op, BitVec.ofNat 64 w1, BitVec.ofNat 64 w2, BitVec.ofNat 64 w3, 0, 0, 0, 0⟩

theorem witness_turned_away : mayStart (hostState (fun x => { x with fetched := [cmdOf 0 0 0 0, cmdOf 5 0 0 0] })) (cmdOf 5 0 0 0) 5 = false
    ∧ mayStart (hostState id) (cmdOf 5 0 0 0) 5 = true ∧ bit (rd (wr (hostState id) modStatus 0) modStatus) 0 = false
    ∧ firstReserved (cmdOf 5 16 0 0) (0xF, 0x3FFFF, 0) = some 1 ∧ adminPort (wr (hostState id) (moduleReg 0) 1) ≠ (cmdOf 3 0 0 0).port.val
    ∧ boundPart (wr (hostState id) (partReg 0 0) 1) 0 = none ∧ boundPart (hostState id) 0 = some 0 ∧ adminPort (hostState id) = 0 := by decide

theorem witness_accepted : accepted (hostState id) (cmdOf 0 0 0 0) 0 (0, 0, 0) true ∧ accepted (hostState id) (cmdOf 1 0x1000 0 0) 1 (2 ^ 64 - 1, 0, 0) true
    ∧ accepted (hostState id) (cmdOf 2 0x2000051 0 0) 2 (0xFFFFFFFF, 0xFFFFFFFFFF, 0x3FFFF) false ∧ accepted (hostState id) (cmdOf 3 0 0 0) 3 (7, 0, 0) false
    ∧ accepted (hostState id) (cmdOf 4 0x10000 0 0) 4 (0xFFFFFFFF, 0xFFFFFFFFFF, 0x3FFFF) false
    ∧ accepted (hostState id) (cmdOf 5 1 0 0) 5 (0xF, 0x3FFFF, 0) false ∧ accepted (hostState id) (cmdOf 6 1 0 0) 6 (0xF, 0, 0) false
    ∧ accepted (hostState id) (cmdOf 8 1 0 0) 8 (1, 0, 0) false ∧ accepted (hostState id) (cmdOf 9 0 0 0) 9 (0, 0, 0) false
    ∧ accepted (hostState id) (cmdOf 11 0 0 0) 11 (0, 0, 0) false ∧ accepted (hostState id) (cmdOf 12 0 0 0) 12 (0, 0, 0) false
    ∧ accepted (hostState id) (cmdOf 13 1 0 0) 13 (0x3F, 0, 0) false := by
  simp only [accepted]; decide

set_option maxRecDepth 8000 in
theorem witness_partitions : partExists (hostState id) 1 = false ∧ (shapeDies (cmdOf 2 0x20049 0 0).w1).all
      (fun d => (partOfDie (hostState id) d).isNone && !((hostState id).m.fencedDies.contains d)) = true
    ∧ shapeDies (cmdOf 2 0x20049 0 0).w1 = [1] ∧ bits (cmdOf 2 0x20049 0 0).w1 2 0 = 1
    ∧ partChecks (hostState id) (cmdOf 2 0x20049 0 0) 1 = none ∧ partExists (hostState id) 0 = true ∧ partState (hostState id) 0 = 0
    ∧ partChecks (hostState id) (cmdOf 4 0x10000 0 0) 0 = none ∧ bits (cmdOf 4 0x10000 0 0).w1 14 3 = fld (hostState id) (partReg 0 0) 13 2
    ∧ nsOf (hostState id) 1 = none ∧ (∀ k, k < 8 → mayAllocate (hostState id) k 0 0 = true)
    ∧ nsOf (updM (hostState id) (fun m => { m with nss := [⟨1, 0, 2⟩] })) 1 = some ⟨1, 0, 2⟩ ∧ (partOf (hostState id) 0).consist = none
    ∧ (hostState id).m.fuses.moduleId.length = 16 ∧ (hostState id).m.fuses.mac.length = 6 := by decide

/-- Partition 0 in a state of Table 9.12. -/
def hostPart (st : Nat) : State := setFld (hostState id) (partReg 0 0x10) 2 0 st

theorem witness_invoke_abort : (partOf (hostPart 3) 0).aborting = false ∧ (partOf (hostPart 3) 0).invoke = none ∧ partState (hostPart 3) 0 = 3
    ∧ partState (hostPart 5) 0 = 5 ∧ bit (cmdOf 8 1 0 0).w1 0 = true ∧ partState (hostPart 1) 0 = 1 ∧ partState (hostPart 2) 0 = 2
    ∧ partState (invoked (hostPart 4) id) 0 = 4 ∧ (partOf (invoked (hostPart 4) id) 0).invoke.isSome = true
    ∧ (partOf (invoked (hostPart 4) id) 0).aborting = false ∧ commitPending (invoked (hostPart 4) id) 0 = false ∧ (hostPart 3).m.epochs = [] := by decide

/-- Both planes lead from S0 to die 0, where port 0's partition lies. -/
def copyState : State := fromS0 (hostState id)

theorem witness_copy : barClosed copyState 0 (tileAddr 5 64) = false ∧ clusterState copyState 0 (clusterOf 5) ≠ 3 ∧ copyState.ecc = []
    ∧ keepBlocks copyState 5 64 8 = false ∧ partHolds copyState 0 0 = true
    ∧ (cmdOf 10 (8 * 2 ^ 52 + 0x1000) (tileAddr 5 64) 8).w1.toNat = (8 + 0) * 2 ^ 52 + 0x1000
    ∧ (cmdOf 10 (tileAddr 5 64) (8 * 2 ^ 52 + 0x1000) 8).w2.toNat = (8 + 0) * 2 ^ 52 + 0x1000
    ∧ firstReserved (cmdOf 10 (8 * 2 ^ 52 + 0x1000) (tileAddr 5 64) 8) (2 ^ 56 - 1, 2 ^ 56 - 1, 0xFFFFFFFF) = none := by decide

theorem witness_routes_events_fence : (portOf (hostState id) 0).waiting = [] ∧ (portOf (hostState id) 0).takeEvent = none
    ∧ ((portOf (hostState (fun x => { x with events := [7] })) 0).takeEvent.map (fun x => x.1)) = some 7
    ∧ (hostState id).m.fencedDies.contains 1 = false := by decide

set_option maxRecDepth 20000 in
theorem witness_commit_bad : (validate (wr (hostState id) (routeKey 0 1 .up 0) 0) (1 - boxGen (hostState id))).ok = false := by decide +kernel

/-! A consist for partition 0 whose one die is fenced: no TILEMAP record, 112 bytes of ROUTES, all zero. -/

/-- The image. -/
def imageBytes : List Byte := leBytes 432
  0x7000000000000001401bbeadbd00000003000000000000000000000000000001000000000000000002000000000000000400000000000001002144df1c000000010000000000000000000000000000000000000000000000000000000000000000000000000000000000000000000000000000000011ef6fe16e62b506e10ec2151628d616fc2cf42dd5a040b575fc536a30a1ec1b8f5e729e00000000000000010000000300000000000000000000000100000000000001b0000000014c4a5743

/-- Port 0 holds the image at host address 0; die 0 is fenced and in D3. -/
def loadState : State :=
  { wr (wr (updPort State.reset 0 (fun x => { x with linkUp := true })) modStatus 1) (partReg 0 0) 0x4001 with
    cells := (List.zip (List.range 432) imageBytes).filterMap (fun x => if x.2 = 0 then none else some (8 * 2 ^ 52 + x.1, x.2))
    m := { State.reset.m with fencedDies := [0] } }

/-- The state in which its load begins. -/
def loadBegun : State := wakePart (taken loadState (cmdOf 7 (8 * 2 ^ 52) 432 0)) 0

set_option maxRecDepth 100000 in
theorem witness_load_bytes : readBytes loadState (hostAddr 0 0) 432 = imageBytes ∧ boundPart loadState 0 = some 0
    ∧ mayStart loadState (cmdOf 7 (8 * 2 ^ 52) 432 0) 7 = true ∧ firstReserved (cmdOf 7 (8 * 2 ^ 52) 432 0) (2 ^ 56 - 1, 2 ^ 40 - 1, 1) = none
    ∧ partState loadState 0 ≠ 2 ∧ partState loadState 0 ≠ 4 ∧ (partOf loadState 0).aborting = false := by decide +kernel

set_option maxRecDepth 100000 in
theorem witness_load_header : 128 ≤ imageBytes.length ∧ field imageBytes 8 8 = imageBytes.length ∧ headerOk imageBytes = true
    ∧ rectOk loadBegun 0 imageBytes = true ∧ field imageBytes 32 8 = partFenced loadBegun 0 := by decide +kernel

set_option maxRecDepth 100000 in
theorem witness_load_map : (imageBytes.drop 40).take 32 = mapHash loadBegun (maskDies (field imageBytes 32 8)) := by decide +kernel

set_option maxRecDepth 100000 in
theorem witness_load_sections : (parseImage loadBegun 0 imageBytes).any (fun i => decide (peatCheck loadBegun 0 i.consist = 0) && !i.resident
    && i.settings.isEmpty) = true := by decide +kernel

set_option maxRecDepth 100000 in
theorem load_closed : ∀ d, d < 48 → dieClosed loadState d = true := by decide +kernel

theorem witness_commit_ok : (validate loadState (1 - boxGen loadState)).ok = true := validate_closed _ _ load_closed

theorem witness_load_routes (i : Image) : (validate (loadRoutes loadBegun 0 i) (1 - boxGen loadBegun)).ok = true := by
  refine validate_closed _ _ (fun d h => ?_)
  have h0 : sameDieStates loadState (taken loadState (cmdOf 7 (8 * 2 ^ 52) 432 0)) := fun _ => rfl
  have h1 := wakePart_dieStates (taken loadState (cmdOf 7 (8 * 2 ^ 52) 432 0)) 0
  have h2 := waitUntil_dieStates loadBegun
  have h3 := mergeRoutes_dieStates (untilUnlocked loadBegun (1 - boxGen loadBegun)) 0 (1 - boxGen loadBegun) i.routes (by omega)
  rw [loadRoutes, dieClosed_congr d h3, untilUnlocked, dieClosed_congr d (h2 _), loadBegun, dieClosed_congr d h1, dieClosed_congr d h0]
  exact load_closed d h

/-! ### Witnesses: ports and queues -/

/-- Port 0 has power and may train; its queue 0 has four entries either way and is enabled, with its doorbell at 1 and a NOP in host memory. -/
def queueState (f : Port → Port) : State :=
  wr (updPort (setDie State.reset 40 { Die.reset with region := true }) 0 (fun x => f { x with linkUp := true, perst := false, sqTail := [(0, 1)] })) (qSize 0 0)
    0x30000030003

set_option maxRecDepth 8000 in
theorem witness_ports : mayTrain (queueState id) 0 = true ∧ mayTrain State.reset 0 = false ∧ qEnabled (queueState id) 0 0 = true ∧ qEnabled State.reset 0 0 = false
    ∧ fld (queueState id) (qSize 0 0) 11 0 = 3 ∧ fld (queueState id) (qSize 0 0) 27 16 = 3
    ∧ (turnOrder (queueState id) 0).find? (sqReady (queueState id) 0) = some 0 ∧ (turnOrder State.reset 0).find? (sqReady State.reset 0) = none
    ∧ bits (readCmd (queueState id) 0 0 0).w0 7 0 ≤ 0x0D ∧ 0x0D < bits (readCmd (writeByte (queueState id) (hostAddr 0 0) 0x20) 0 0 0).w0 7 0
    ∧ (portOf (queueState (fun x => { x with done := [⟨0, 1, 0, 0, 5⟩] })) 0).done.find? (fun c => decide (c.q.val = 0)) = some ⟨0, 1, 0, 0, 5⟩
    ∧ (0 + 1) % (3 + 1) ≠ spGet (portOf (queueState id) 0).cqHead 0 0 := by decide

/-! ### Witnesses: host accesses and registers -/

/-- The offset of scratchpad byte 64 of tile 5. -/
def barOff : BitVec 37 := BitVec.ofNat 37 (tileAddr 5 64)

theorem witness_bar : barAt copyState 0 barOff 5 64 8 ∧ copyState.ecc = [] ∧ keepBlocks copyState 5 64 8 = false
    ∧ keepBlocks (wr copyState (keepReg 5 0) 0x10001000000) 5 64 8 = true ∧ barAt (wr copyState (keepReg 5 0) 0x10001000000) 0 barOff 5 64 8
    ∧ (barAddr barOff.toNat).all (fun a => barRefused State.reset 0 a 8) = true
    ∧ barAddr barOff.toNat = some (tileAddr 5 64) ∧ barRefused (wr copyState (dieStateReg 0) 3) 0 (tileAddr 5 64) 8 = false
    ∧ barClosed (wr copyState (dieStateReg 0) 3) 0 (tileAddr 5 64) = true := by
  simp only [barAt]; decide

/-- Die 0 of partition 0 has power, and cluster 0 is in a state. -/
def sleepState (st p : Nat) : State :=
  setFld (setDie (wr (wr State.reset (partReg 0 0) 1) (dieStateReg 0) 0) 0 { Die.reset with region := true, cstate := spSet [] 0 0 st }) (partReg 0 0x10) 2 0 p

theorem witness_c2 : clusterState (sleepState 2 3) 0 0 = 2 ∧ clusterState (sleepState 0 3) 0 0 < 2 ∧ spGet (dieOf (sleepState 2 3) 0).cstate 0 0 = 2
    ∧ spGet (dieOf (sleepState 0 3) 0).cstate 0 0 ≠ 2 ∧ partOfDie State.reset 0 = none ∧ partOfDie (sleepState 0 3) 0 = some 0 ∧ partState (sleepState 0 3) 0 = 3
    ∧ (dieOf (sleepState 0 3) 0).region = true ∧ (clusterTiles 0 0).all (tileQuiet (sleepState 0 3)) = true
    ∧ (∀ q, q < 8 → partExists (sleepState 0 3) q = true → q = 0) := by decide

theorem witness_registers : boundPart (hostState id) 0 = some 0 ∧ 1000000 ≤ bits 2000000 35 0 ∧ keepLegal (writtenWord State.reset (keepReg 5 0) 0x10001000000) = true
    ∧ (∀ m, m < 4 → m ≠ 0 → keepClash (writtenWord State.reset (keepReg 5 0) 0x10001000000) (rd State.reset (keepReg 5 m)) = false)
    ∧ keepLegal (writtenWord State.reset (keepReg 5 0) 0x10000000000) = false
    ∧ (istoreCtxs 0x700000 8).all (istoreOpen State.reset 5) = true ∧ (istoreCtxs 0x700000 8).all (istoreOpen (running 5 id) 5) = false
    ∧ armed State.reset 5 0 = false ∧ armed (setArmed State.reset 5 0 true) 5 0 = true ∧ adminPort State.reset = (0 : PortId).val
    ∧ adminPort State.reset ≠ (1 : PortId).val := by decide

/-! ### Witnesses: resets and fences -/

/-- Die 0 of partition 0 is open, and tile 5 is as given. -/
def resetState (f : Tile → Tile) : State :=
  setTile (wr (wr State.reset (partReg 0 0) 1) (dieStateReg 0) 0) 5 (f Tile.reset)

/-- A tile with an operation that has started. -/
def busyTile (x : Tile) : Tile := { x with q := { x.q with started := [⟨sendOf, 0, [], none, [], 0, 0⟩] } }

theorem witness_resets : dieClosed State.reset 0 = true ∧ dieClosed (resetState id) 0 = false ∧ tileQuiet (resetState id) 5 = true
    ∧ tileQuiet (resetState busyTile) 5 = false ∧ (clusterTiles 0 1).all (tileQuiet (resetState id)) = true
    ∧ (clusterTiles 0 1).all (tileQuiet (resetState busyTile)) = false ∧ commitPending (resetState id) 0 = false
    ∧ partState (invoked (resetState id) id) 0 = 4 ∧ (partOf (invoked (resetState id) id) 0).invoke.isSome = true
    ∧ (partOf (invoked (resetState id) id) 0).aborting = false ∧ dieClosed (wr State.reset (dieStateReg 40) 0) 40 = false
    ∧ stationQuiet (wr State.reset (dieStateReg 40) 0) 0 = true ∧ partOfDie (resetState id) 0 = some 0 ∧ partState (invoked (resetState id) id) 0 ≠ 0
    ∧ partState (resetState id) 0 ≠ 2 ∧ (resetState id).m.fencedTiles.contains 5 = false ∧ (resetState id).m.fuses.fused.contains 5 = false := by decide

theorem witness_no_step : noStepOn (resetState id) 0 ∧ noStepOn (resetState busyTile) 0 ∧ noStepOn (wr State.reset (dieStateReg 40) 0) 40 := by
  refine ⟨?_, ?_, ?_⟩ <;> intro p _ <;> rfl

set_option maxRecDepth 8000 in
theorem witness_die_quiet : (List.range 144).all (fun i => tileQuiet (resetState id) (0 * 144 + i)) = true
    ∧ (List.range 144).all (fun i => tileQuiet (resetState busyTile) (0 * 144 + i)) = false ∧ closingScopes (resetState id) 0 = []
    ∧ closingScopes (setDie (resetState busyTile) 0 { Die.reset with scope := .closing .die 3 }) 0 = [(3, false)]
    ∧ closingScopes (setDie (resetState id) 0 { Die.reset with scope := .closing .die 3 }) 0 = [(3, true)] := by decide

/-! ### Witnesses: loss of power -/

/-- A module in a phase, with a feed at a voltage. -/
def phaseState (p : PowerPhase) (dv : Nat) (f : Power → Power) : State :=
  updM sigState (fun m => { m with power := f { m.power with phase := p, feedA := dv, feedB := dv } })

theorem witness_power_loss : powered (phaseState .running 430 id) = true ∧ max (phaseState .running 430 id).m.power.feedA (phaseState .running 430 id).m.power.feedB < 440
    ∧ (dieOf (phaseState .running 430 id) 0).region = true ∧ needsFlush (phaseState .running 430 id) 0 = false
    ∧ (phaseState .flushing 0 (fun x => { x with mere := .discharging })).m.power.mere = .discharging
    ∧ (phaseState .flushing 0 id).now ≤ (phaseState .flushing 0 id).m.power.tripAt + 1000000 ∧ (dieOf (phaseState .flushing 0 id) (40 + 0)).region = true
    ∧ (stationOf (phaseState .flushing 0 id) 0).ploss = none ∧ (List.range 8).all (flushed (phaseState .flushing 0 id)) = false
    ∧ (List.range 8).all (flushed (updStation (phaseState .flushing 0 id) 0 (fun x => { x with ploss := some ⟨[], false⟩ }))) = true
    ∧ inputOk (phaseState .lampOnly 540 id) = true ∧ (phaseState .lampOnly 540 id).m.power.tIn ≤ 400 ∧ (phaseState .lampOnly 540 id).m.power.byOff = false
    ∧ (phaseState .lampOnly 540 (fun x => { x with byOff := true })).m.power.byOff = true := by decide

/-! ### Witnesses: the supply -/

/-- Partition 0 runs a step and holds a Mere request and 20% of the Peat read bandwidth. -/
def holding (r0 : Nat) : State :=
  invoked (wr (setFld (hostPart 4) (partReg 0 8) 7 0 r0) (partReg 0 0x18) 0x6400000064) (fun x => { x with
    consist := some { foldConsist with resident := 1000000 } })

set_option maxRecDepth 8000 in
theorem witness_supply : feedOk (0 : BitVec 10).toNat = false ∧ feedOk (540 : BitVec 10).toNat = true ∧ bit (rd (setFld State.reset (s0Power 0x810) 9 0 0x3FF) (s0Power 0x810)) 0 = true
    ∧ convertersOk (setFld State.reset (s0Power 0x810) 9 0 0x3FF) = 10 ∧ convertersOk (setFld State.reset (s0Power 0x810) 9 0 0x0FF) = 8
    ∧ powered (setFld (phaseState .running 540 id) (s0Power 0x810) 9 0 0x0FF) = true
    ∧ (phaseState .bringup 540 (fun x => { x with mere := .discharging })).m.power.mere = .discharging
    ∧ (phaseState .bringup 540 (fun x => { x with mere := .charging })).m.power.mere = .charging := by decide

set_option maxRecDepth 8000 in
theorem witness_timetable : standing (holding 20) 2 = holders (holding 20) 2 ∧ guaranteesFit (holding 20) (holders (holding 20) 2) 2 100 = true
    ∧ standing (holding 20) 1 = holders (holding 20) 1 ∧ holders (holding 20) 1 = [] ++ [0] ∧ guaranteesFit (holding 20) ([] ++ [0]) 1 0 = false
    ∧ guaranteesFit (holding 20) [] 1 0 = true ∧ (partOf (holding 20) 0).invoke.isSome = true := by decide +kernel

theorem witness_allowance : (tileOf State.reset 0).heldOut = [] ∧ tilesOfPart State.reset 0 = [] := by decide

/-! ### Witnesses: governor, heat and coolant -/

/-- Partition 0 of die 0 runs with weight 1, and the module has power. -/
def governed : State := updM (setFld (hostPart 4) (partReg 0 0) 29 22 1) (fun m => { m with power := { m.power with phase := .running, feedA := 540, feedB := 540 } })

set_option maxRecDepth 8000 in
theorem witness_governor : powered governed = true ∧ (∀ d : Nat, d < 1 → governorGear governed d ≤ 4)
    ∧ ((allowances governed (tickPool governed 0) [100]).filter (fun y => decide (0 ∈ liveDies governed y.part))).length = 1 := by decide +kernel

theorem witness_thermal : (dieOf sigState 0).region = true ∧ (0 : DieId).val < 40 ∧ (dieOf sigState 0).thermGear < thermalTarget 96
    ∧ (96 : Nat) = max (hottest ([96].take 8)) (hottest ([90].take 16)) ∧ (∀ i, i < 16 → spGet (dieOf sigState 0).govGear 0 i ≤ 4)
    ∧ (dieOf sigState 40).region = true ∧ (dieOf sigState 40).hotSince = none
    ∧ (dieOf (setDie sigState 40 { Die.reset with region := true, hotSince := some 0 }) 40).hotSince = some 0
    ∧ 0 + 1000000 ≤ (setDie { sigState with vco := 5600000 } 40 { Die.reset with region := true, hotSince := some 0 }).now
    ∧ sigState.m.fencedDies.contains 40 = false := by decide

theorem witness_coolant : (phaseState .standby 540 (fun x => { x with wakeAsked := true })).m.power.wakeAsked = true
    ∧ flowSeen (phaseState .running 540 id) = true ∧ atStage (phaseState .bringup 540 id) 0 = true ∧ atStage (phaseState .running 540 id) 0 = false
    ∧ (phaseState .running 540 (fun x => { x with warmAt := some 0 })).m.power.warmAt = some 0 := by decide

/-! ### Witnesses: bring-up -/

/-- Bring-up at a stage, with S0 and die 0 powered. -/
def booting (n : Nat) (f : Power → Power) : State := setFld (phaseState .bringup 540 f) modStatus 7 4 n

/-- Every die has power and every crossing is usable. -/
def wholeModule (n : Nat) (f : Power → Power) : State :=
  forEach (List.range 48) (booting n f) (fun s d => setDie (wr s (ncbReg d 0x10) 0xFF) d { Die.reset with region := true })

set_option maxRecDepth 8000 in
theorem witness_bringup : State.reset.m.power.phase = .off ∧ mayRamp (booting 1 id) = true ∧ mayRamp (booting 1 (fun x => { x with regionN := 8 })) = false
    ∧ regionOrder.getD 0 0 = 40 ∧ (dieOf (booting 1 id) 0).region = true ∧ (dieOf (booting 1 id) 1).region = false ∧ (booting 1 id).m.fencedDies.contains 0 = false
    ∧ atStage (booting 1 id) 1 = true ∧ (dieOf (booting 1 id) 40).region = true ∧ (dieOf (booting 5 id) (40 + 0)).region = true ∧ atStage (booting 5 id) 5 = true
    ∧ atStage (booting 7 id) 7 = true ∧ atStage (booting 8 id) 8 = true ∧ goodTile (booting 8 id) 5 = true ∧ atStage (booting 3 id) 3 = true
    ∧ (dieOf (wholeModule 9 id) 44).region = true ∧ (wholeModule 9 id).m.sboxS4 = false := by decide

theorem witness_topology : atStage (wholeModule 6 id) 6 = true ∧ lostDies (wholeModule 6 id) [] = [] ∧ lostDies (wholeModule 6 id) [3] = [3] := by decide +kernel

theorem witness_crossings : crossingsWhole (wholeModule 6 id) [] ∧ crossingsWhole (wholeModule 6 id) [3] := by
  simp only [crossingsWhole]
  decide +kernel

theorem witness_expect : (wholeModule 6 id).m.power.expect = none ∧ (∀ s : State, s.m.fencedDies = [] → expectFits s (s.m.fuses.grade, mapHash s (maskDies 0), 0) [] = true)
    ∧ (∀ s : State, s.m.fencedDies = [] → expectFits s (s.m.fuses.grade, mapHash s (maskDies 8), 8) [3] = true)
    ∧ (∀ s : State, expectFits s (s.m.fuses.grade + 1, [], 0) [3] = false ∧ expectFits s (s.m.fuses.grade + 1, [], 0) [] = false) := by
  refine ⟨by decide, ?_, ?_, ?_⟩
  · intro s h; simp only [expectFits, h]; simp; decide
  · intro s h; simp only [expectFits, h]; simp; decide
  · intro s; simp [expectFits]

/-! ### Witnesses: Reedline requests -/

/-- A message without a tag. -/
def plainMsg (type ctr flags : Nat) (body : List Byte) : List Byte :=
  [1, BitVec.ofNat 8 type] ++ leBytes 2 (16 + body.length) ++ [BitVec.ofNat 8 flags, 0, 0, 0] ++ leBytes 8 ctr ++ body

/-- S0 has power and a key is set. -/
def keyed : State := setBit (updM sigState (fun m => { m with reedline := { m.reedline with key := List.replicate 32 7 } })) (s0Health 0xF208) 3

/-- A message with its tag. -/
def taggedMsg (s : State) (type ctr : Nat) (body : List Byte) : List Byte :=
  let m := [1, BitVec.ofNat 8 type] ++ leBytes 2 (32 + body.length) ++ [1, 0, 0, 0] ++ leBytes 8 ctr ++ body
  m ++ tagOf s m

/-- The same with a known source other than 9. -/
def strict (s : State) : State := wr s (s0Health 0xF230) 5

theorem witness_reedline : phyAlive State.reset = false ∧ heard sigState 9 = true ∧ heard (strict sigState) 5 = true ∧ knownSource (strict sigState) 9 = false
    ∧ phyAlive (strict sigState) = true ∧ msgOk (plainMsg 1 0 4 []) = false ∧ msgType (plainMsg 1 0 4 []) = 1 ∧ msgType (plainMsg 2 0 0 []) ≠ 1 := by decide

theorem witness_requests : asks sigState 9 (plainMsg 1 7 0 []) 1 ∧ asks sigState 9 (plainMsg 2 7 0 [0, 4, 0, 0, 0, 0, 0, 0]) 2
    ∧ censusRange (plainMsg 2 7 0 [0, 4, 0, 0, 0, 0, 0, 0]) = true ∧ censusRange (plainMsg 2 7 0 [0, 0, 0, 0, 0, 0, 0, 0]) = false
    ∧ asks sigState 9 (plainMsg 2 7 0 [0, 3, 1, 0, 0, 0, 0, 0]) 2 ∧ mayAsk sigState (plainMsg 2 7 0 [0, 3, 1, 0, 0, 0, 0, 0]) true = false
    ∧ msgRepeat (plainMsg 2 7 2 [0, 4, 0, 0, 0, 0, 0, 0]) = true ∧ asks sigState 9 (plainMsg 2 7 2 [0, 4, 0, 0, 0, 0, 0, 0]) 2
    ∧ askedBefore (updM sigState (fun m => { m with reedline := { m.reedline with asks := [(9, 7, 0, [])] } })) 9 (plainMsg 2 7 2 [0, 4, 0, 0, 0, 0, 0, 0]) = some (9, 7, 0, [])
    ∧ asks sigState 9 (plainMsg 3 7 0 [0, 1, 0, 0, 0, 0, 0, 0]) 3 ∧ mayAsk sigState (plainMsg 3 7 0 [0, 1, 0, 0, 0, 0, 0, 0]) true = false
    ∧ asks sigState 9 (plainMsg 0x90 1 0 []) 0x90 ∧ mayAsk sigState (plainMsg 0x90 1 0 []) false = true ∧ mayAsk keyed (plainMsg 0x90 1 0 []) false = false
    ∧ asks keyed 9 (plainMsg 0x90 1 0 []) 0x90 ∧ asks sigState 9 (plainMsg 0x21 1 0 (List.replicate 64 0)) 0x21
    ∧ mayAsk sigState (plainMsg 0x21 1 0 (List.replicate 64 0)) false = true := by simp only [asks]; decide +kernel

theorem witness_ledger_get : asks keyed 9 (taggedMsg keyed 3 7 [0, 1, 0, 0, 0, 0, 0, 0]) 3 ∧ mayAsk keyed (taggedMsg keyed 3 7 [0, 1, 0, 0, 0, 0, 0, 0]) true = true
    ∧ msgFld (taggedMsg keyed 3 7 [0, 1, 0, 0, 0, 0, 0, 0]) 5 0 < 48 ∧ msgFld (taggedMsg keyed 3 7 [0, 1, 0, 0, 0, 0, 0, 0]) 15 8 = 1
    ∧ msgFld (taggedMsg keyed 3 7 [0, 0, 0, 0, 0, 0, 0, 0]) 15 8 = 0 ∧ mayAsk keyed (taggedMsg keyed 3 7 [0, 0, 0, 0, 0, 0, 0, 0]) true = true := by
  simp only [asks]; decide +kernel

/-- The EXPECT that names this module and its state. -/
theorem witness_expect_msg : (missingDies (setFld (booting 6 id) (dieStateReg 3) 10 7 1)) = [3] ∧ bit (rd (setFld (booting 6 id) modStatus 1 1 1) modStatus) 1 = true
    ∧ stageOf (booting 6 id) = 6 ∧ bit (rd (booting 6 id) modStatus) 1 = false ∧ missingDies (booting 6 id) = [] ∧ stageOf (booting 7 id) = 7 := by decide +kernel

theorem witness_alarm_repeat : (updM State.reset (fun m => { m with reedline := { m.reedline with alarms := [⟨3, 1, none, 0, 0, 1, false⟩] } })).m.reedline.alarms.find?
    (fun a => decide (a.ctr = (3 : Lane))) = some ⟨3, 1, none, 0, 0, 1, false⟩ := by decide

/-- An EXPECT of this module with a grade, a hash and eight bytes of a mask. -/
def expectMsg (g : Byte) (h z : List Byte) : List Byte := plainMsg 0x21 1 0 (List.replicate 16 0 ++ [g, 0, 0, 0, 0, 0, 0, 0] ++ h ++ z)

theorem expectMsg_eq (g : Byte) (h z : List Byte) (e : h.length = 32) (ez : z.length = 8) : expectMsg g h z
    = ([1, 0x21, 80, 0, 0, 0, 0, 0, 1, 0, 0, 0, 0, 0, 0, 0] ++ List.replicate 16 0 ++ [g, 0, 0, 0, 0, 0, 0, 0]) ++ (h ++ z) := by
  simp [expectMsg, plainMsg, e, ez, leBytes]

theorem expectIn_msg (g : Byte) (h z : List Byte) (e : h.length = 32) (ez : z.length = 8) : expectIn (expectMsg g h z) = (g, h, leNat z) := by
  have m := expectMsg_eq g h z e ez
  have d : (expectMsg g h z).drop 40 = h ++ z := by rw [m]; exact List.drop_left' rfl
  have d2 : (expectMsg g h z).drop 72 = z := by rw [show 72 = 40 + 32 from rfl, ← List.drop_drop, d]; exact List.drop_left' e
  have d3 : (expectMsg g h z).drop 32 = [g, 0, 0, 0, 0, 0, 0, 0] ++ (h ++ z) := by rw [m, List.append_assoc]; exact List.drop_left' rfl
  simp only [expectIn, msgNat, d, d2, d3, List.take_left' e, ← ez, List.take_length]
  simp [leNat]

theorem witness_expect_agrees (s : State) (hf : s.m.fencedDies = []) (hm : s.m.fuses.moduleId = List.replicate 16 0) :
    expectFits s (expectIn (expectMsg s.m.fuses.grade (mapHash s (maskDies 0)) (List.replicate 8 0))) [] = true
      ∧ expectFits s (expectIn (expectMsg s.m.fuses.grade (mapHash s (maskDies 8)) [8, 0, 0, 0, 0, 0, 0, 0])) [3] = true
      ∧ expectFits s (expectIn (expectMsg (s.m.fuses.grade + 1) (List.replicate 32 0) (List.replicate 8 0))) [] = false
      ∧ ((expectMsg s.m.fuses.grade (mapHash s (maskDies 0)) (List.replicate 8 0)).drop 16).take 16 = s.m.fuses.moduleId := by
  refine ⟨?_, ?_, ?_, ?_⟩
  · rw [expectIn_msg _ _ _ (mapHash_length ..) rfl]; exact witness_expect.2.1 s hf
  · rw [expectIn_msg _ _ _ (mapHash_length ..) rfl]; exact witness_expect.2.2.1 s hf
  · rw [expectIn_msg _ _ _ rfl rfl]; simp [expectFits]
  · rw [expectMsg_eq _ _ _ (mapHash_length ..) rfl, hm]; simp

theorem witness_module_id : (booting 7 id).m.fencedDies = [] ∧ (booting 7 id).m.fuses.moduleId = List.replicate 16 0 := by decide

/-! ### Witnesses: Reedline commands, PLCA, the test connector -/

/-- A CMD with an OP and an argument, tagged by the key of `keyed`. -/
def cmdMsg (op arg : Nat) : List Byte := taggedMsg keyed 0x20 7 (leBytes 2 op ++ leBytes 6 arg)

set_option maxRecDepth 8000 in
theorem witness_commands : cmdFresh keyed 9 (cmdMsg 1 0) 1 ∧ cmdFresh keyed 9 (cmdMsg 2 0) 2 ∧ cmdFresh keyed 9 (cmdMsg 3 0) 3 ∧ cmdFresh keyed 9 (cmdMsg 4 5) 4
    ∧ cmdFresh keyed 9 (cmdMsg 5 0x2003) 5 ∧ cmdFresh keyed 9 (cmdMsg 5 7) 5 ∧ cmdFresh keyed 9 (cmdMsg 6 2000) 6 ∧ cmdArg (cmdMsg 6 2000) = 2000 := by
  simp only [cmdFresh, cmdHeard, asks]; decide +kernel

/-- `keyed` with its key replaced in the UCLK cycle under way. -/
def rekeyed : State := writeKey keyed 3 5

set_option maxRecDepth 8000 in
theorem witness_rekeyed : cmdHeard rekeyed 9 (cmdMsg 6 2000) 6 ∧ keySet rekeyed = true ∧ taggedBefore rekeyed (cmdMsg 6 2000) = some (keyNow keyed)
    ∧ (keyNow keyed).ctr.toNat < msgCtr (cmdMsg 6 2000) ∧ 1024 ≤ cmdArg (cmdMsg 6 2000) := by
  simp only [cmdHeard, asks]; decide +kernel

theorem witness_command_states : someWork keyed = false ∧ someWork (hostPart 4) = true
    ∧ (updM keyed (fun m => { m with power := { m.power with phase := .standby } })).m.power.phase = .standby ∧ keyed.m.power.tIn ≤ 400
    ∧ (cmdArg (cmdMsg 5 0x2003)).testBit 13 = true ∧ cmdArg (cmdMsg 5 0x2003) % 64 = 3 ∧ partOfDie keyed 3 = none
    ∧ (updM keyed (fun m => { m with fencedDies := [3], fencedTiles := [7] })).m.fencedDies.contains 3 = true
    ∧ cmdHeard sigState 9 (plainMsg 0x20 7 0 [4, 0, 5, 0, 0, 0, 0, 0]) 4 ∧ keySet sigState = false
    ∧ msgCtr (cmdMsg 1 0) ≤ (rd (wr keyed (s0Health 0xF258) 9) (s0Health 0xF258)).toNat ∧ releasedDie 0x203F = 63 := by
  simp only [cmdHeard, asks]; decide +kernel

theorem witness_plca : fld sigState (s0Health 0xF208) 1 0 = 0 ∧ fld (wr sigState (s0Health 0xF208) 1) (s0Health 0xF208) 1 0 = 1
    ∧ fld (wr sigState (s0Health 0xF208) 3) (s0Health 0xF208) 1 0 = 3 ∧ phyAlive (wr sigState (s0Health 0xF208) 3) = true ∧ sigState.m.reedline.fallback = false
    ∧ (updM sigState (fun m => { m with reedline := { m.reedline with fallback := true } })).m.reedline.fallback = true := by decide

theorem witness_tap : (phaseState .running 540 id).m.power.phase ≠ .off ∧ chainFree (phaseState .running 540 id) = true ∧ chainFree sweeping = false
    ∧ chainFree (updM (hostPart 4) (fun m => { m with power := { m.power with phase := .running } })) = false
    ∧ chainFree (setDie (updM (hostPart 4) (fun m => { m with power := { m.power with phase := .running } })) 40 { Die.reset with region := true }) = true
    ∧ someWork (setDie (updM (hostPart 4) (fun m => { m with power := { m.power with phase := .running } })) 40 { Die.reset with region := true }) = true
    ∧ chainDie 0 < 48 ∧ (dieOf (wholeModule 9 id) (chainDie 0)).region = true ∧ chainFree (wholeModule 9 id) = true := by decide +kernel

theorem witness_tap_ops : tapOp 0xFF = .bypass ∧ tapOp 0xA5 = .mchain ∧ tapNext .exit1Ir true = .updIr ∧ tapNext .exit1Dr true = .updDr ∧ tapNext .capDr false = .shiftDr := by
  decide

/-! ### Witnesses: the invariant -/

theorem witness_canonical : memoryCanonical State.reset ∧ step State.reset = .next { State.reset with vco := 1 } := ⟨rfl, rfl⟩

/-! ### Witnesses: hypotheses of single clauses -/

theorem witness_counters : clusterState (withX 5 []) 0 (clusterOf 5) ≠ 3 ∧ (tileOf (withX 5 []) 5).stallAt ≤ (withX 5 []).vco
    ∧ clusterState (setDie State.reset 0 { Die.reset with cstate := [(clusterOf 5, 3)] }) 0 (clusterOf 5) = 3 := by decide

/-- Entry 7 of tile 5 as a LOCAL_INC that adds 1 to counter 2 when counter 0 reaches 0. -/
def incState : State := wr (wr (inPart [(2, 7)]) (trigReg 5 7 0) 0x500000000000) (trigReg 5 7 3) 0x10002

theorem witness_ntrig_inc : armOk incState 5 7 = true ∧ armedEntries incState 5 = [] ∧ firesLocalInc incState 5 7 ∧ issues incState 5 [2] = true
    ∧ (xNow incState 5 2).toNat = 7 ∧ bits (rd incState (trigReg 5 7 3)) 5 0 = 2 := by
  refine ⟨by decide, by decide, ⟨by decide, by decide, by decide, by decide, by decide, by decide, by decide⟩, by decide, by decide, by decide⟩

theorem witness_ni_fired : (tileOf (niState (fun q => { q with fire := [sendOf] })) 5).q.fire = [sendOf] ∧ (tileOf (niState (fun q => { q with fire := [sendOf] })) 5).q.ni = []
    ∧ firedBad (wr (niState (fun q => { q with fire := [sendOf] })) (partReg 0 0) 1) 5 sendOf = none ∧ toInject (niState id) 5 3 = [] ∧ heldBack (niState id) 5 3 = false := by
  decide

theorem witness_contribute : mayContribute sigTile (nodeKey (.tile 5)) 0 .self = true ∧ ownOr sigTile 5 0 .self 0 = 0 ∧ ownCp sigTile 5 0 .self 0 0 = (0, 0)
    ∧ mayContribute sigTile 5 0 (.child .west) = true ∧ mayContribute (sigRoot id) 5760 0 (.child .north) = true
    ∧ mayContribute State.reset 5 0 .self = false ∧ parityCount sigTile 5 1 7 = 0
    ∧ parityCount (updNode sigTile 5 (fun n => { n with errs := [(1, (7, 3))] })) 5 1 7 = 3
    ∧ sigReaches sigFuel sigState 5 0 5 = true ∧ sigReaches sigFuel State.reset 5 0 5 = false ∧ goodTile sigState 5 = true := by decide

theorem witness_power_pads : (1 : BitVec 2) ≠ 0 ∧ powerOk 44 ⟨2, 1, 2, 0⟩ = false ∧ 40 ≤ (44 : DieId).val := by decide

theorem witness_ejected : (ejected (fromS0 (peatState id)) (toS0 3 1 (ext1 2) [])).isSome = true
    ∧ (ejected (fromS0 (peatState id)) (toS0 2 0 0x1000 [1, 2])).isSome = true ∧ ({ toS0 3 0 (ext1 8) [] with poison := true, nakr := 5 } : Packet).nakr = 5 := by decide

theorem witness_flash_turn : setLines (stationOf (peatState (fun x => { x with reads := [(12, toS0 3 1 (ext1 1) [])] })) 0) ⟨0, 12, 0⟩ = []
    ∧ (readTurn (peatState (fun x => { x with reads := [(12, toS0 3 1 (ext1 1) [])] })) 0 12 0 0).isSome = true := by decide

theorem witness_class_k : (partOf (peatState id) 0).resSaved = true
    ∧ (partOf (updPart (peatState id) 0 (fun x => { x with resSaved := false })) 0).resSaved = false := by decide

theorem witness_run_commands : accepted (hostState id) (cmdOf 7 0x1000 432 0) 7 (2 ^ 56 - 1, 2 ^ 40 - 1, 1) false
    ∧ accepted (hostState id) (cmdOf 10 (8 * 2 ^ 52 + 0x1000) (tileAddr 5 64) 8) 10 (2 ^ 56 - 1, 2 ^ 56 - 1, 0xFFFFFFFF) false
    ∧ (partOf (updPart (hostPart 5) 0 (fun x => { x with aborting := true })) 0).aborting = true
    ∧ partState (updPart (hostPart 5) 0 (fun x => { x with aborting := true })) 0 = 5 ∧ copyState.m.fuses.fused.contains 5 = false
    ∧ (portOf copyState 0).linkUp = true ∧ boundPart copyState 0 = some 0 := by
  simp only [accepted]; decide

theorem witness_uncovered : uncoveredPart (hostPart 5) 0 = false := by decide +kernel

theorem witness_msix : bit (rd (wr (queueState id) (qSize 0 0) 0x20330000003) (qSize 0 0)) 41 = true
    ∧ bit (rd (queueState id) (msixCtl 0 3)) 32 = true ∧ bit (rd (wr (queueState id) (msixCtl 0 3) 0) (msixCtl 0 3)) 32 = false
    ∧ bit (0 : Word) 32 = false ∧ bit (rd (wr State.reset (msixPending 0) 8) (msixPending 0)) (3 : Fin 64) = true := by decide

theorem witness_give : mayGive State.reset = 0 ∧ mayGive { State.reset with tick := ⟨0, [], [], [], some (2, false), none, []⟩ } = 2 := by decide

theorem witness_c3 : clusterState (sleepState 3 3) (1 / 144) (clusterOf (1 % 144)) = 3
    ∧ spGet (State.reset.ticks.before) (rd State.reset (portErr 0)) (portErr 0) = 0 := by decide

theorem witness_station_reset : stationQuiet (updStation (wr State.reset (dieStateReg 40) 0) 0 (fun x => { x with hold := [(0, toS0 3 1 (ext1 2) [])] })) 0 = false
    ∧ (dieOf (wr State.reset (dieStateReg 40) 0) 40).epMissed = none := by decide

/-- Die 0 runs partition 0 with a resident bank, and tile 5 has a KEEP range. -/
def keeping : State := updPart (wr (holding 20) (keepReg 5 0) 0x10001000000) 0 (fun x => { x with resSaved := false })

theorem witness_holds : holdsData keeping 0 (clusterOf 5) = true ∧ holdsData (phaseState .running 430 id) 0 0 = false := by decide

theorem witness_s4 : (dieOf (wholeModule 9 id) 40).region = true ∧ (3 : BitVec 8).toNat = 3 ∧ (dieOf (setDie (wholeModule 9 id) 40 Die.reset) 40).region = false := by
  decide +kernel

theorem witness_handed : ({ State.reset with tick := ⟨0, [], [], [], some (2, true), none, []⟩ } : State).ticks.handed = some (2, true) := by decide

/-- The timetable last saw a capacity of the Peat, and none of the rest. -/
def capped (n : Nat) : State := updM (holding 20) (fun m => { m with power := { m.power with caps := [0, 0, n, 0, 0] } })

theorem witness_capacities : guaranteesFit (capped 0) (standing (capped 0) 3) 3 (capacityOf (capped 0) 3) = true
    ∧ capacityOf (capped 0) 3 ≤ (capped 0).m.power.caps.getD 3 0 ∧ (capped 0).m.power.caps.getD 3 0 < 100
    ∧ guaranteesFit (capped 0) (standing (capped 0) 2) 2 (capacityOf (capped 0) 2) = false
    ∧ guaranteesFit (setDie (capped 0) 40 { Die.reset with region := true }) [] 3 0 = true ∧ standing (setDie (capped 0) 40 { Die.reset with region := true }) 3 = []
    ∧ (setDie (capped 0) 40 { Die.reset with region := true }).m.power.caps.getD 3 0 < capacityOf (setDie (capped 0) 40 { Die.reset with region := true }) 3
    ∧ (partOf (holding 20) 0).invoke.isSome = true := by decide +kernel

/-! ### Well-formedness: for each check an ill-formed command that it refuses, beside one that it takes -/

theorem test_wf_type : (Instr.write (pkt 0 1 5 [])).wf = false ∧ (Instr.readReq (pkt 0 1 5 [])).wf = true := by decide

theorem test_wf_size : (Instr.packetRoute 0 .north { pkt 0 1 5 [] with pl64 := 1 }).wf = false
    ∧ (Instr.packetRoute 0 .north { pkt 0 1 5 [] with inlen := 33, data := List.replicate 33 0 }).wf = false
    ∧ (Instr.packetRoute 0 .north { pkt 0 1 5 [] with pl64 := 1, tailb := 3, data := [1, 2, 3] }).wf = true := by decide

theorem test_wf_reserved_type : (Instr.packetRoute 0 .north (pkt 0 6 5 [])).wf = false ∧ (Instr.packetRoute 0 .north (pkt 0 12 5 [])).wf = false := by decide

theorem test_wf_host_read : (Instr.hostMemoryRead 0 (pkt 0 1 5 []) (.data (List.replicate 4097 0))).wf = false
    ∧ (Instr.hostMemoryRead 0 (pkt 0 1 5 []) (.data [1])).wf = true := by decide +kernel

theorem test_wf_bar2 : (Instr.bar2Write 0 0 []).wf = false ∧ (Instr.bar2Write 0 0 [7]).wf = true := by decide

theorem test_wf_governor : (Instr.governorTick [] 0 []).wf = false ∧ (Instr.governorTick (List.replicate 48 1) 0 (List.replicate 48 1)).wf = true := by decide

theorem test_wf_thermal : (Instr.thermalSample 40 (List.replicate 8 50) (List.replicate 16 50)).wf = false
    ∧ (Instr.thermalSample 0 (List.replicate 8 50) (List.replicate 16 50)).wf = true := by decide

theorem test_wf_firmware : (Instr.firmwareLoad [true] 0).wf = false ∧ (Instr.firmwareLoad [true, false] 0).wf = true := by decide

/-! ### The spec's worked examples -/

-- Chapter 1: tile (7, 10) of C21.
theorem test_tile_numbers : tileAddr 3151 0x1000 = 0x000ABF801000 ∧ clusterOf 127 = 14 ∧ 21 * 144 + 127 = 3151 := by decide

-- Chapter 2: four accesses at a stride of 2 KiB, HASH banks 5, 4, 11, 10 and STRICT bank 17.
theorem test_banks : [0x123440, 0x123C40, 0x124440, 0x124C40].map (scrBank false) = [5, 4, 11, 10]
    ∧ [0x123440, 0x123C40, 0x124440, 0x124C40].map (scrBank true) = [17, 17, 17, 17] ∧ scrPlace false 0x123440 / 2048 = 582 := by decide

-- Chapter 3: the W2Q group beginning with 0xE4 and scale 0.25: -0.375, -0.125, 0.125, 0.375.
theorem test_w2q : [0, 1, 2, 3].map (fun c => (decodeWeight .w2q c 0x3E80).1) = [0xBEC00000, 0xBE000000, 0x3E000000, 0x3EC00000] := by decide

-- Chapter 3: 0x3F80_8001 to BF16 under RNE and RTZ.
theorem test_bf16 : (convPlain .bf16 .rne false 0 (decodeFp fmt32 0x3F808001)).1 = 0x3F81
    ∧ (convPlain .bf16 .rtz false 0 (decodeFp fmt32 0x3F808001)).1 = 0x3F80 := by decide

-- Chapter 3: 0.7 as the largest of its G8 block: scale 118, element 0x7B; the residual's scale is 114 and its element 0x6D.
theorem test_g8 : g8Block .rne [] (decodeFp fmt32 0x3F333333 :: List.replicate 31 (decodeFp fmt32 0)) = (0x7B :: List.replicate 31 0 ++ [118], fNX)
    ∧ ((g8Residual (decodeFp fmt32 0x3F333333 :: List.replicate 31 (decodeFp fmt32 0)) (0x7B :: List.replicate 31 0 ++ [118])).1.take 1,
        (g8Residual (decodeFp fmt32 0x3F333333 :: List.replicate 31 (decodeFp fmt32 0)) (0x7B :: List.replicate 31 0 ++ [118])).1.drop 32) = ([0x6D], [114]) := by
  decide +kernel

-- Chapter 3: VTWOSUM(1.0, 2^-30) returns (1.0, 2^-30).
theorem test_twosum : (twosum32 0x3F800000 (97 * 2 ^ 23)).hi = 0x3F800000 ∧ (twosum32 0x3F800000 (97 * 2 ^ 23)).lo = 97 * 2 ^ 23 := by decide

-- Chapter 4: bitmaps 0x9C63 and 0xC639 are eligible, 0x0007 is not; 200 of 256 eligible blocks take the sparse path at a threshold of 77.
theorem test_sparse : eligible 0x9C63 = true ∧ eligible 0xC639 = true ∧ eligible 0x0007 = false
    ∧ sparsePath 77 ⟨256 + 200 * 2 ^ 9, [], []⟩ = true ∧ sparsePath 201 ⟨256 + 200 * 2 ^ 9, [], []⟩ = false := by decide

-- Chapter 4: a column of 8 pairs with 56 of its 128 holding a violating block: a pair costs one slot, or two with a violating block.
theorem test_pair_slots : pairSlots true (List.replicate 16 (false, true)) = 8 ∧ pairSlots true ((false, false) :: List.replicate 15 (false, true)) = 9
    ∧ pairSlots false (List.replicate 16 (false, true)) = 16 := by decide

-- Chapter 5: the words of Table 5.11, and one word of every other family written out from Tables 5.1 and 5.4: MAJ [63:58], FN [57:52], D [51:47],
-- A [46:42], B [41:37], C [36:32] and the low half.
theorem test_decode_words : decodeWord 7 0x4802044300000002 = some (.vfma 7 ⟨4, 1, 2, 3, 2⟩) ∧ decodeWord 7 0x804014000000004C = some (.nwait 7 ⟨0, 5, 0, 0, 0x4C⟩)
    ∧ decodeWord 7 0x6011002000000000 = some (.tmuls 7 ⟨2, 0, 1, 0, 0⟩)
    ∧ decodeWord 7 0b000001_000001_00100_00010_00011_00000_00000000000000000000000000000000 = some (.sub 7 ⟨4, 2, 3, 0, 0⟩)
    ∧ decodeWord 7 0b000010_001001_00001_00010_00000_00000_11111111111111111111111111111111 = some (.sltiu 7 ⟨1, 2, 0, 0, 4294967295⟩)
    ∧ decodeWord 7 0b000011_000001_00111_00000_00000_00000_00000000000000000000000000000101 = some (.lih 7 ⟨7, 0, 0, 0, 5⟩)
    ∧ decodeWord 7 0b000100_000110_00001_00010_00000_00000_00000000000000000000000000001000 = some (.ldD 7 ⟨1, 2, 0, 0, 8⟩)
    ∧ decodeWord 7 0b000101_001000_00000_00010_00011_00000_00000000000000000000000100000000 = some (.stV 7 ⟨0, 2, 3, 0, 256⟩)
    ∧ decodeWord 7 0b001000_000111_00000_00001_00010_00000_11111111111111111111111111111110 = some (.bgeu 7 ⟨0, 1, 2, 0, 4294967294⟩)
    ∧ decodeWord 7 0b001010_000000_00001_00010_00000_00000_00000000000000000000000000000101 = some (.jalr 7 ⟨1, 2, 0, 0, 5⟩)
    ∧ decodeWord 7 0b010000_001111_00001_00010_00011_00000_00000000000000000000000000000001 = some (.vaddSel 7 ⟨1, 2, 3, 0, 1⟩)
    ∧ decodeWord 7 0b010001_000100_00001_00010_00000_00000_00000000000000000000000000000000 = some (.vmulLog2 7 ⟨1, 2, 0, 0, 0⟩)
    ∧ decodeWord 7 0b010011_000000_00001_00010_00000_00000_00000000000000000000000000010000 = some (.vcvt 7 ⟨1, 2, 0, 0, 16⟩)
    ∧ decodeWord 7 0b010100_000011_00010_00100_00110_00000_00000000000000000000000000000000 = some (.vcpadd 7 ⟨2, 4, 6, 0, 0⟩)
    ∧ decodeWord 7 0b010101_000100_00010_00100_00000_00000_00000000000000000000000000000000 = some (.vredCpsum 7 ⟨2, 4, 0, 0, 0⟩)
    ∧ decodeWord 7 0b010110_000100_00001_00010_00000_00000_00000000000000000000000000000000 = some (.pnot 7 ⟨1, 2, 0, 0, 0⟩)
    ∧ decodeWord 7 0b011001_000001_00011_00001_00000_00000_00000000000000000000000000000000 = some (.tdget 7 ⟨3, 1, 0, 0, 0⟩)
    ∧ decodeWord 7 0b011100_000010_00000_00001_00010_00011_00000000000000000000000000000100 = some (.shscatter 7 ⟨0, 1, 2, 3, 4⟩)
    ∧ decodeWord 7 0b100000_000101_00000_00001_00010_00000_00000000000000000000000000000000 = some (.ncoll 7 ⟨0, 1, 2, 0, 0⟩)
    ∧ decodeWord 7 0b110000_001010_00000_00000_00000_00000_00000000000000000000000000000000 = some (.brk 7 ⟨0, 0, 0, 0, 0⟩) := by decide

-- Chapter 8: byte 0x800 of page 1,234 of extent 197 in namespace 3 on S6.
theorem test_peat_address : peatNs 0x230018B9348800 = 3 ∧ peatExt 0x230018B9348800 = 197 ∧ peatStn 0x230018B9348800 = 6
    ∧ peatOff 0x230018B9348800 = 1234 * 16384 + 0x800 := by decide

-- Chapter 10: 22 active phases limit a compute die to 825 A.
theorem test_ilim : fld (setPhases State.reset 21 22) (powerReg 21 0) 19 10 = 825 := by decide

-- Chapter 10: with P1's 6 GiB in columns 0 to 3, t_flush is 347.1 ms and E_flush within 1 J of 1,215 J; P2's 8 GiB would take 454.5 ms, and 2 GiB
-- leave t_flush as it is.
theorem test_flush : flushNs [(6 * 2 ^ 30, (List.range 40).filter (fun d => decide (d % 8 < 4)))] / 100000 = 3471
    ∧ 3500 * flushNs [(6 * 2 ^ 30, (List.range 40).filter (fun d => decide (d % 8 < 4)))] / 1000000000 = 1214
    ∧ (flushNs [(6 * 2 ^ 30, (List.range 40).filter (fun d => decide (d % 8 < 4))), (8 * 2 ^ 30, (List.range 40).filter (fun d => decide (4 ≤ d % 8)))] + 50000) / 100000 = 4545
    ∧ flushNs [(6 * 2 ^ 30, (List.range 40).filter (fun d => decide (d % 8 < 4))), (2 * 2 ^ 30, (List.range 40).filter (fun d => decide (4 ≤ d % 8)))]
      = flushNs [(6 * 2 ^ 30, (List.range 40).filter (fun d => decide (d % 8 < 4)))] := by decide +kernel

-- Chapter 12: the 24 bytes of the CENSUS_GET for C08 to C23 are well formed and in range.
theorem test_census_get : msgOk [1, 2, 0x18, 0, 0, 0, 0, 0, 7, 0, 0, 0, 0, 0, 0, 0, 8, 0x10, 0, 0, 0, 0, 0, 0] = true
    ∧ censusRange [1, 2, 0x18, 0, 0, 0, 0, 0, 7, 0, 0, 0, 0, 0, 0, 0, 8, 0x10, 0, 0, 0, 0, 0, 0] = true := by decide

-- Chapter 13: at 42.5 °C and 60 L/min the cap is 23.5 kW.
theorem test_coolant_cap : coolantCap 425 (some 600) = 2350 := by decide

/-! ### Single steps -/

-- R9, R132: ADD wraps; its target may be its source.
theorem test_add_wraps : (match exec (.add 5 ⟨2, 2, 3, 0, 0⟩) (withX 5 [(2, 0xFFFFFFFFFFFFFFFF), (3, 2)]) with
    | .next s => xGet ((tileOf s 5).ctxOf 0) 2
    | _ => 0) = 1 := by decide

-- R132: SRA and SRL of a negative value differ in the bits shifted in.
theorem test_sra : (match exec (.sra 5 ⟨4, 2, 3, 0, 0⟩) (withX 5 [(2, 0x8000000000000000), (3, 67)]) with
    | .next s => xGet ((tileOf s 5).ctxOf 0) 4
    | _ => 0) = 0xF000000000000000 := by decide

-- R124: x0 discards the write.
theorem test_x0 : (match exec (.li 5 ⟨0, 0, 0, 0, 7⟩) (withX 5 []) with
    | .next s => xGet ((tileOf s 5).ctxOf 0) 0
    | _ => 9) = 0 := by decide

-- R133: JALR takes its target modulo 2^13 and links its own index plus 1.
theorem test_jalr : (match exec (.jalr 5 ⟨1, 2, 0, 0, 5⟩) (withX 5 [(2, 8190)]) with
    | .next s => (((tileOf s 5).ctxOf 0).pc, xGet ((tileOf s 5).ctxOf 0) 1)
    | _ => (0, 0)) = (3, 1) := by decide

-- R9, R134: ST_W stores four bytes, the lowest first, and the byte after them stays.
theorem test_store_little_endian : (match exec (.stW 5 ⟨0, 2, 3, 0, 0⟩) (withX 5 [(2, 0x100), (3, 0x11223344)]) with
    | .next s => (List.range 5).map (fun i => readByte s (tileAddr 5 (0x100 + i)))
    | _ => []) = [0x44, 0x33, 0x22, 0x11, 0] := by decide

-- R261: a feed outside its range hands the load to the other.
theorem test_feed_out : (match exec (.feedOutOfRange true 0) (updM State.reset (fun m => { m with power := { m.power with feedA := 540, feedB := 540 } })) with
    | .next s => (s.m.power.shareA, s.m.power.shareB, fld s mpwrIn 41 40)
    | _ => (0, 0, 9)) = (100, 0, 0) := by decide

-- R288: power brings the module to stage 1 with both feeds in range.
theorem test_power_applied : (match exec (.powerApplied 540 540) State.reset with
    | .next s => (s.m.power.phase, stageOf s, fld s mpwrIn 41 40)
    | _ => (.off, 9, 9)) = (.bringup, 1, 3) := by decide

end Sys2Proof.Tests
end

section
/-!
SUPPORT. Registers: which fields a key has, what a stored word holds field by field, and the keys of tiles, ports and S0.
-/

namespace Sys2Proof.Proofs

open Sys2Proof Sys2Proof.Machine Sys2Proof.Laws

/-! ### The register map -/

/-- An offset has the fields of a range that holds it, or none where no range does. -/
theorem fieldsAt_cases (rs : List RegRange) (off : Nat) :
    (fieldsAt rs off = [] ∧ ∀ r ∈ rs, r.holds off = false) ∨ ∃ r ∈ rs, r.holds off = true ∧ fieldsAt rs off = r.fields := by
  induction rs with
  | nil => exact .inl ⟨rfl, by simp⟩
  | cons r rs ih =>
    simp only [fieldsAt]
    cases h : r.holds off with
    | true => exact .inr ⟨r, List.mem_cons_self, h, if_pos rfl⟩
    | false =>
      rcases ih with ⟨he, hn⟩ | ⟨q, hq, hh, he⟩
      · exact .inl ⟨by simpa using he, by simpa [h] using hn⟩
      · exact .inr ⟨q, List.mem_cons_of_mem _ hq, hh, by simpa using he⟩

/-- A register that some range holds has fields, where every range has some. -/
theorem fieldsAt_ne_nil {rs : List RegRange} {off : Nat} (hf : ∀ r ∈ rs, r.fields ≠ []) (h : ∃ r ∈ rs, r.holds off = true) :
    fieldsAt rs off ≠ [] := by
  rcases fieldsAt_cases rs off with ⟨-, hn⟩ | ⟨q, hq, -, he⟩
  · obtain ⟨r, hr, hh⟩ := h
    exact absurd hh (by simp [hn r hr])
  · rw [he]; exact hf q hq

/-- No field of a register is locked by RWL. -/
def lockFree (fs : List RegField) : Bool := fs.all (fun f => decide (f.acc ≠ .rwl))

/-- The fields of a register lie in the word and apart from each other. -/
def fieldsApart (fs : List RegField) : Bool :=
  decide (fs.Pairwise (fun f g => f.hi < g.lo ∨ g.hi < f.lo) ∧ ∀ f ∈ fs, f.lo ≤ f.hi ∧ f.hi < 64)

theorem fieldsApart_iff (fs : List RegField) :
    fieldsApart fs = true ↔ fs.Pairwise (fun f g => f.hi < g.lo ∨ g.hi < f.lo) ∧ ∀ f ∈ fs, f.lo ≤ f.hi ∧ f.hi < 64 := decide_eq_true_iff

/-- What every range of a map that holds an offset has, the register at the offset has, and so has an empty one. -/
theorem fieldsAt_all {rs : List RegRange} {off : Nat} (P : List RegField → Prop) (h0 : P []) (h : ∀ r ∈ rs, r.holds off = true → P r.fields) :
    P (fieldsAt rs off) := by
  rcases fieldsAt_cases rs off with ⟨he, -⟩ | ⟨q, hq, hh, he⟩
  · rw [he]; exact h0
  · rw [he]; exact h q hq hh

/-- The maps of the register tables. -/
def regMaps : List (List RegRange) :=
  [tileRegs, clusterRegs, tebRegs, ncbRegs, psbRegs, portRegs, moduleRegs, powerRegs, modulePowerRegs, healthRegs, s0Regs]

/-- What the registers of every map have, and an address without one, every key has. -/
theorem keyFields_all (P : List RegField → Prop) (h0 : P []) (h : ∀ rs ∈ regMaps, ∀ off, P (fieldsAt rs off)) (key : Nat) : P (keyFields key) := by
  simp only [regMaps, List.forall_mem_cons] at h
  obtain ⟨tile, cluster, teb, ncb, psb, port, modul, power, modulePower, health, s0, -⟩ := h
  unfold keyFields
  dsimp only
  repeat' split
  all_goals simp [*]

/-- The fields of every register lie apart. -/
theorem keyFields_apart (key : Nat) : fieldsApart (keyFields key) = true := by
  have hr : ∀ rs ∈ regMaps, ∀ r ∈ rs, fieldsApart r.fields = true := by decide
  exact keyFields_all (fun fs => fieldsApart fs = true) rfl
    (fun rs hrs off => fieldsAt_all (fun fs => fieldsApart fs = true) rfl (fun r hm _ => hr rs hrs r hm)) key

/-! ### Fields of a stored word -/

/-- A fold is a matter of what its step does at the elements of the list. -/
theorem foldl_congr_mem {α β : Type} {f g : β → α → β} {l : List α} (h : ∀ b a, a ∈ l → f b a = g b a) (b : β) : l.foldl f b = l.foldl g b := by
  induction l generalizing b with
  | nil => rfl
  | cons a l ih =>
    rw [List.foldl_cons, List.foldl_cons, h b a List.mem_cons_self]
    exact ih (fun b c hc => h b c (List.mem_cons_of_mem _ hc)) _

/-- Fields put into a word leave a field apart from all of them alone. -/
theorem bits_foldl_putBits_apart (c : RegField → Nat) (hi lo : Nat) :
    ∀ (fs : List RegField) (w : Word), (∀ f ∈ fs, f.lo ≤ f.hi ∧ f.hi < 64) → (∀ f ∈ fs, hi < f.lo ∨ f.hi < lo) →
      bits (fs.foldl (fun w f => putBits w f.hi f.lo (c f)) w) hi lo = bits w hi lo := by
  intro fs
  induction fs with
  | nil => intros; rfl
  | cons f fs ih =>
    intro w hw ha
    obtain ⟨hl, hh⟩ := hw f List.mem_cons_self
    rw [List.foldl_cons, ih _ (fun g hg => hw g (List.mem_cons_of_mem _ hg)) (fun g hg => ha g (List.mem_cons_of_mem _ hg)),
      bits_putBits_apart _ _ _ _ _ _ hl hh (ha f List.mem_cons_self)]

/-- Of fields put into a word that lie apart, each reads as the low bits of its value. -/
theorem bits_foldl_putBits_mem (c : RegField → Nat) :
    ∀ (fs : List RegField) (w : Word) (f : RegField), fieldsApart fs = true → f ∈ fs →
      bits (fs.foldl (fun w f => putBits w f.hi f.lo (c f)) w) f.hi f.lo = c f % 2 ^ (f.hi + 1 - f.lo) := by
  intro fs
  induction fs with
  | nil => intro w f _ hf; simp at hf
  | cons g fs ih =>
    intro w f ha hf
    obtain ⟨hp, hw⟩ := (fieldsApart_iff _).1 ha
    obtain ⟨hg, hp⟩ := List.pairwise_cons.1 hp
    have hw' : ∀ q ∈ fs, q.lo ≤ q.hi ∧ q.hi < 64 := fun q hq => hw q (List.mem_cons_of_mem _ hq)
    rw [List.foldl_cons]
    rcases List.mem_cons.1 hf with rfl | hf
    · obtain ⟨hl, hh⟩ := hw f List.mem_cons_self
      rw [bits_foldl_putBits_apart c _ _ _ _ hw' hg, bits_putBits_same _ _ _ _ hl hh]
    · exact ih _ f ((fieldsApart_iff _).2 ⟨hp, hw'⟩) hf

/-- A field is smaller than its width allows. -/
theorem bits_lt (w : Word) (hi lo : Nat) : bits w hi lo < 2 ^ (hi + 1 - lo) := Nat.mod_lt _ (Nat.two_pow_pos _)

/-- A field is its low part and, above it, its high part. -/
theorem bits_split (w : Word) {hi mid lo : Nat} (h : lo ≤ mid) (h' : mid < hi) :
    bits w hi lo = bits w mid lo + 2 ^ (mid + 1 - lo) * bits w hi (mid + 1) := by
  simp only [bits, Nat.shiftRight_eq_div_pow]
  rw [show hi + 1 - lo = (mid + 1 - lo) + (hi + 1 - (mid + 1)) by omega, Nat.pow_add, Nat.mod_mul, Nat.div_div_eq_div_mul, ← Nat.pow_add,
    show lo + (mid + 1 - lo) = mid + 1 by omega]

/-- A bit is a field of one bit. -/
theorem bits_bit (w : Word) (i : Nat) : bits w i i = b2n (bit w i) := by
  simp only [bits, bit, b2n, BitVec.getLsbD, Nat.testBit, show i + 1 - i = 1 by omega, Nat.pow_one]
  rcases Nat.mod_two_eq_zero_or_one (w.toNat >>> i) with h | h <;> simp [h]

/-! ### Storing a register -/

/-- A field without a lock takes the same value whether the register is locked or not. -/
theorem fieldWrite_lock {f : RegField} (h : f.acc ≠ .rwl) (key : Nat) (a b : Bool) (rose old new : Word) :
    fieldWrite key a rose f old new = fieldWrite key b rose f old new := by
  unfold fieldWrite
  cases ha : f.acc <;> simp_all

/-- A register without locked fields takes the same word whether it is locked or not. -/
theorem writeFields_lock {fs : List RegField} (h : lockFree fs = true) (key : Nat) (a b : Bool) (rose old new : Word) :
    writeFields key a rose fs old new = writeFields key b rose fs old new := by
  simp only [lockFree, List.all_eq_true, decide_eq_true_eq] at h
  unfold writeFields
  exact foldl_congr_mem (fun w f hf => by rw [fieldWrite_lock (h f hf) key a b]) _

/-- A register with fields, none of them locked, takes the word of R342, and nothing else changes. -/
theorem storeReg_eq_wr (s : State) {key : Nat} (v : Word) (hn : keyFields key ≠ []) (hl : lockFree (keyFields key) = true) :
    storeReg s key v = wr s key (writtenWord s key v) := by
  have hr : rwlChanged (keyFields key) (rd s key) v = false := by
    simp only [lockFree, List.all_eq_true, decide_eq_true_eq] at hl
    simp only [rwlChanged, List.any_eq_false]
    intro f hf
    simp [hl f hf]
  simp [storeReg, hr, hn, writtenWord]

/-- The word that a write gives is a matter of the register's word and of this cycle's events in it. -/
theorem writtenWord_congr {s s' : State} {key : Nat} (v : Word) (hl : lockFree (keyFields key) = true) (hr : rd s' key = rd s key)
    (ht : roseNow s' key = roseNow s key) : writtenWord s' key v = writtenWord s key v := by
  simp only [writtenWord, hr, ht]
  exact writeFields_lock hl _ _ _ _ _ _

/-- A field that may be written takes the value written, if its range allows that value, and else keeps its own. -/
theorem bits_writtenWord_rw (s : State) {key : Nat} (v : Word) {f : RegField} (hf : f ∈ keyFields key)
    (hrw : f.acc = .rw) :
    bits (writtenWord s key v) f.hi f.lo = if fieldOk key f.lo (bits v f.hi f.lo) = true then bits v f.hi f.lo else fld s key f.hi f.lo := by
  simp only [writtenWord, writeFields]
  rw [bits_foldl_putBits_mem _ _ _ f (keyFields_apart key) hf]
  simp only [fieldWrite, hrw, fld]
  split <;> exact Nat.mod_eq_of_lt (bits_lt _ _ _)

/-! ### Keys -/

/-- A register of a tile lies in its tile's own range of tile space. -/
theorem tileReg_parts (t : TileId) {off : Nat} (h : off < 0x10000) :
    tileReg t off / 2 ^ 52 = 0 ∧ tileReg t off / 2 ^ 31 = t.val / 144 ∧ tileReg t off / 2 ^ 23 % 256 = t.val % 144
      ∧ tileReg t off % 2 ^ 23 = 0x7F0000 + off := by
  have := t.isLt
  simp only [tileReg, tileAddr]
  omega

/-- The fields of a tile register. -/
theorem keyFields_tileReg (t : TileId) {off : Nat} (h : off < 0x8000) : keyFields (tileReg t off) = fieldsAt tileRegs off := by
  obtain ⟨h1, -, h3, h4⟩ := tileReg_parts t (show off < 0x10000 by omega)
  simp only [keyFields, h1, h3, h4]
  rw [if_pos trivial, if_neg (by omega), if_neg (by omega), if_pos (by omega), Nat.add_sub_cancel_left]

/-- The fields of a port register. -/
theorem keyFields_portReg (n : PortId) {off : Nat} (h : off < 2 ^ 32) (hm : off < 0x10000 ∨ 0x10200 ≤ off) :
    keyFields (portReg n off) = fieldsAt portRegs off := by
  have := n.isLt
  have h1 : portReg n off / 2 ^ 52 = 3 := by simp only [portReg]; omega
  have h2 : portReg n off % 2 ^ 32 = off := by simp only [portReg]; omega
  simp only [keyFields, h1, h2]
  rw [if_neg (by decide), if_neg (by decide), if_pos trivial, if_neg (by omega)]

/-- Of the tile registers only the one at 0xA0 has locked fields. -/
theorem lockFree_tileReg (t : TileId) {off : Nat} (h : off < 0x8000) (ha : off ≠ 0xA0) : lockFree (keyFields (tileReg t off)) = true := by
  rw [keyFields_tileReg t h]
  have hr : ∀ r ∈ tileRegs, lockFree r.fields = true ∨ (r.base = 0xA0 ∧ r.count = 1 ∧ r.stride = 8) := by decide
  refine fieldsAt_all (fun fs => lockFree fs = true) rfl (fun r hm hh => (hr r hm).resolve_right ?_)
  rintro ⟨hb, hc, hs⟩
  simp only [RegRange.holds, hb, hc, hs, Bool.and_eq_true, decide_eq_true_eq] at hh
  omega

/-- A tile register that the map holds has fields. -/
theorem keyFields_tileReg_ne_nil (t : TileId) {off : Nat} (h : off < 0x8000) (hh : ∃ r ∈ tileRegs, r.holds off = true) :
    keyFields (tileReg t off) ≠ [] := by
  rw [keyFields_tileReg t h]
  exact fieldsAt_ne_nil (by decide) hh

end Sys2Proof.Proofs
end

section
/-!
SUPPORT. What wakes on the way of a write into a tile, the writes of tile registers, of whole words of the instruction store, and tile events.
-/

namespace Sys2Proof.Proofs

open Sys2Proof Sys2Proof.Machine Sys2Proof.Laws

/-! ### Registers and memory as parts of the state -/

/-- A register's word is a matter of the register file. -/
theorem rd_congr {s s' : State} (h : s'.regs = s.regs) (k : Nat) : rd s' k = rd s k := by simp only [rd, h]

/-- What an event has set in this cycle is a matter of the cycle and its record. -/
theorem roseNow_congr {s s' : State} (ht : s'.tick = s.tick) (hv : s'.vco = s.vco) (k : Nat) : roseNow s' k = roseNow s k := by
  have h : s'.ticks = s.ticks := by unfold State.ticks uclk; rw [ht, hv]
  rw [roseNow, roseNow, h]

/-- Memory that is not touched reads as it did. -/
theorem sameMemory_of_eq {s s' : State} (he : s'.ecc = s.ecc) (hc : s'.cells = s.cells) (hu : s'.undef = s.undef) : sameMemory s s' :=
  ⟨he, fun a => by simp only [readByte, hc, hu]⟩

/-- Counting in a register leaves every other register alone. -/
theorem rd_addFld_ne (s : State) {k j : Nat} (hi lo n : Nat) (h : j ≠ k) : rd (addFld s k hi lo n) j = rd s j := by
  rw [addFld, rd_setFld_ne _ _ _ _ h]; rfl

/-- A counter that counts wraps at its width. -/
theorem fld_addFld_same (s : State) (k hi lo n : Nat) (h : lo ≤ hi) (h' : hi < 64) :
    fld (addFld s k hi lo n) k hi lo = (fld s k hi lo + n) % 2 ^ (hi + 1 - lo) := fld_setFld_same _ _ _ _ _ h h'

theorem sameMemory_trans {a b c : State} (x : sameMemory a b) (y : sameMemory b c) : sameMemory a c :=
  ⟨y.1.trans x.1, fun j => (y.2 j).trans (x.2 j)⟩

/-- Nothing changes but registers, what dies and tiles hold, and the record of the UCLK cycle. -/
def InDies (s s' : State) : Prop := s' = { s with regs := s'.regs, tick := s'.tick, tiles := s'.tiles, dies := s'.dies }

theorem InDies.refl (s : State) : InDies s s := rfl

theorem InDies.trans {a b c : State} (x : InDies a b) (y : InDies b c) : InDies a c := by
  unfold InDies at *
  rw [y, x]

theorem InDies.m {s s' : State} (h : InDies s s') : s'.m = s.m := by rw [h]
theorem InDies.ports {s s' : State} (h : InDies s s') : s'.ports = s.ports := by rw [h]
theorem InDies.vco {s s' : State} (h : InDies s s') : s'.vco = s.vco := by rw [h]
theorem InDies.sameMemory {s s' : State} (h : InDies s s') : sameMemory s s' := sameMemory_of_eq (by rw [h]) (by rw [h]) (by rw [h])

theorem wr_inDies (s : State) (k : Nat) (w : Word) : InDies s (wr s k w) := rfl
theorem setFld_inDies (s : State) (k hi lo v : Nat) : InDies s (setFld s k hi lo v) := rfl
theorem addFld_inDies (s : State) (k hi lo n : Nat) : InDies s (addFld s k hi lo n) := rfl

/-! ### Waking -/

theorem wakeT1_inDies (s : State) (t : Nat) : InDies s (wakeT1 s t) := by unfold wakeT1; split <;> rfl
@[simp] theorem wakeT1_regs (s : State) (t : Nat) : (wakeT1 s t).regs = s.regs := by unfold wakeT1; split <;> rfl
@[simp] theorem wakeT1_tick (s : State) (t : Nat) : (wakeT1 s t).tick = s.tick := by unfold wakeT1; split <;> rfl

theorem wakeCluster_inDies (s : State) (d c : Nat) : InDies s (wakeCluster s d c) := by unfold wakeCluster; split <;> rfl
@[simp] theorem wakeCluster_regs (s : State) (d c : Nat) : (wakeCluster s d c).regs = s.regs := by unfold wakeCluster; split <;> rfl
@[simp] theorem wakeCluster_tick (s : State) (d c : Nat) : (wakeCluster s d c).tick = s.tick := by unfold wakeCluster; split <;> rfl
@[simp] theorem wakeCluster_tiles (s : State) (d c : Nat) : (wakeCluster s d c).tiles = s.tiles := by unfold wakeCluster; split <;> rfl

/-- A tile that leaves T1 is otherwise as it was. -/
theorem tileOf_wakeT1_same (s : State) (t : Nat) : tileOf (wakeT1 s t) t = { tileOf s t with t1 := false } := by
  unfold wakeT1
  split
  · rw [tileOf_updTile_same]
  · rename_i h
    have hf : (tileOf s t).t1 = false := by simpa using h
    rw [← hf]

/-- Every other tile is as it was. -/
theorem tileOf_wakeT1_ne (s : State) {t u : Nat} (h : u ≠ t) : tileOf (wakeT1 s t) u = tileOf s u := by
  unfold wakeT1
  split
  · exact tileOf_updTile_ne s _ h
  · rfl

/-- The state in which a write finds a tile: its cluster woken from C2, the tile from T1. -/
def woken (s : State) (t : Nat) : State := wakeT1 (wakeCluster s (t / 144) (clusterOf (t % 144))) t

/-- In C3 nothing takes a write. -/
theorem intoTile_off {s : State} {t : Nat} (h : clusterState s (t / 144) (clusterOf (t % 144)) = 3) (f : State → State) :
    intoTile s t f = s := if_pos h

/-- Elsewhere a write finds the tile woken. -/
theorem intoTile_on {s : State} {t : Nat} (h : clusterState s (t / 144) (clusterOf (t % 144)) ≠ 3) (f : State → State) :
    intoTile s t f = f (woken s t) := if_neg h

theorem woken_inDies (s : State) (t : Nat) : InDies s (woken s t) := (wakeCluster_inDies s _ _).trans (wakeT1_inDies _ t)
@[simp] theorem woken_regs (s : State) (t : Nat) : (woken s t).regs = s.regs := by simp [woken]
@[simp] theorem woken_tick (s : State) (t : Nat) : (woken s t).tick = s.tick := by simp [woken]

/-- The tile itself has left T1. -/
theorem tileOf_woken_same (s : State) (t : Nat) : tileOf (woken s t) t = { tileOf s t with t1 := false } := by
  rw [woken, tileOf_wakeT1_same]
  simp only [tileOf, wakeCluster_tiles]

/-- Every other tile is as it was. -/
theorem tileOf_woken_ne (s : State) {t u : Nat} (h : u ≠ t) : tileOf (woken s t) u = tileOf s u := by
  rw [woken, tileOf_wakeT1_ne _ h]
  simp only [tileOf, wakeCluster_tiles]

/-! ### Writes of tile registers -/

/-- A register of a tile is none of a die's blocks. -/
theorem tileReg_ne_dieReg (t : TileId) {off : Nat} (h : off < 0x10000) (d : Nat) {o : Nat} (ho : o < 2 ^ 23) : tileReg t off ≠ dieReg d o := by
  obtain ⟨h1, -, h3, -⟩ := tileReg_parts t h
  intro he
  rw [he] at h1 h3
  unfold dieReg dieBlockAddr stationAddr at h1 h3
  by_cases hd : d < 40
  · rw [if_pos hd] at h3; omega
  · rw [if_neg hd] at h1; omega

/-- A write of a tile register wakes the tile and does what the register's offset says. -/
theorem writeReg_tileReg (s : State) (admin : Bool) (t : TileId) {off : Nat} (h : off < 0x8000) (v : Word) :
    writeReg s admin (tileReg t off) v = writeTileReg (wakeT1 s t) t off v := by
  have ht := t.isLt
  obtain ⟨h1, h2, h3, h4⟩ := tileReg_parts t (show off < 0x10000 by omega)
  have hc : canonKey (tileReg t off) = tileReg t off := by
    simp only [canonKey, h1, h3, h4]
    rw [if_pos trivial, if_neg (by omega)]
  have ha : adminOnly (tileReg t off) = false := by
    have e1 : 2 ^ 52 ≤ s0Power 0x808 := by decide
    have e2 : 2 ^ 52 ≤ s0Power 0x840 := by decide
    have e3 : 2 ^ 52 ≤ s0Health 0xF200 := by decide
    simp only [adminOnly, Bool.or_eq_false_iff, decide_eq_false_iff_not]
    omega
  have hd : dgaTile (tileReg t off) = t := by
    simp only [dgaTile, h2, h3]; omega
  simp only [writeReg, hc, ha, hd, h1, h3, h4, Nat.add_sub_cancel_left]
  rw [if_neg (by simp), if_pos ⟨trivial, by omega, by omega⟩]

/-- The seed is stored and both streams start from it (R86). -/
theorem writeTileReg_seed (s : State) (t : Nat) (v : Word) : writeTileReg s t 0x840 v = loadStreams (storeReg s (tileReg t 0x840) v) t := rfl

theorem loadStreams_inDies (s : State) (t : Nat) : InDies s (loadStreams s t) := by
  unfold loadStreams
  exact (wr_inDies _ _ _).trans (wr_inDies _ _ _)

/-- Both streams start from the seed stored. -/
theorem rd_loadStreams (s : State) (t : Nat) (sh : Bool) : rd (loadStreams s t) (rngReg t sh) = rngSeed (rngConst sh) (rd s (tileReg t 0x840)) := by
  have hk : rngReg t false ≠ rngReg t true := by simp only [tileReg, rngReg, tileAddr, Bool.false_eq_true, if_false, if_true]; omega
  unfold loadStreams
  cases sh with
  | false => rw [rd_wr_ne _ _ hk, rd_wr_same]
  | true => rw [rd_wr_same]

/-- The seed itself stays. -/
theorem rd_loadStreams_seed (s : State) (t : Nat) : rd (loadStreams s t) (tileReg t 0x840) = rd s (tileReg t 0x840) := by
  have h1 : tileReg t 0x840 ≠ rngReg t true := by simp only [tileReg, rngReg, tileAddr, if_true]; omega
  have h0 : tileReg t 0x840 ≠ rngReg t false := by simp only [tileReg, rngReg, tileAddr, Bool.false_eq_true, if_false]; omega
  unfold loadStreams
  rw [rd_wr_ne _ _ h1, rd_wr_ne _ _ h0]

/-- A write of TILE_KEEPn. -/
theorem writeTileReg_keep (s : State) (t : Nat) (n : Fin 4) (v : Word) : writeTileReg s t (0x80 + 8 * n) v = writeKeep s t n v := by
  have := n.isLt
  unfold writeTileReg
  rw [if_neg (by omega), if_neg (by omega), if_pos (by omega), show (0x80 + 8 * n.val - 0x80) / 8 = n.val by omega]

/-- A write of a word of a trigger entry. -/
theorem writeTileReg_trigger (s : State) (t : Nat) (e : BitVec 8) (w : Fin 4) (v : Word) :
    writeTileReg s t (0x2000 + 32 * e.toNat + 8 * w) v = writeTrigger s t e.toNat w v := by
  have := w.isLt
  have := e.isLt
  unfold writeTileReg
  rw [if_neg (by omega), if_neg (by omega), if_neg (by omega), if_neg (by omega), if_neg (by omega), if_pos (by omega),
    show (0x2000 + 32 * e.toNat + 8 * w.val - 0x2000) / 32 = e.toNat by omega, show (0x2000 + 32 * e.toNat + 8 * w.val) % 32 / 8 = w.val by omega]

/-! ### Words of the instruction store -/

@[simp] theorem writeBytes_regs (s : State) (a : Nat) (bs : List Byte) : (writeBytes s a bs).regs = s.regs := by
  induction bs generalizing s a with
  | nil => rfl
  | cons b bs ih => rw [writeBytes, ih, writeByte_regs]

@[simp] theorem writeBytes_tiles (s : State) (a : Nat) (bs : List Byte) : (writeBytes s a bs).tiles = s.tiles := by
  induction bs generalizing s a with
  | nil => rfl
  | cons b bs ih => rw [writeBytes, ih, writeByte_tiles]

/-- The little-endian bytes of a number give it back, modulo what they hold. -/
theorem leNat_leBytes (n v : Nat) : leNat (leBytes n v) = v % 256 ^ n := by
  induction n generalizing v with
  | zero => simp [leBytes, leNat, Nat.mod_one]
  | succ n ih =>
    rw [leBytes, leNat, ih, Nat.pow_succ', Nat.mod_mul, BitVec.toNat_ofNat]

/-- A word just written reads as written. -/
theorem readWord_writeBytes (s : State) (a : Nat) (v : Word) : readWord (writeBytes s a (leBytes 8 v.toNat)) a = v := by
  have h := readBytes_writeBytes s a (leBytes 8 v.toNat)
  rw [leBytes_length] at h
  rw [readWord, h, leNat_leBytes]
  exact BitVec.eq_of_toNat_eq (by rw [BitVec.toNat_ofNat]; have := v.isLt; omega)

/-- Above the scratchpad a tile's bytes lie at their own offsets. -/
theorem putTileBytes_above (t : Nat) (who : Option CtxId) (bs : List Byte) :
    ∀ (s : State) (off : Nat), 0x600000 ≤ off → putTileBytes s t who off bs = writeBytes s (tileAddr t off) bs := by
  induction bs with
  | nil => intros; rfl
  | cons b bs ih =>
    intro s off h
    have ha : tileAddr t (off + 1) = tileAddr t off + 1 := by simp only [tileAddr]; omega
    rw [putTileBytes, tilePlace, if_neg (by omega), ih _ _ (by omega), writeBytes, ha]

/-- A whole word written above the scratchpad leaves its bytes and touches, beside them, error marks alone. -/
theorem tileWrite_word (s : State) (t : Nat) (who : Option CtxId) (r : Region) (off : Nat) (bs : List Byte) (h : 0x600000 ≤ off)
    (ha : off % 8 = 0) (hl : bs.length = 8) :
    ∃ e, tileWrite s t who r off bs = writeBytes { s with ecc := e } (tileAddr t off) bs := by
  have hw : wordOffsets off 8 = [off] := by
    rw [wordOffsets, show (off + 8 + 7) / 8 - off / 8 = 1 by omega]
    simp only [List.range_one, List.map_cons, List.map_nil, List.cons.injEq, and_true]
    omega
  simp only [tileWrite, hl, hw, putTileBytes_above t who bs _ off h]
  split
  · exact ⟨s.ecc, rfl⟩
  · simp only [List.foldl_cons, List.foldl_nil]
    rw [if_pos (by omega)]
    exact ⟨_, rfl⟩

/-! ### Tile events -/

/-- Nothing but the ports and the record of the UCLK cycle changes. -/
def OnlyPorts (s s' : State) : Prop := s' = { s with ports := s'.ports, tick := s'.tick }

theorem OnlyPorts.refl (s : State) : OnlyPorts s s := rfl

theorem OnlyPorts.trans {a b c : State} (x : OnlyPorts a b) (y : OnlyPorts b c) : OnlyPorts a c := by
  unfold OnlyPorts at *
  rw [y, x]

theorem OnlyPorts.regs {s s' : State} (h : OnlyPorts s s') : s'.regs = s.regs := by rw [h]
theorem OnlyPorts.sameMemory {s s' : State} (h : OnlyPorts s s') : sameMemory s s' := sameMemory_of_eq (by rw [h]) (by rw [h]) (by rw [h])
theorem OnlyPorts.tiles {s s' : State} (h : OnlyPorts s s') : s'.tiles = s.tiles := by rw [h]

/-- An operation that for each element changes ports alone. -/
theorem onlyPorts_forEach {α : Type} (l : List α) (s : State) (f : State → α → State) (h : ∀ s x, OnlyPorts s (f s x)) :
    OnlyPorts s (forEach l s f) := forEach_keeps (OnlyPorts s) f l s (fun s1 x _ h1 => h1.trans (h s1 x)) (.refl s)

theorem queueEvent_onlyPorts (s : State) (n : Nat) (rec : Word) : OnlyPorts s (queueEvent s n rec) := by
  unfold queueEvent
  split <;> rfl

theorem serveWaits_onlyPorts (s : State) (n : Nat) : OnlyPorts s (serveWaits s n) := by
  unfold serveWaits
  split <;> rfl

theorem partEvent_onlyPorts (s : State) (p code detail : Nat) : OnlyPorts s (partEvent s p code detail) :=
  onlyPorts_forEach _ _ _ (fun s _ => (queueEvent_onlyPorts s _ _).trans (serveWaits_onlyPorts _ _))

theorem mergeEvent_onlyPorts (s : State) (n : Nat) (rec : Word) : OnlyPorts s (mergeEvent s n rec) := by
  unfold mergeEvent
  dsimp only
  split
  · rfl
  · split
    · rfl
    · exact (queueEvent_onlyPorts s _ _).trans (serveWaits_onlyPorts _ _)

/-- An event on its way to the owning host touches ports alone. -/
theorem forwardEvent_onlyPorts (s : State) (t : Nat) : OnlyPorts s (forwardEvent s t) := by
  unfold forwardEvent
  dsimp only
  split
  · exact .refl s
  · split
    · exact onlyPorts_forEach _ _ _ (fun s _ => mergeEvent_onlyPorts s _ _)
    · exact OnlyPorts.trans (b := { s with tick := { s.ticks with sent := t :: s.ticks.sent } }) rfl (partEvent_onlyPorts _ _ _ _)

/-- A tile event sets its bits in TILE_EVENT; beside that it touches ports alone. -/
theorem tileEvent_onlyPorts (s : State) (t mask : Nat) :
    OnlyPorts (setFld s (tileReg t 8) 9 0 (fld s (tileReg t 8) 9 0 ||| mask)) (tileEvent s t mask) := by
  unfold tileEvent
  dsimp only
  split
  · rfl
  · exact OnlyPorts.trans (b := setFld (noteEvent s (tileReg t 8) (BitVec.ofNat 64 mask)) (tileReg t 8) 9 0 (fld s (tileReg t 8) 9 0 ||| mask)) rfl
      (forwardEvent_onlyPorts _ _)

theorem tileEvent_sameMemory (s : State) (t mask : Nat) : sameMemory s (tileEvent s t mask) :=
  sameMemory_trans (setFld_inDies _ _ _ _ _).sameMemory (tileEvent_onlyPorts s t mask).sameMemory

@[simp] theorem tileEvent_tiles (s : State) (t mask : Nat) : (tileEvent s t mask).tiles = s.tiles :=
  (tileEvent_onlyPorts s t mask).tiles.trans (setFld_tiles _ _ _ _ _)

/-- A bit that a tile event sets reads 1. -/
theorem fld_tileEvent_bit (s : State) (t : Nat) {mask i : Nat} (hi : i ≤ 9) (h : mask.testBit i = true) :
    fld (tileEvent s t mask) (tileReg t 8) i i = 1 := by
  have hb : bit (putBits (rd s (tileReg t 8)) 9 0 (fld s (tileReg t 8) 9 0 ||| mask)) i = true := by
    rw [bit, getLsbD_putBits _ _ _ _ _ (by omega) (by omega), if_pos (by omega), Nat.sub_zero, Nat.testBit_or, h, Bool.or_true]
  rw [fld, rd_congr (tileEvent_onlyPorts s t mask).regs, setFld, rd_wr_same, bits_bit, hb]
  rfl

end Sys2Proof.Proofs
end

section
/-!
SUPPORT. The registers of ports and of S0 under writes, and reads that clear them.
-/

namespace Sys2Proof.Proofs

open Sys2Proof Sys2Proof.Machine Sys2Proof.Laws

/-! ### Port registers -/

/-- A port register lies in the ports' own space, at its offset. -/
theorem portReg_parts (n : PortId) {off : Nat} (h : off < 2 ^ 32) : portReg n off / 2 ^ 52 = 3 ∧ portReg n off % 2 ^ 32 = off := by
  have := n.isLt
  simp only [portReg]
  omega

/-- Of the port registers only PART_WDOG refuses values: those below a million CCLK (R342). -/
theorem fieldOk_portReg (n : PortId) {off : Nat} (h : off < 2 ^ 32) (lo v : Nat) :
    fieldOk (portReg n off) lo v = if off = 0x28 then decide (1000000 ≤ v) else true := by
  obtain ⟨h1, h2⟩ := portReg_parts n h
  simp only [fieldOk, h1, h2]
  simp

/-- No port register has a locked field. -/
theorem lockFree_portReg (n : PortId) {off : Nat} (h : off < 2 ^ 32) (hm : off < 0x10000 ∨ 0x10200 ≤ off) :
    lockFree (keyFields (portReg n off)) = true := by
  have hr : ∀ r ∈ portRegs, lockFree r.fields = true := by decide
  rw [keyFields_portReg n h hm]
  exact fieldsAt_all (fun fs => lockFree fs = true) rfl (fun r hr' _ => hr r hr')

/-- A port register that the map holds takes the word of R342, and nothing else changes. -/
theorem storeReg_portReg (s : State) (n : PortId) {off : Nat} (h : off < 2 ^ 32) (hm : off < 0x10000 ∨ 0x10200 ≤ off)
    (hn : fieldsAt portRegs off ≠ []) (v : Word) : storeReg s (portReg n off) v = wr s (portReg n off) (writtenWord s (portReg n off) v) :=
  storeReg_eq_wr s v (by rwa [keyFields_portReg n h hm]) (lockFree_portReg n h hm)

/-- A field of a port register that may be written takes what is written, but in PART_WDOG. -/
theorem bits_writtenWord_portReg (s : State) (n : PortId) {off : Nat} (h : off < 2 ^ 32) (hm : off < 0x10000 ∨ 0x10200 ≤ off) (hw : off ≠ 0x28)
    (v : Word) {f : RegField} (hf : f ∈ fieldsAt portRegs off) (hrw : f.acc = .rw) :
    bits (writtenWord s (portReg n off) v) f.hi f.lo = bits v f.hi f.lo := by
  rw [bits_writtenWord_rw s v (by rwa [keyFields_portReg n h hm]) hrw, fieldOk_portReg n h, if_neg hw, if_pos rfl]

/-- The registers of a port lie at keys of their own. -/
theorem portReg_inj {k j off : Nat} (h : portReg k off = portReg j off) : k = j := by
  simp only [portReg] at h
  omega

/-! ### PART_WDOG (R238) -/

/-- A write of PART_WDOG stores the word of R342, and nothing else changes. -/
theorem storeReg_wdog_eq (s : State) (n : PortId) (v : Word) :
    storeReg s (portReg n 0x28) v = wr s (portReg n 0x28) (writtenWord s (portReg n 0x28) v) :=
  storeReg_portReg s n (by omega) (by omega) (by decide) v

/-- A legal limit written to PART_WDOG is stored. -/
theorem fld_storeReg_wdog (s : State) (n : PortId) (v : Word) (hv : 1000000 ≤ bits v 35 0) :
    fld (storeReg s (portReg n 0x28) v) (portReg n 0x28) 35 0 = bits v 35 0 := by
  have hm : (⟨35, 0, .rw, 0x77359400⟩ : RegField) ∈ keyFields (portReg n 0x28) := by
    rw [keyFields_portReg n (by omega) (by omega)]; decide
  have h := bits_writtenWord_rw s v hm rfl
  rw [fieldOk_portReg n (by omega), if_pos rfl, if_pos (decide_eq_true hv)] at h
  rw [storeReg_wdog_eq, fld, rd_wr_same]
  exact h

/-- What holds of an element once its operation has run, and is kept by the other operations, holds of every element in the end. -/
theorem forEach_each {α : Type} (Q : α → State → Prop) (f : State → α → State) (l : List α) (s : State)
    (hset : ∀ s a, a ∈ l → Q a (f s a)) (hkeep : ∀ s a b, a ∈ l → b ∈ l → Q b s → Q b (f s a)) : ∀ a ∈ l, Q a (forEach l s f) := by
  induction l generalizing s with
  | nil => intro a ha; simp at ha
  | cons x l ih =>
    intro a ha
    rcases List.mem_cons.1 ha with rfl | h
    · exact forEach_keeps (Q a) f l _ (fun s b hb => hkeep s b a (List.mem_cons_of_mem _ hb) ha) (hset s a ha)
    · exact ih (f s x) (fun s b hb => hset s b (List.mem_cons_of_mem _ hb))
        (fun s b c hb hc => hkeep s b c (List.mem_cons_of_mem _ hb) (List.mem_cons_of_mem _ hc)) a h

/-- The good tiles of a partition are tiles of the module. -/
theorem lt_of_mem_tilesOfPart {s : State} {p t : Nat} (h : t ∈ tilesOfPart s p) : t < 5760 := by
  simp only [tilesOfPart, diesOfPart, tilesOfDie, goodTiles, List.mem_flatMap, List.mem_filter, List.mem_map, List.mem_range] at h
  obtain ⟨d, ⟨hd, -⟩, i, ⟨hi, -⟩, rfl⟩ := h
  omega

/-- The registers of a tile lie at keys of their own. -/
theorem tileReg_inj {t u : TileId} {off : Nat} (h : off < 0x10000) (he : tileReg t off = tileReg u off) : t = u := by
  obtain ⟨-, h1, h2, -⟩ := tileReg_parts t h
  obtain ⟨-, h3, h4, -⟩ := tileReg_parts u h
  rw [he] at h1 h2
  exact Fin.ext (by omega)

/-- A register of a tile is none of a port's. -/
theorem portReg_ne_tileReg (n : PortId) (t : TileId) {o off : Nat} (ho : o < 2 ^ 32) (h : off < 0x10000) : portReg n o ≠ tileReg t off := by
  intro he
  have h1 := (portReg_parts n ho).1
  have h2 := (tileReg_parts t h).1
  omega

/-- The limit goes into TILE_WDOG of each tile of a list. -/
def setTileWdogs (l : List Nat) (x : Nat) (s : State) : State := forEach l s (fun s t => setFld (wakeT1 s t) (tileReg t 0x208) 35 0 x)

/-- The value goes into PART_WDOG of each port of a list. -/
def setPortWdogs (l : List Nat) (v : Word) (s : State) : State := forEach l s (fun s n => storeReg s (portReg n 0x28) v)

theorem setWdog_bound {s : State} {n p : Nat} (v : Word) (h : boundPart s n = some p) :
    setWdog s n v = setTileWdogs (tilesOfPart s p) (fld (setPortWdogs (boundPorts s p) v s) (portReg n 0x28) 35 0) (setPortWdogs (boundPorts s p) v s) := by
  unfold setWdog
  rw [h]
  rfl

theorem setPortWdogs_inDies {l : List Nat} (hl : ∀ n ∈ l, n < 8) (v : Word) (s : State) : InDies s (setPortWdogs l v s) :=
  forEach_keeps (InDies s) _ l s
    (fun s1 n hn h => by
      rw [storeReg_wdog_eq s1 ⟨n, hl n hn⟩]
      exact h.trans (wr_inDies _ _ _)) (.refl s)

/-- Each of the ports shows a legal limit. -/
theorem fld_setPortWdogs {l : List Nat} (hl : ∀ n ∈ l, n < 8) {v : Word} (hv : 1000000 ≤ bits v 35 0) (s : State) :
    ∀ n ∈ l, fld (setPortWdogs l v s) (portReg n 0x28) 35 0 = bits v 35 0 := by
  refine forEach_each (fun n s => fld s (portReg n 0x28) 35 0 = bits v 35 0) _ l s (fun s n hn => fld_storeReg_wdog s ⟨n, hl n hn⟩ v hv) ?_
  intro s n k hn hk h
  by_cases e : k = n
  · rw [e]; exact fld_storeReg_wdog s ⟨n, hl n hn⟩ v hv
  · rw [storeReg_wdog_eq s ⟨n, hl n hn⟩, fld, rd_wr_ne _ _ (fun q => e (portReg_inj q))]
    exact h

theorem setTileWdogs_inDies (l : List Nat) (x : Nat) (s : State) : InDies s (setTileWdogs l x s) :=
  forEach_keeps (InDies s) _ l s (fun s1 t _ h => (h.trans (wakeT1_inDies s1 t)).trans (wr_inDies _ _ _)) (.refl s)

/-- The ports' registers stay. -/
theorem rd_setTileWdogs_port {l : List Nat} (hl : ∀ t ∈ l, t < 5760) (x : Nat) (s : State) (n : PortId) :
    rd (setTileWdogs l x s) (portReg n 0x28) = rd s (portReg n 0x28) :=
  forEach_keeps (fun s1 => rd s1 (portReg n 0x28) = rd s (portReg n 0x28)) _ l s
    (fun s1 t ht h => by
      rw [rd_setFld_ne _ _ _ _ (portReg_ne_tileReg n ⟨t, hl t ht⟩ (by omega) (by omega)), rd_congr (wakeT1_regs s1 t)]
      exact h) rfl

/-- Each of the tiles takes the limit. -/
theorem fld_setTileWdogs {l : List Nat} (hl : ∀ t ∈ l, t < 5760) (x : Nat) (s : State) :
    ∀ t ∈ l, fld (setTileWdogs l x s) (tileReg t 0x208) 35 0 = x % 2 ^ 36 := by
  refine forEach_each (fun t s => fld s (tileReg t 0x208) 35 0 = x % 2 ^ 36) _ l s
    (fun s t _ => fld_setFld_same _ _ _ _ _ (by omega) (by omega)) ?_
  intro s t u ht hu h
  by_cases e : u = t
  · rw [e]; exact fld_setFld_same _ _ _ _ _ (by omega) (by omega)
  · have hk : tileReg u 0x208 ≠ tileReg t 0x208 := fun q =>
      e (congrArg Fin.val (tileReg_inj (t := ⟨u, hl u hu⟩) (u := ⟨t, hl t ht⟩) (by omega) q))
    rw [fld_setFld_ne _ _ _ _ _ _ hk, fld, rd_congr (wakeT1_regs s t)]
    exact h

/-! ### Registers of S0 -/

/-- A register of the administration port takes no write from another. -/
theorem writeReg_not_admin (s : State) {key : Nat} (v : Word) (h : adminOnly (canonKey key) = true) : writeReg s false key v = s := by
  unfold writeReg
  exact if_pos (by rw [h]; rfl)

/-- A register with one address and no effect beside its own is stored. -/
theorem writeReg_plain (s : State) {key : Nat} (v : Word) (hc : canonKey key = key)
    (ht : ¬ (key / 2 ^ 52 = 0 ∧ key / 2 ^ 23 % 256 < 144 ∧ key % 2 ^ 23 < 0x7F8000))
    (hk : ¬ (s0Health 0xF210 ≤ key ∧ key < s0Health 0xF230)) (hn : key ≠ s0Health 0xF200)
    (hp : ¬ (key / 2 ^ 52 ≤ 1 ∧ key = powerReg (keyDie key) 0x18)) : writeReg s true key v = storeReg s key v := by
  unfold writeReg
  rw [hc]
  dsimp only
  rw [if_neg (by simp), if_neg ht, if_neg hk, if_neg hn, if_neg hp]

/-- RL_KEY3 (R326). -/
theorem writeReg_key3 (s : State) (v : Word) : writeReg s true (s0Health 0xF228) v = writeKey s 3 v := by
  have hc : canonKey (s0Health 0xF228) = s0Health 0xF228 := by decide
  unfold writeReg
  rw [hc]
  dsimp only
  rw [if_neg (by simp), if_neg (by decide), if_pos (by decide), show (s0Health 0xF228 - s0Health 0xF210) / 8 = 3 by decide]

/-- MPWR_CAP takes a cap from 10 kW to 26 kW (R276, R342). -/
theorem fieldOk_mpwrCap (v : Nat) : fieldOk (s0Power 0x808) 0 v = decide (1000 ≤ v ∧ v ≤ 2600) := by
  have h1 : s0Power 0x808 / 2 ^ 52 = 1 := by decide
  have h2 : s0Power 0x808 % 2 ^ 23 = 0x20808 := by decide
  simp only [fieldOk, h1, h2]
  simp

/-- MERE_RESLIM takes every value. -/
theorem fieldOk_mereReslim (v : Nat) : fieldOk (s0Power 0x840) 0 v = true := by
  have h1 : s0Power 0x840 / 2 ^ 52 = 1 := by decide
  have h2 : s0Power 0x840 % 2 ^ 23 = 0x20840 := by decide
  simp only [fieldOk, h1, h2]
  simp

/-- NODE_ID takes every value. -/
theorem fieldOk_nodeId (v : Nat) : fieldOk (s0Health 0xF200) 0 v = true := by
  have h1 : s0Health 0xF200 / 2 ^ 52 = 1 := by decide
  have h2 : s0Health 0xF200 % 2 ^ 23 = 0x1F200 := by decide
  simp only [fieldOk, h1, h2]
  simp

/-! ### Reads that clear (R14) -/

/-- Four quarters make a word. -/
theorem word_eq_of_quarters {v w : Word} (h : ∀ f ∈ [(15, 0), (31, 16), (47, 32), (63, 48)], bits v f.1 f.2 = bits w f.1 f.2) : v = w := by
  simp only [List.forall_mem_cons] at h
  obtain ⟨h0, h1, h2, h3, -⟩ := h
  have whole (w : Word) : w.toNat = bits w 63 0 := (Nat.mod_eq_of_lt w.isLt).symm
  apply BitVec.eq_of_toNat_eq
  rw [whole v, whole w, bits_split v (mid := 15) (by omega) (by omega), bits_split v (hi := 63) (mid := 31) (by omega) (by omega),
    bits_split v (hi := 63) (mid := 47) (by omega) (by omega), bits_split w (mid := 15) (by omega) (by omega),
    bits_split w (hi := 63) (mid := 31) (by omega) (by omega), bits_split w (hi := 63) (mid := 47) (by omega) (by omega)]
  simp only [h0, h1, h2, h3]

/-- Where every field is RC, each takes its new value. -/
theorem mapRc_of_all {fs : List RegField} (h : ∀ g ∈ fs, g.acc = .rc) (f : RegField → Nat) (w : Word) :
    mapRc fs f w = fs.foldl (fun w g => putBits w g.hi g.lo (f g)) w := foldl_congr_mem (fun _ g hg => if_pos (h g hg)) w

/-- The word that a register had before this UCLK cycle's first increment. -/
def wordBefore (s : State) (key : Nat) : Word := spGet s.ticks.before (rd s key) key

/-- What a read leaves of a register: in its RC fields the increments of this cycle. -/
def wordLeft (s : State) (key : Nat) : Word :=
  mapRc (keyFields key) (fun f => fld s key f.hi f.lo + 2 ^ (f.hi + 1 - f.lo) - bits (wordBefore s key) f.hi f.lo) (rd s key)

/-- A read of a register with RC fields answers those as they were before this cycle's first increment, and leaves the increments. -/
theorem readReg_rc (s : State) {key : Nat} (h : (keyFields key).any (fun f => decide (f.acc = .rc)) = true) :
    (readReg s key).2 = mapRc (keyFields key) (fun f => bits (wordBefore s key) f.hi f.lo) (regView s key)
      ∧ ∃ k, (readReg s key).1 = { wr s key (wordLeft s key) with tick := k } := by
  unfold readReg
  rw [if_pos h]
  refine ⟨rfl, ?_⟩
  dsimp only
  split
  · exact ⟨_, rfl⟩
  · exact ⟨_, rfl⟩

/-! ### PORT_ERR -/

/-- The four counters of PORT_ERR. -/
def portErrFields : List RegField := [⟨15, 0, .rc, 0⟩, ⟨31, 16, .rc, 0⟩, ⟨47, 32, .rc, 0⟩, ⟨63, 48, .rc, 0⟩]

theorem keyFields_portErr (n : PortId) : keyFields (portErr n) = portErrFields := by
  rw [portErr, keyFields_portReg n (by omega) (by omega)]
  decide

/-- Each counter of PORT_ERR takes its new value. -/
theorem bits_mapRc_portErr (f : RegField → Nat) (w : Word) {g : Nat × Nat} (hg : g ∈ [(15, 0), (31, 16), (47, 32), (63, 48)]) :
    bits (mapRc portErrFields f w) g.1 g.2 = f ⟨g.1, g.2, .rc, 0⟩ % 2 ^ (g.1 + 1 - g.2) := by
  have hm : (⟨g.1, g.2, .rc, 0⟩ : RegField) ∈ portErrFields := by revert g; decide
  rw [mapRc_of_all (by decide)]
  exact bits_foldl_putBits_mem f _ w _ (by decide) hm

/-- A read of PORT_ERR answers all four counters as they were before this cycle's first increment. -/
theorem readReg_portErr (s : State) (n : PortId) : (readReg s (portErr n)).2 = wordBefore s (portErr n) := by
  rw [(readReg_rc s (by rw [keyFields_portErr]; decide)).1, keyFields_portErr]
  exact word_eq_of_quarters (fun f hf => (bits_mapRc_portErr _ _ hf).trans (Nat.mod_eq_of_lt (bits_lt _ _ _)))

/-- Outside the dies a register with one address is read where it lies. -/
theorem readRegAt_plain (s : State) {key : Nat} (hc : canonKey key = key) (hs : 2 ≤ key / 2 ^ 52) : readRegAt s key = readReg s key := by
  unfold readRegAt
  rw [hc]
  dsimp only
  rw [if_pos rfl, if_neg (by rw [decide_eq_true_eq]; omega), if_neg (by rw [decide_eq_true_eq]; omega)]

/-- A port register has one address. -/
theorem canonKey_portReg (n : PortId) {off : Nat} (h : off < 2 ^ 32) (hm : off < 0x10000 ∨ 0x10200 ≤ off) :
    canonKey (portReg n off) = portReg n off := by
  obtain ⟨h1, h2⟩ := portReg_parts n h
  simp only [canonKey, h1, h2]
  rw [if_neg (by decide), if_neg (by decide), if_pos trivial, if_neg (by omega)]

end Sys2Proof.Proofs
end

section
/-!
The register writes with an effect of their own, the read that clears and the plain writes, command by command, and the statement they make up.
-/

namespace Sys2Proof.Proofs

open Sys2Proof Sys2Proof.Machine Sys2Proof.Laws

/-! ### PART_WDOG_WRITE -/

theorem partWdogWrite_unbound (n : PortId) (v : Word) (s : State) (h : boundPart s n = none) : exec (.partWdogWrite n v) s = .next s := by
  have e : setWdog s n v = s := by unfold setWdog; rw [h]
  exact congrArg Host.Outcome.next e

theorem partWdogWrite_bound (n : PortId) (v : Word) (s : State) (p : Nat) (h : boundPart s n = some p) (hv : 1000000 ≤ bits v 35 0) :
    ∃ s', exec (.partWdogWrite n v) s = .next s' ∧ sameMemory s s' ∧ s'.m = s.m ∧ s'.ports = s.ports
      ∧ (∀ k ∈ boundPorts s p, fld s' (portReg k 0x28) 35 0 = bits v 35 0) ∧ ∀ t ∈ tilesOfPart s p, fld s' (tileReg t 0x208) 35 0 = bits v 35 0 := by
  have hp : ∀ k ∈ boundPorts s p, k < 8 := fun k hk => List.mem_range.1 (List.mem_filter.1 hk).1
  have hn : n.val ∈ boundPorts s p := by
    have hb := List.find?_some h
    rw [Bool.and_eq_true] at hb
    exact List.mem_filter.2 ⟨List.mem_range.2 n.isLt, hb.2⟩
  have ht : ∀ t ∈ tilesOfPart s p, t < 5760 := fun t => lt_of_mem_tilesOfPart
  have hports := fld_setPortWdogs hp hv s
  have hf : InDies s (setWdog s n v) := by
    rw [setWdog_bound v h]
    exact (setPortWdogs_inDies hp v s).trans (setTileWdogs_inDies _ _ _)
  refine ⟨setWdog s n v, rfl, hf.sameMemory, hf.m, hf.ports, fun k hk => ?_, fun t hk => ?_⟩
  · rw [setWdog_bound v h, fld, rd_setTileWdogs_port ht _ _ ⟨k, hp k hk⟩]
    exact hports k hk
  · rw [setWdog_bound v h, fld_setTileWdogs ht _ _ t hk, hports n hn]
    exact Nat.mod_eq_of_lt (bits_lt v 35 0)

/-! ### Writes into a tile -/

/-- A tile in C3 takes no register write. -/
theorem tileWrites_off (t : TileId) (v : Word) (s : State) (h : clusterState s (t.val / 144) (clusterOf (t.val % 144)) = 3) :
    exec (.rngSeedWrite t v) s = .next s ∧ (∀ n, exec (.tileKeepWrite t n v) s = .next s)
      ∧ (∀ i, exec (.instructionStoreWrite t i v) s = .next s) ∧ ∀ e w, exec (.triggerEntryWrite t e w v) s = .next s :=
  ⟨congrArg Host.Outcome.next (intoTile_off h _), fun _ => congrArg Host.Outcome.next (intoTile_off h _), fun _ => congrArg Host.Outcome.next (intoTile_off h _),
    fun _ _ => congrArg Host.Outcome.next (intoTile_off h _)⟩

/-- The state in which the write of a tile register finds it. -/
def awake (s : State) (t : Nat) : State := wakeT1 (woken s t) t

theorem awake_inDies (s : State) (t : Nat) : InDies s (awake s t) := (woken_inDies s t).trans (wakeT1_inDies _ t)

theorem rd_awake (s : State) (t k : Nat) : rd (awake s t) k = rd s k := rd_congr (by simp [awake]) k

theorem roseNow_awake (s : State) (t k : Nat) : roseNow (awake s t) k = roseNow s k :=
  roseNow_congr (by simp [awake]) (awake_inDies s t).vco k

/-- A write of a register of the awake tile gives the word that it gives in the state before. -/
theorem storeReg_awake (s : State) (t : Nat) {key : Nat} (v : Word) (hn : keyFields key ≠ []) (hl : lockFree (keyFields key) = true) :
    storeReg (awake s t) key v = wr (awake s t) key (writtenWord s key v) := by
  rw [storeReg_eq_wr _ v hn hl, writtenWord_congr v hl (rd_awake s t key) (roseNow_awake s t key)]

theorem wr_awake_inDies (s : State) (t key : Nat) (w : Word) : InDies s (wr (awake s t) key w) := (awake_inDies s t).trans (wr_inDies _ _ _)

/-- A store into the awake tile leaves every other register alone. -/
theorem otherRegs_wr_awake (s : State) (t key : Nat) (w : Word) : otherRegs s (wr (awake s t) key w) key :=
  fun k hk => (rd_wr_ne _ w hk).trans (rd_awake s t k)

/-- A count in a register of the awake tile leaves every other register alone. -/
theorem otherRegs_addFld_awake (s : State) (t key hi lo n : Nat) : otherRegs s (addFld (awake s t) key hi lo n) key :=
  fun k hk => (rd_addFld_ne _ hi lo n hk).trans (rd_awake s t k)

/-- A register write into a tile that is not in C3. -/
theorem intoTile_writeReg {t : TileId} {s : State} (h : clusterState s (t.val / 144) (clusterOf (t.val % 144)) ≠ 3) {off : Nat} (ho : off < 0x8000)
    (v : Word) : intoTile s t (fun s => writeReg s false (tileReg t off) v) = writeTileReg (awake s t) t off v := by
  rw [intoTile_on h, writeReg_tileReg _ _ t ho]
  rfl

theorem rngSeedWrite_on {t : TileId} {s : State} (h : clusterState s (t.val / 144) (clusterOf (t.val % 144)) ≠ 3) (v : Word) :
    ∃ s', exec (.rngSeedWrite t v) s = .next s' ∧ rd s' (tileReg t 0x840) = writtenWord s (tileReg t 0x840) v
      ∧ (∀ sh, rd s' (rngReg t sh) = rngSeed (rngConst sh) (writtenWord s (tileReg t 0x840) v)) ∧ sameMemory s s' ∧ s'.m = s.m := by
  have hl := lockFree_tileReg t (off := 0x840) (by omega) (by omega)
  have hn := keyFields_tileReg_ne_nil t (off := 0x840) (by omega) (by decide)
  have he := intoTile_writeReg h (off := 0x840) (by omega) v
  rw [writeTileReg_seed, storeReg_awake s t v hn hl] at he
  have hf := (wr_awake_inDies s t (tileReg t 0x840) (writtenWord s (tileReg t 0x840) v)).trans (loadStreams_inDies _ t)
  refine ⟨_, congrArg Host.Outcome.next he, ?_, fun sh => ?_, hf.sameMemory, hf.m⟩
  · rw [rd_loadStreams_seed, rd_wr_same]
  · rw [rd_loadStreams, rd_wr_same]

/-! ### TILE_KEEP_WRITE (R55) -/

/-- A KEEP word is legal and overlaps no other enabled range of its tile. -/
def keepFits (s : State) (t n : Nat) (w : Word) : Bool :=
  keepLegal w && ((List.range 4).filter (fun m => decide (m ≠ n))).all (fun m => !(keepClash w (rd s (keepReg t m))))

theorem keepFits_iff (s : State) (t n : Nat) (w : Word) :
    keepFits s t n w = true ↔ keepLegal w = true ∧ ∀ m, m < 4 → m ≠ n → keepClash w (rd s (keepReg t m)) = false := by
  simp only [keepFits, Bool.and_eq_true, List.all_eq_true, List.mem_filter, List.mem_range, decide_eq_true_eq, and_imp, Bool.not_eq_true']

theorem keepFits_awake (s : State) (t n : Nat) (w : Word) : keepFits (awake s t) t n w = keepFits s t n w := by
  simp only [keepFits, rd_awake]

/-- The event flags of a KEEP word, TORN and INVALID. -/
def keepFlags : Word := 0x180000000000

/-- The flags of one word put into another leave the rest of it. -/
theorem or_flags_and_not (a b f : Word) : ((a &&& ~~~f) ||| (b &&& f)) &&& ~~~f = a &&& ~~~f := by
  ext i hi
  simp only [BitVec.getElem_and, BitVec.getElem_or, BitVec.getElem_not]
  cases f[i] <;> simp

/-- A write of TILE_KEEPn into the awake tile: the word of R342 where it fits, else its flags alone, counted. -/
theorem writeKeep_awake (s : State) (t : TileId) (n : Fin 4) (v : Word) :
    writeKeep (awake s t) t n v = if keepFits s t n (writtenWord s (keepReg t n) v) = true then wr (awake s t) (keepReg t n) (writtenWord s (keepReg t n) v)
      else addFld (wr (awake s t) (keepReg t n) ((rd s (keepReg t n) &&& ~~~keepFlags) ||| (writtenWord s (keepReg t n) v &&& keepFlags)))
        (healthReg (t / 144) 0x48) 63 32 1 := by
  have hn := n.isLt
  have hw : writeFields (keepReg t n) false (roseNow (awake s t) (keepReg t n)) (keyFields (keepReg t n)) (rd (awake s t) (keepReg t n)) v
      = writtenWord s (keepReg t n) v := by
    rw [rd_awake, roseNow_awake]
    exact writeFields_lock (lockFree_tileReg t (by omega) (by omega)) _ _ _ _ _ _
  unfold writeKeep
  dsimp only
  rw [hw, rd_awake, ← keepFits_awake]
  rfl

theorem tileKeepWrite_on {t : TileId} {s : State} (h : clusterState s (t.val / 144) (clusterOf (t.val % 144)) ≠ 3) (n : Fin 4) (v : Word) :
    exec (.tileKeepWrite t n v) s = .next (writeKeep (awake s t) t n v) := by
  have := n.isLt
  exact congrArg Host.Outcome.next ((intoTile_writeReg h (by omega) v).trans (writeTileReg_keep _ t n v))

theorem tileKeepWrite_fits {t : TileId} {s : State} (h : clusterState s (t.val / 144) (clusterOf (t.val % 144)) ≠ 3) (n : Fin 4) (v w : Word)
    (hw : w = writtenWord s (keepReg t n) v) (hl : keepLegal w = true)
    (hc : ∀ m, m < 4 → m ≠ n.val → keepClash w (rd s (keepReg t m)) = false) :
    ∃ s', exec (.tileKeepWrite t n v) s = .next s' ∧ rd s' (keepReg t n) = w ∧ otherRegs s s' (keepReg t n) ∧ sameMemory s s' := by
  have he := tileKeepWrite_on h n v
  rw [writeKeep_awake, ← hw, if_pos ((keepFits_iff s t n w).2 ⟨hl, hc⟩)] at he
  exact ⟨_, he, rd_wr_same _ _ _, otherRegs_wr_awake s t _ w, (wr_awake_inDies s t _ w).sameMemory⟩

theorem tileKeepWrite_refused {t : TileId} {s : State} (h : clusterState s (t.val / 144) (clusterOf (t.val % 144)) ≠ 3) (n : Fin 4) (v w : Word)
    (hw : w = writtenWord s (keepReg t n) v)
    (hb : keepLegal w = false ∨ ∃ m, m < 4 ∧ m ≠ n.val ∧ keepClash w (rd s (keepReg t m)) = true) :
    ∃ s', exec (.tileKeepWrite t n v) s = .next s'
      ∧ rd s' (keepReg t n) &&& ~~~(0x180000000000 : Word) = rd s (keepReg t n) &&& ~~~(0x180000000000 : Word)
      ∧ fld s' (healthReg (t.val / 144) 0x48) 63 32 = (fld s (healthReg (t.val / 144) 0x48) 63 32 + 1) % 2 ^ 32 ∧ sameMemory s s' := by
  have hn := n.isLt
  have hne : keepReg t n ≠ healthReg (t.val / 144) 0x48 := tileReg_ne_dieReg t (by omega) _ (by omega)
  have hf : ¬ keepFits s t n w = true := by
    rw [keepFits_iff]
    rintro ⟨hl, hc⟩
    rcases hb with hb | ⟨m, hm, hmn, hk⟩
    · simp [hl] at hb
    · simp [hc m hm hmn] at hk
  have he := tileKeepWrite_on h n v
  rw [writeKeep_awake, ← hw, if_neg hf] at he
  refine ⟨_, he, ?_, ?_, ((wr_awake_inDies s t _ _).trans (addFld_inDies _ _ _ _ _)).sameMemory⟩
  · rw [rd_addFld_ne _ _ _ _ hne, rd_wr_same]
    exact or_flags_and_not _ _ _
  · rw [fld_addFld_same _ _ _ _ _ (by omega) (by omega), fld, rd_wr_ne _ _ hne.symm, rd_awake]
    rfl

/-! ### INSTRUCTION_STORE_WRITE (R45) -/

theorem istoreOpen_woken (s : State) (t : Nat) : istoreOpen (woken s t) t = istoreOpen s t := by
  funext c
  unfold istoreOpen
  rw [tileOf_woken_same]
  rfl

theorem instructionStoreWrite_on {t : TileId} {s : State} (h : clusterState s (t.val / 144) (clusterOf (t.val % 144)) ≠ 3) (i : BitVec 15) (v : Word) :
    exec (.instructionStoreWrite t i v) s = .next (if (istoreCtxs (0x700000 + 8 * i.toNat) 8).all (istoreOpen s t) = true
      then tileWrite (woken s t) t none .ist (0x700000 + 8 * i.toNat) (leBytes 8 v.toNat) else tileEvent (woken s t) t 0x40) := by
  refine congrArg Host.Outcome.next ((intoTile_on h _).trans ?_)
  unfold istoreWrite
  rw [leBytes_length, istoreOpen_woken]

theorem instructionStoreWrite_open {t : TileId} {s : State} (h : clusterState s (t.val / 144) (clusterOf (t.val % 144)) ≠ 3) (i : BitVec 15) (v : Word)
    {a : Nat} (ha : a = tileAddr t (0x700000 + 8 * i.toNat)) (ho : (istoreCtxs (0x700000 + 8 * i.toNat) 8).all (istoreOpen s t) = true) :
    ∃ s', exec (.instructionStoreWrite t i v) s = .next s' ∧ readWord s' a = v
      ∧ (∀ b, (b < a ∨ a + 8 ≤ b) → readByte s' b = readByte s b) ∧ s'.regs = s.regs ∧ tileOf s' t = { tileOf s t with t1 := false }
      ∧ ∀ u, u ≠ t.val → tileOf s' u = tileOf s u := by
  obtain ⟨e, hw⟩ := tileWrite_word (woken s t) t none .ist (0x700000 + 8 * i.toNat) (leBytes 8 v.toNat) (by omega) (by omega) (leBytes_length _ _)
  have he := instructionStoreWrite_on h i v
  rw [if_pos ho, hw, ← ha] at he
  have ht : ∀ u, tileOf (writeBytes { woken s t with ecc := e } a (leBytes 8 v.toNat)) u = tileOf (woken s t) u := fun u => by
    simp only [tileOf, writeBytes_tiles]
  refine ⟨_, he, readWord_writeBytes _ _ _, fun b hb => ?_, ?_, ?_, fun u hu => ?_⟩
  · rw [readByte_writeBytes_outside _ _ _ _ (by rw [leBytes_length]; exact hb)]
    exact (woken_inDies s t).sameMemory.2 b
  · rw [writeBytes_regs]; exact woken_regs s t
  · rw [ht, tileOf_woken_same]
  · rw [ht, tileOf_woken_ne s hu]

theorem instructionStoreWrite_busy {t : TileId} {s : State} (h : clusterState s (t.val / 144) (clusterOf (t.val % 144)) ≠ 3) (i : BitVec 15) (v : Word)
    (ho : (istoreCtxs (0x700000 + 8 * i.toNat) 8).all (istoreOpen s t) = false) :
    ∃ s', exec (.instructionStoreWrite t i v) s = .next s' ∧ sameMemory s s' ∧ fld s' (tileReg t 8) 6 6 = 1
      ∧ tileOf s' t = { tileOf s t with t1 := false } ∧ ∀ u, u ≠ t.val → tileOf s' u = tileOf s u := by
  have he := instructionStoreWrite_on h i v
  rw [if_neg (by simp [ho])] at he
  have ht : ∀ u, tileOf (tileEvent (woken s t) t 0x40) u = tileOf (woken s t) u := fun u => by simp only [tileOf, tileEvent_tiles]
  refine ⟨_, he, sameMemory_trans (woken_inDies s t).sameMemory (tileEvent_sameMemory _ _ _), fld_tileEvent_bit _ _ (by omega) (by decide), ?_, fun u hu => ?_⟩
  · rw [ht, tileOf_woken_same]
  · rw [ht, tileOf_woken_ne s hu]

/-! ### TRIGGER_ENTRY_WRITE (R183) -/

theorem triggerEntryWrite_on {t : TileId} {s : State} (h : clusterState s (t.val / 144) (clusterOf (t.val % 144)) ≠ 3) (e : BitVec 8) (w : Fin 4) (v : Word) :
    exec (.triggerEntryWrite t e w v) s = .next (if armed s t e.toNat = true then addFld (awake s t) (tileReg t 0x1218) 31 0 1
      else storeReg (awake s t) (trigReg t e.toNat w) v) := by
  have := w.isLt
  have := e.isLt
  refine congrArg Host.Outcome.next ((intoTile_writeReg h (by omega) v).trans ((writeTileReg_trigger _ t e w v).trans ?_))
  unfold writeTrigger armed
  rw [rd_awake]

theorem triggerEntryWrite_armed {t : TileId} {s : State} (h : clusterState s (t.val / 144) (clusterOf (t.val % 144)) ≠ 3) (e : BitVec 8) (w : Fin 4)
    (v : Word) (ha : armed s t e.toNat = true) :
    ∃ s', exec (.triggerEntryWrite t e w v) s = .next s' ∧ otherRegs s s' (tileReg t 0x1218) ∧ sameMemory s s'
      ∧ fld s' (tileReg t 0x1218) 31 0 = (fld s (tileReg t 0x1218) 31 0 + 1) % 2 ^ 32 := by
  have he := triggerEntryWrite_on h e w v
  rw [if_pos ha] at he
  refine ⟨_, he, otherRegs_addFld_awake s t _ _ _ _, ((awake_inDies s t).trans (addFld_inDies _ _ _ _ _)).sameMemory, ?_⟩
  rw [fld_addFld_same _ _ _ _ _ (by omega) (by omega), fld, rd_awake]
  rfl

/-- The map holds every word of the trigger table. -/
theorem tileRegs_hold_trigger (e : BitVec 8) (w : Fin 4) : ∃ r ∈ tileRegs, r.holds (0x2000 + 32 * e.toNat + 8 * w) = true := by
  have hr : ∀ w : Fin 4, ∃ r ∈ tileRegs, r.base = 0x2000 + 8 * w.val ∧ r.count = 256 ∧ r.stride = 32 := by decide
  obtain ⟨r, hr, hb, hc, hs⟩ := hr w
  refine ⟨r, hr, ?_⟩
  have := e.isLt
  simp only [RegRange.holds, hb, hc, hs, Bool.and_eq_true, decide_eq_true_eq]
  omega

theorem triggerEntryWrite_disarmed {t : TileId} {s : State} (h : clusterState s (t.val / 144) (clusterOf (t.val % 144)) ≠ 3) (e : BitVec 8) (w : Fin 4)
    (v : Word) (ha : armed s t e.toNat = false) :
    ∃ s', exec (.triggerEntryWrite t e w v) s = .next s' ∧ sameMemory s s'
      ∧ rd s' (trigReg t e.toNat w) = writtenWord s (trigReg t e.toNat w) v := by
  have := w.isLt
  have := e.isLt
  have hl : lockFree (keyFields (trigReg t e.toNat w)) = true := lockFree_tileReg t (by omega) (by omega)
  have hn : keyFields (trigReg t e.toNat w) ≠ [] := keyFields_tileReg_ne_nil t (by omega) (tileRegs_hold_trigger e w)
  have he := triggerEntryWrite_on h e w v
  rw [if_neg (by simp [ha]), storeReg_awake s t v hn hl] at he
  exact ⟨_, he, (wr_awake_inDies s t _ _).sameMemory, rd_wr_same _ _ _⟩

end Sys2Proof.Proofs
end

section
/-!
The registers of the administration port, reads and writes through a port, and the statement that the register commands make up.
-/

namespace Sys2Proof.Proofs

open Sys2Proof Sys2Proof.Machine Sys2Proof.Laws

/-! ### MPWR_CAP, MERE_RESLIM, RL_KEY3 and NODE_ID -/

/-- From another port than the administration port none of these registers takes a write. -/
theorem adminWrites_refused (n : PortId) (v : Word) (draw : Fin 5001) (s : State) (h : adminPort s ≠ n.val) :
    exec (.mpwrCapWrite n v) s = .next s ∧ exec (.mereReslimWrite n v) s = .next s ∧ exec (.rlKey3Write n v) s = .next s
      ∧ exec (.nodeIdWrite n v draw) s = .next s := by
  have hw {key : Nat} (ha : adminOnly (canonKey key) = true) : writeReg s (decide (adminPort s = n.val)) key v = s := by
    rw [decide_eq_false h]; exact writeReg_not_admin s v ha
  exact ⟨congrArg Host.Outcome.next (hw (by decide)), congrArg Host.Outcome.next (hw (by decide)), congrArg Host.Outcome.next (hw (by decide)),
    congrArg Host.Outcome.next (if_neg h)⟩

/-- A plain register of S0 written from the administration port takes the word of R342. -/
theorem writeReg_s0Power {s : State} {n : PortId} (h : adminPort s = n.val) (v : Word) {off : Nat} (ho : off = 0x808 ∨ off = 0x840) :
    writeReg s (decide (adminPort s = n.val)) (s0Power off) v = wr s (s0Power off) (writtenWord s (s0Power off) v) := by
  rw [decide_eq_true h]
  rcases ho with rfl | rfl
  · rw [writeReg_plain s v (by decide) (by decide) (by decide) (by decide) (by decide), storeReg_eq_wr s v (by decide) (by decide)]
  · rw [writeReg_plain s v (by decide) (by decide) (by decide) (by decide) (by decide), storeReg_eq_wr s v (by decide) (by decide)]

theorem mpwrCapWrite_admin (n : PortId) (v : Word) (s : State) (h : adminPort s = n.val) :
    ∃ s', exec (.mpwrCapWrite n v) s = .next s' ∧ otherRegs s s' (s0Power 0x808) ∧ sameMemory s s' ∧ s'.m = s.m ∧ s'.tiles = s.tiles
      ∧ fld s' (s0Power 0x808) 15 0 = if 1000 ≤ bits v 15 0 ∧ bits v 15 0 ≤ 2600 then bits v 15 0 else fld s (s0Power 0x808) 15 0 := by
  refine ⟨_, congrArg Host.Outcome.next (writeReg_s0Power h v (.inl rfl)), fun k hk => rd_wr_ne _ _ hk, (wr_inDies _ _ _).sameMemory, wr_m _ _ _,
    wr_tiles _ _ _, ?_⟩
  have hf : (⟨15, 0, .rw, 0xa28⟩ : RegField) ∈ keyFields (s0Power 0x808) := by decide
  have hb := bits_writtenWord_rw s v hf rfl
  simp only [fieldOk_mpwrCap, decide_eq_true_eq] at hb
  rw [fld, rd_wr_same]
  exact hb

theorem mereReslimWrite_admin (n : PortId) (v : Word) (s : State) (h : adminPort s = n.val) :
    ∃ s', exec (.mereReslimWrite n v) s = .next s' ∧ otherRegs s s' (s0Power 0x840) ∧ sameMemory s s' ∧ s'.m = s.m ∧ s'.tiles = s.tiles
      ∧ fld s' (s0Power 0x840) 15 0 = bits v 15 0 := by
  refine ⟨_, congrArg Host.Outcome.next (writeReg_s0Power h v (.inr rfl)), fun k hk => rd_wr_ne _ _ hk, (wr_inDies _ _ _).sameMemory, wr_m _ _ _,
    wr_tiles _ _ _, ?_⟩
  have hf : (⟨15, 0, .rw, 0x2000⟩ : RegField) ∈ keyFields (s0Power 0x840) := by decide
  have hb := bits_writtenWord_rw s v hf rfl
  rw [fieldOk_mereReslim, if_pos rfl] at hb
  rw [fld, rd_wr_same]
  exact hb

/-- Nothing changes but registers, the module's own state and the record of the UCLK cycle. -/
def InModule (s s' : State) : Prop := s' = { s with regs := s'.regs, tick := s'.tick, m := s'.m }

theorem InModule.trans {a b c : State} (x : InModule a b) (y : InModule b c) : InModule a c := by
  unfold InModule at *
  rw [y, x]

theorem InModule.tiles {s s' : State} (h : InModule s s') : s'.tiles = s.tiles := by rw [h]
theorem InModule.sameMemory {s s' : State} (h : InModule s s') : sameMemory s s' := sameMemory_of_eq (by rw [h]) (by rw [h]) (by rw [h])

theorem wr_inModule (s : State) (k : Nat) (w : Word) : InModule s (wr s k w) := rfl
theorem setFld_inModule (s : State) (k hi lo v : Nat) : InModule s (setFld s k hi lo v) := rfl
theorem setBit_inModule (s : State) (k i : Nat) : InModule s (setBit s k i) := rfl
theorem updM_inModule (s : State) (f : Module → Module) : InModule s (updM s f) := rfl
theorem tick_inModule (s : State) (k : Tick) : InModule s { s with tick := k } := rfl

/-- The record of the cycle is no register. -/
theorem rd_tick (s : State) (k : Tick) (j : Nat) : rd { s with tick := k } j = rd s j := rfl

/-- A bit just set reads 1. -/
theorem bit_setBit_same (s : State) (k : Nat) {i : Nat} (h : i < 64) : bit (rd (setBit s k i) k) i = true := by
  rw [setBit, setFld, rd_wr_same, bit, getLsbD_putBits _ _ _ _ _ (Nat.le_refl i) h, if_pos ⟨Nat.le_refl i, Nat.le_refl i⟩, Nat.sub_self]
  rfl

/-- The key words held, with a new word 3. -/
def stageKey3 (m : Module) (v : Word) : Module := { m with reedline := { m.reedline with stage := spSet m.reedline.stage 0 3 v } }

/-- The key that the words held make up. -/
def stagedKey (m : Module) : List Byte := (List.range 4).flatMap (fun j => leBytes 8 (spGet m.reedline.stage 0 j).toNat)

/-- A key installed, and the reply to the last command forgotten. -/
def installKey (key : List Byte) (m : Module) : Module := { m with reedline := { m.reedline with key := key, cache := none } }

/-- A write of RL_KEY3: the word is held, KEY_SET is set, RL_CMDCTR cleared, and the key installed. -/
theorem writeKey_three (s : State) (v : Word) :
    ∃ k, writeKey s 3 v = updM { wr (setBit (updM s (fun m => stageKey3 m v)) (s0Health 0xF208) 3) (s0Health 0xF258) 0 with tick := k }
      (installKey (stagedKey (stageKey3 s.m v))) := by
  unfold writeKey
  rw [if_pos rfl]
  exact ⟨_, rfl⟩

/-- The key is the three words held and the one written. -/
theorem stagedKey_stageKey3 (m : Module) (v : Word) :
    stagedKey (stageKey3 m v) = ([0, 1, 2].flatMap (fun j => leBytes 8 (spGet m.reedline.stage 0 j).toNat)) ++ leBytes 8 v.toNat := by
  have hr : List.range 4 = [0, 1, 2] ++ [3] := rfl
  simp [stagedKey, stageKey3, hr, spGet_spSet_ne]

theorem rlKey3Write_admin (n : PortId) (v : Word) (s : State) (h : adminPort s = n.val) :
    ∃ s', exec (.rlKey3Write n v) s = .next s' ∧ sameMemory s s' ∧ s'.tiles = s.tiles ∧ keySet s' = true ∧ rd s' (s0Health 0xF258) = 0
      ∧ s'.m.reedline.cache = none
      ∧ s'.m.reedline.key = ([0, 1, 2].flatMap (fun j => leBytes 8 (spGet s.m.reedline.stage 0 j).toNat)) ++ leBytes 8 v.toNat := by
  obtain ⟨k, hk⟩ := writeKey_three s v
  have he : writeReg s (decide (adminPort s = n.val)) (s0Health 0xF228) v = writeKey s 3 v := by
    rw [decide_eq_true h]; exact writeReg_key3 s v
  have hf := ((((updM_inModule s (fun m => stageKey3 m v)).trans (setBit_inModule _ (s0Health 0xF208) 3)).trans
    (wr_inModule _ (s0Health 0xF258) 0)).trans (tick_inModule _ k)).trans (updM_inModule _ (installKey (stagedKey (stageKey3 s.m v))))
  refine ⟨_, congrArg Host.Outcome.next (he.trans hk), hf.sameMemory, hf.tiles, ?_, ?_, rfl, stagedKey_stageKey3 s.m v⟩
  · unfold keySet
    rw [rd_congr (updM_regs _ _), rd_tick, rd_wr_ne _ _ (by decide), bit_setBit_same _ _ (by omega)]
  · rw [rd_congr (updM_regs _ _), rd_tick, rd_wr_same]

/-- The selection restarts from the NODE_ID stored (R319). -/
theorem restartSelection_spec (s : State) (draw : Nat) :
    InModule s (restartSelection s draw) ∧ (∀ k, k ≠ s0Health 0xF208 → rd (restartSelection s draw) k = rd s k)
      ∧ fld (restartSelection s draw) (s0Health 0xF208) 1 0 = modeOf (fld s (s0Health 0xF200) 7 0)
      ∧ (restartSelection s draw).m.reedline.listenEnd = s.now + 20000000 + draw * 1000 ∧ (restartSelection s draw).m.reedline.lastBeacon = s.now := by
  have hm : modeOf (fld s (s0Health 0xF200) 7 0) < 4 := by
    unfold modeOf
    split
    · omega
    · split <;> omega
  unfold restartSelection
  refine ⟨(setFld_inModule _ _ _ _ _).trans (updM_inModule _ _), fun k hk => ?_, ?_, rfl, rfl⟩
  · rw [rd_congr (updM_regs _ _), rd_setFld_ne _ _ _ _ hk]
  · rw [fld, rd_congr (updM_regs _ _)]
    exact (fld_setFld_same _ _ _ _ _ (by omega) (by omega)).trans (Nat.mod_eq_of_lt hm)

theorem nodeIdWrite_admin (n : PortId) (v : Word) (draw : Fin 5001) (s : State) (h : adminPort s = n.val) :
    ∃ s', exec (.nodeIdWrite n v draw) s = .next s' ∧ sameMemory s s' ∧ s'.tiles = s.tiles ∧ fld s' (s0Health 0xF200) 7 0 = bits v 7 0
      ∧ fld s' (s0Health 0xF208) 1 0 = modeOf (bits v 7 0) ∧ s'.m.reedline.listenEnd = s.now + 20000000 + draw.val * 1000
      ∧ s'.m.reedline.lastBeacon = s.now := by
  have hi : fld (wr s (s0Health 0xF200) (writtenWord s (s0Health 0xF200) v)) (s0Health 0xF200) 7 0 = bits v 7 0 := by
    have hf : (⟨7, 0, .rw, 0xff⟩ : RegField) ∈ keyFields (s0Health 0xF200) := by decide
    have hb := bits_writtenWord_rw s v hf rfl
    rw [fieldOk_nodeId, if_pos rfl] at hb
    rw [fld, rd_wr_same]
    exact hb
  have he : writeNodeId s n v draw = restartSelection (wr s (s0Health 0xF200) (writtenWord s (s0Health 0xF200) v)) draw := by
    unfold writeNodeId
    rw [if_pos h, storeReg_eq_wr s v (by decide) (by decide)]
  obtain ⟨hf, hr, hmode, hlisten, hbeacon⟩ := restartSelection_spec (wr s (s0Health 0xF200) (writtenWord s (s0Health 0xF200) v)) draw
  rw [hi] at hmode
  have hf := (wr_inModule s _ _).trans hf
  refine ⟨_, congrArg Host.Outcome.next he, hf.sameMemory, hf.tiles, ?_, hmode, hlisten, hbeacon⟩
  rw [fld, hr _ (by decide)]
  exact hi

/-! ### Through a port -/

/-- A store of a port register keeps what a port's access keeps. -/
theorem portFrame_wr (s : State) (n : PortId) (k : Nat) (w : Word) : portFrame s (wr s k w) n :=
  ⟨(wr_inDies s k w).sameMemory, rfl, rfl, rfl, rfl, fun _ _ => rfl⟩

/-- A change of the port keeps what its access keeps. -/
theorem portFrame_updPort (s : State) (n : PortId) (f : Port → Port) : portFrame s (updPort s n f) n :=
  ⟨sameMemory_of_eq rfl rfl rfl, rfl, rfl, rfl, rfl, fun _ hk => portOf_updPort_ne s f hk⟩

theorem portFrame_trans {a b c : State} {n : PortId} (x : portFrame a b n) (y : portFrame b c n) : portFrame a c n := by
  obtain ⟨x1, x2, x3, x4, x5, x6⟩ := x
  obtain ⟨y1, y2, y3, y4, y5, y6⟩ := y
  exact ⟨sameMemory_trans x1 y1, y2.trans x2, y3.trans x3, y4.trans x4, y5.trans x5, fun k hk => (y6 k hk).trans (x6 k hk)⟩

/-- The record of the cycle is none of what a port's access keeps. -/
theorem portFrame_tick (s : State) (n : PortId) (k : Tick) : portFrame s { s with tick := k } n :=
  ⟨sameMemory_of_eq rfl rfl rfl, rfl, rfl, rfl, rfl, fun _ _ => rfl⟩

/-- A port that reads a register keeps the value. -/
theorem readAddr_portErr (s : State) (n : PortId) :
    readAddr s (.bar0 n 0x18) = updPort (readReg s (portErr n)).1 n (fun y => { y with regRead := (readReg s (portErr n)).2 }) := by
  have hc : canonKey (portErr n) = portErr n := canonKey_portReg n (by omega) (by omega)
  have hs : portErr n / 2 ^ 52 = 3 := (portReg_parts n (by omega)).1
  have hb : bar0Read s n.val 0x18 = readReg s (portErr n) := by
    unfold bar0Read
    rw [if_pos (by omega), ← readRegAt_plain s hc (by omega), portErr]
  have ho : (0x18 : BitVec 25).toNat = 0x18 := by decide
  unfold readAddr
  dsimp only
  rw [ho, hb]

theorem rcCounterRead_portErr (n : PortId) (s : State) (old : Word) (ho : old = spGet s.ticks.before (rd s (portErr n)) (portErr n)) :
    ∃ s', exec (.rcCounterRead (.bar0 n 0x18)) s = .next s' ∧ (portOf s' n).regRead = old ∧ otherRegs s s' (portErr n) ∧ portFrame s s' n
      ∧ ∀ f ∈ [(15, 0), (31, 16), (47, 32), (63, 48)], fld s' (portErr n) f.1 f.2 = (fld s (portErr n) f.1 f.2 + 2 ^ 16 - bits old f.1 f.2) % 2 ^ 16 := by
  obtain ⟨-, k, hk⟩ := readReg_rc s (key := portErr n) (by rw [keyFields_portErr]; decide)
  have he := readAddr_portErr s n
  rw [readReg_portErr, hk] at he
  have hr : ∀ j, rd (updPort { wr s (portErr n) (wordLeft s (portErr n)) with tick := k } n (fun y => { y with regRead := wordBefore s (portErr n) })) j
      = rd (wr s (portErr n) (wordLeft s (portErr n))) j := fun j => (rd_congr (updPort_regs _ _ _) j).trans (rd_tick _ k j)
  refine ⟨_, congrArg Host.Outcome.next he, ?_, fun j hj => ?_, ?_, fun f hf => ?_⟩
  · rw [portOf_updPort_same]; exact ho.symm
  · rw [hr, rd_wr_ne _ _ hj]
  · exact portFrame_trans (portFrame_trans (portFrame_wr s n _ _) (portFrame_tick _ n k)) (portFrame_updPort _ n _)
  · have hw : f.1 + 1 - f.2 = 16 := by revert f; decide
    have hb : wordBefore s (portErr n) = old := ho.symm
    rw [fld, hr, rd_wr_same, wordLeft, keyFields_portErr, bits_mapRc_portErr _ _ hf]
    dsimp only
    rw [hw, hb]

theorem registerWrite_queueBase (n : PortId) (q : Fin 16) (v : Word) (s : State) (hq : qEnabled s n q = false) :
    ∃ s', exec (.registerWrite (.bar0 n (BitVec.ofNat 25 (0x1000 + 0x40 * q))) v) s = .next s'
      ∧ fld s' (qBase n q) 63 6 = bits v 63 6 ∧ otherRegs s s' (qBase n q) ∧ portFrame s s' n := by
  have := q.isLt
  have hf : ∀ q : Fin 16, fieldsAt portRegs (0x1000 + 0x40 * q.val) = [⟨63, 6, .rw, 0⟩] := by decide
  have ho : (BitVec.ofNat 25 (0x1000 + 0x40 * q.val)).toNat = 0x1000 + 0x40 * q.val := by
    rw [BitVec.toNat_ofNat]; omega
  have hd : (0x1000 + 0x40 * q.val - 0x1000) / 0x40 = q.val := by omega
  have he : writeAddr s (.bar0 n (BitVec.ofNat 25 (0x1000 + 0x40 * q.val))) v = wr s (qBase n q) (writtenWord s (qBase n q) v) := by
    unfold writeAddr
    dsimp only
    rw [ho, bar0Write, if_neg (by omega), if_neg (by omega), if_neg (by omega), if_pos (by omega), writeBase, hd, hq, if_neg (by decide)]
    exact storeReg_portReg s n (by omega) (by omega) (by rw [hf]; simp) v
  refine ⟨_, congrArg Host.Outcome.next he, ?_, fun k hk => rd_wr_ne _ _ hk, portFrame_wr s n _ _⟩
  rw [fld, rd_wr_same]
  exact bits_writtenWord_portReg s n (off := 0x1000 + 0x40 * q.val) (by omega) (by omega) (by omega) v
    (f := ⟨63, 6, .rw, 0⟩) (by rw [hf]; exact List.mem_singleton.2 rfl) rfl

/-- A port's state is a matter of the ports. -/
theorem portOf_congr {s s' : State} (h : s'.ports = s.ports) (n : Nat) : portOf s' n = portOf s n := by simp only [portOf, h]

/-- A vector no longer masked sends its pending interrupt. -/
theorem sendPending_unmasked (s : State) (n i : Nat) (hp : bit (rd s (msixPending n)) i = true) (hm : bit (rd s (msixCtl n i)) 32 = false)
    (hne : msixCtl n i ≠ msixPending n) :
    sendPending s n i = updPort (setFld s (msixPending n) i i 0) n (fun x => { x with msix := x.msix ++ [BitVec.ofNat 6 i] }) := by
  unfold sendPending raiseMsix
  rw [hp, hm, if_pos (by decide), rd_setFld_ne _ _ _ _ hne, hm, if_neg (by decide)]

/-- A vector's control word takes its mask and its data as written. -/
theorem msixCtl_written (s : State) (n : PortId) (i : Fin 64) (v : Word) :
    bits (writtenWord s (msixCtl n i) v) 32 0 = bits v 32 0 ∧ bits (writtenWord s (msixCtl n i) v) 32 32 = bits v 32 32 := by
  have := i.isLt
  have hf : ∀ i : Fin 64, fieldsAt portRegs (0x2080008 + 0x10 * i.val) = [⟨31, 0, .rw, 0⟩, ⟨32, 32, .rw, 1⟩] := by decide
  have hb {f : RegField} (hm : f ∈ [(⟨31, 0, .rw, 0⟩ : RegField), ⟨32, 32, .rw, 1⟩]) (hrw : f.acc = .rw) :
      bits (writtenWord s (msixCtl n i) v) f.hi f.lo = bits v f.hi f.lo :=
    bits_writtenWord_portReg s n (off := 0x2080008 + 0x10 * i.val) (by omega) (by omega) (by omega) v (by rw [hf]; exact hm) hrw
  have hd : bits (writtenWord s (msixCtl n i) v) 31 0 = bits v 31 0 := hb (f := ⟨31, 0, .rw, 0⟩) (by simp) rfl
  have hk : bits (writtenWord s (msixCtl n i) v) 32 32 = bits v 32 32 := hb (f := ⟨32, 32, .rw, 1⟩) (by simp) rfl
  refine ⟨?_, hk⟩
  rw [bits_split _ (mid := 31) (by omega) (by omega), bits_split v (hi := 32) (mid := 31) (by omega) (by omega), hd, hk]

theorem registerWrite_msixUnmask (n : PortId) (i : Fin 64) (v : Word) (s : State) (hv : bit v 32 = false) (hp : bit (rd s (msixPending n)) i = true) :
    ∃ s', exec (.registerWrite (.bar4 n (BitVec.ofNat 20 (0x80008 + 16 * i))) v) s = .next s' ∧ fld s' (msixCtl n i) 32 0 = bits v 32 0
      ∧ bit (rd s' (msixPending n)) i = false ∧ (portOf s' n).msix = (portOf s n).msix ++ [BitVec.ofNat 6 i] := by
  have hi := i.isLt
  obtain ⟨hd, hk⟩ := msixCtl_written s n i v
  have hne : msixCtl n i ≠ msixPending n := by simp only [msixCtl, msixPending, portReg]; omega
  have hf : ∀ i : Fin 64, fieldsAt portRegs (0x2080008 + 0x10 * i.val) ≠ [] := by decide
  have ho : (BitVec.ofNat 20 (0x80008 + 16 * i.val)).toNat = 0x80008 + 16 * i.val := by
    rw [BitVec.toNat_ofNat]; omega
  have hs : storeReg s (portReg n (0x2000000 + (0x80008 + 16 * i.val))) v = wr s (msixCtl n i) (writtenWord s (msixCtl n i) v) := by
    rw [show 0x2000000 + (0x80008 + 16 * i.val) = 0x2080008 + 0x10 * i.val by omega]
    exact storeReg_portReg s n (by omega) (by omega) (hf i) v
  have hm : bit (rd (wr s (msixCtl n i) (writtenWord s (msixCtl n i) v)) (msixCtl n i)) 32 = false := by
    rw [bits_bit, bits_bit, hv] at hk
    rw [rd_wr_same]
    cases hb : bit (writtenWord s (msixCtl n i) v) 32 with
    | false => rfl
    | true => rw [hb] at hk; exact absurd hk (by decide)
  have he : writeAddr s (.bar4 n (BitVec.ofNat 20 (0x80008 + 16 * i.val))) v
      = updPort (setFld (wr s (msixCtl n i) (writtenWord s (msixCtl n i) v)) (msixPending n) i i 0) n
        (fun x => { x with msix := x.msix ++ [BitVec.ofNat 6 i] }) := by
    unfold writeAddr
    dsimp only
    rw [ho, bar4Write, if_neg (by omega), if_pos (by omega), hs, show (0x80008 + 16 * i.val - 0x80000) / 16 = i.val by omega]
    exact sendPending_unmasked _ n i (by rw [rd_wr_ne _ _ hne.symm]; exact hp) hm hne
  refine ⟨_, congrArg Host.Outcome.next he, ?_, ?_, ?_⟩
  · rw [fld, rd_congr (updPort_regs _ _ _), rd_setFld_ne _ _ _ _ hne, rd_wr_same]
    exact hd
  · rw [rd_congr (updPort_regs _ _ _), setFld, rd_wr_same, bit, getLsbD_putBits _ _ _ _ _ (Nat.le_refl _) hi, if_pos ⟨Nat.le_refl _, Nat.le_refl _⟩]
    exact Nat.zero_testBit _
  · rw [portOf_updPort_same, portOf_congr (setFld_ports _ _ _ _ _), portOf_congr (wr_ports _ _ _)]

/-! ### The statement -/

/-- Settles O51: each command's clause is a lemma of its own. -/
theorem registerCommandsTakeTheirEffect : Obligations.RegisterCommandsTakeTheirEffect := by
  unfold Obligations.RegisterCommandsTakeTheirEffect
  refine ⟨fun n v s => ⟨partWdogWrite_unbound n v s, partWdogWrite_bound n v s⟩, fun t v s => tileWrites_off t v s, fun t v s h => ?_,
    fun n v draw s => ⟨adminWrites_refused n v draw s, fun h => ?_⟩, rcCounterRead_portErr, registerWrite_queueBase, registerWrite_msixUnmask⟩
  · exact ⟨rngSeedWrite_on h v, fun n w hw => ⟨tileKeepWrite_fits h n v w hw, tileKeepWrite_refused h n v w hw⟩,
      fun i a ha => ⟨instructionStoreWrite_open h i v ha, instructionStoreWrite_busy h i v⟩,
      fun e w => ⟨triggerEntryWrite_armed h e w v, triggerEntryWrite_disarmed h e w v⟩⟩
  · exact ⟨mpwrCapWrite_admin n v s h, mereReslimWrite_admin n v s h, rlKey3Write_admin n v s h, nodeIdWrite_admin n v draw s h⟩

end Sys2Proof.Proofs
end
